-- ==== Sys2Proof/Word.lean ====
section
/-!
DEFINITION. The word types of the BX4016 model and their plainest names.
-/
namespace Sys2Proof

/-- One byte of a flash, vault, frame or record layout. -/
abbrev Byte := BitVec 8

/-- A contiguous byte string, lowest offset first. -/
abbrev Bytes := List Byte

/-- A 32-bit vault or OTP word (R153, R170). -/
abbrev Word32 := BitVec 32

/-- The event vector (R33, R510): bit n is event n. -/
abbrev EventVec := BitVec 256

end Sys2Proof
end

