-- ==== Sys2Proof/Syntax.lean ====
section
/-!
DEFINITION. The commands of the block: one constructor of `Instr` per row of spec/opcode_table.json, with
the operands that the rule of the row gives the step.
-/
namespace Sys2Proof

/-- A tenant slot T0–T15 (R272). -/
abbrev TSlot := Fin 16

/-- The two SPI target ports (R275). -/
inductive Port where
  | a
  | b
deriving DecidableEq, Repr

/-- What a brown-out trip is caused by (R112, R468: causes 1 and 2 of START). -/
inductive TripCause where
  | vbat
  | vddioH
  | vddioF
deriving DecidableEq, Repr

/-- What the strap window finds at the pads (R90, R93, R519). `cfg0`–`cfg2` hold the pad voltage in microvolts that the
sample-and-hold keeps for each of the eight conversions, in the order taken. `fstrap`, `astrap` and `alertb` hold the pad
level in millivolts at each of the eight reads, `none` when nothing holds the pad. `vddioH` and `vddioF` are the bank
supplies in millivolts at the end of phase P (R71, R114). -/
structure StrapInputs where
  cfg0 : List Int
  cfg1 : List Int
  cfg2 : List Int
  fstrap : List (Option Nat)
  astrap : List (Option Nat)
  alertb : List (Option Nat)
  vddioH : Nat
  vddioF : Nat
deriving DecidableEq, Repr

/-- The fields of a Rarvo frame after SOF (R348), as received. `priority` and `kind` are the two nibbles of the first two
bytes, `flags` the whole flags byte. `check` holds 2 bytes unsealed and 8 bytes sealed. -/
structure Frame where
  priority : Nat
  srcNode : Byte
  kind : Nat
  srcUnit : Bytes
  flags : Byte
  dstNode : Byte
  dstUnit : Bytes
  request : Byte
  counter : Word32
  payload : Bytes
  check : Bytes
deriving DecidableEq, Repr

/-- One send on a mailbox channel as its master makes it (R57, R59): identity, offset and length in 8-byte units, topic. -/
structure NoticeReq where
  sender : Fin 16
  offset : BitVec 8
  length : BitVec 5
  topic : BitVec 7
deriving DecidableEq, Repr

/-- The requests that wake the fabric from S (R121). -/
inductive WakeSource where
  | badgerEvent
  | notice
  | portQueue
  | lnkEdge
deriving DecidableEq, Repr

/-- How an attempt to send a frame ends on LNK: sent whole; lost in the arbitration region, or on a transceiver segment another sender's
SOF seen first (R344, R347); a bit read back that differs (R347). -/
inductive TxOutcome where
  | sent
  | arbitrationLost
  | mismatch
deriving DecidableEq, Repr

/-- The TRNG health tests (R402, R403). -/
inductive TrngTest where
  | repetition
  | proportion
deriving DecidableEq, Repr

/-- The places a debug access word may name (R478). -/
inductive DebugSpace where
  | lapSlot
  | eventVector
  | programBank
  | pollTable
  | occupancy
  | auditWindow
  | vaultOther
  | ledgerHalves
  | commitWord
  | otpWord
  | otpGroup
  | otpPatch
  | flashDirectory
  | crossTable
  | sram
  | den
  | leafCache
  | bounceBuffer
  | sessionTable
  | keyStore
  | keyOtp
  | scan
deriving DecidableEq, Repr

/-- A debug access word (R478): a read or a write of 32 bits, a Sequencer command of R251 to physical flash, or a single-lap
step of a halted fabric. -/
inductive DebugOp where
  | read (space : DebugSpace) (addr : Nat)
  | write (space : DebugSpace) (addr : Nat) (data : Word32)
  | flashRead (chip : Fin 2) (addr : Nat) (len : Nat)
  | flashProgram (chip : Fin 2) (addr : Nat) (data : Bytes)
  | flashErase4k (chip : Fin 2) (addr : Nat)
  | flashErase64k (chip : Fin 2) (addr : Nat)
  | stepLap
deriving DecidableEq, Repr

/-- The commands of the BX4016: one constructor per row of spec/opcode_table.json, in its order. -/
inductive Instr where
  /-- POWER_ON_RESET (R113): the supplies in millivolts as phase R ends. -/
  | powerOnReset (vbat vddioH vddioF : Nat)
  /-- BROWN_OUT (R83): the monitor that trips, and the VBAT in millivolts that the supply falls to. -/
  | brownOut (cause : TripCause) (vbat : Nat)
  /-- COMMIT_MONITOR_TRIP (R123). -/
  | commitMonitorTrip
  /-- COMMIT_MONITOR_RELEASE (R318). -/
  | commitMonitorRelease
  /-- STRAP_WINDOW_OPEN (R76): what the window samples. -/
  | strapWindowOpen (inputs : StrapInputs)
  /-- STRAP_KEEPER_LATCH (R76): the pad levels in millivolts of FCS1#/FSTRAP, ALERTA#/ASTRAP and ALERTB#/LDIR at window slot 63,488, `none`
  when nothing holds the pad. -/
  | strapKeeperLatch (fstrap astrap alertb : Option Nat)
  /-- STRAP_WINDOW_END (R76). -/
  | strapWindowEnd
  /-- KEEPER_GAP_END (R77): `tripAfter` counts the OTP bits pulsed before the commit monitor trips in this start (R141, R143);
  `none` when it does not trip while the ROM runs. -/
  | keeperGapEnd (tripAfter : Option Nat)
  /-- SOURCE_ATTEMPT_TIMEOUT (R187). -/
  | sourceAttemptTimeout
  /-- RECOVERY_WAIT_TIMEOUT (R197). -/
  | recoveryWaitTimeout
  /-- READOUT_STATEMENT_REQUEST (R475). -/
  | readoutStatementRequest (nonce : Bytes)
  /-- STAGING_DECISION (R233). -/
  | stagingDecision (t : TSlot)
  /-- FREE_POOL_REBUILD (R265). -/
  | freePoolRebuild
  /-- TICKET_WINDOW (R332): the window, in the order of start slot of all thirty (R42). -/
  | ticketWindow (w : Fin 30)
  /-- LEAF_VERIFY_DONE (R294): the Cipher lane whose interval ends. -/
  | leafVerifyDone (lane : Fin 2)
  /-- CACHE_PUBLICATION (R304). -/
  | cachePublication (t : TSlot)
  /-- LANE_POLL (R282). -/
  | lanePoll (t : TSlot)
  /-- DEFERRAL_LIMIT_EXPIRY (R333). -/
  | deferralLimitExpiry (t : TSlot)
  /-- READ_DATA 03h (R306). -/
  | readData (p : Port) (addr : BitVec 24) (count : Nat)
  /-- FAST_READ 0Bh (R275). -/
  | fastRead (p : Port) (addr : BitVec 24) (count : Nat)
  /-- DUAL_OUTPUT_READ 3Bh (R275). -/
  | dualOutputRead (p : Port) (addr : BitVec 24) (count : Nat)
  /-- DUAL_IO_READ BBh (R275); mode bits are clocked in and ignored. -/
  | dualIoRead (p : Port) (addr : BitVec 24) (mode : Byte) (count : Nat)
  /-- QUAD_OUTPUT_READ 6Bh (R275). -/
  | quadOutputRead (p : Port) (addr : BitVec 24) (count : Nat)
  /-- QUAD_IO_READ EBh (R275); mode bits are clocked in and ignored. -/
  | quadIoRead (p : Port) (addr : BitVec 24) (mode : Byte) (count : Nat)
  /-- WRITE_ENABLE 06h (R275). -/
  | writeEnable (p : Port)
  /-- WRITE_DISABLE 04h (R275). -/
  | writeDisable (p : Port)
  /-- PAGE_PROGRAM 02h (R275): `onByte` when chip select rises on a byte boundary. -/
  | pageProgram (p : Port) (addr : BitVec 24) (data : Bytes) (onByte : Bool)
  /-- SECTOR_ERASE_4K 20h (R275). -/
  | sectorErase4k (p : Port) (addr : BitVec 24) (onByte : Bool)
  /-- BLOCK_ERASE_64K D8h (R275). -/
  | blockErase64k (p : Port) (addr : BitVec 24) (onByte : Bool)
  /-- READ_STATUS 05h (R279). -/
  | readStatus (p : Port) (count : Nat)
  /-- READ_FLAG_STATUS 70h (R280). -/
  | readFlagStatus (p : Port) (count : Nat)
  /-- CLEAR_FLAGS 50h (R281). -/
  | clearFlags (p : Port)
  /-- READ_SFDP 5Ah (R284). -/
  | readSfdp (p : Port) (addr : BitVec 24) (count : Nat)
  /-- READ_ID 9Fh (R275). -/
  | readId (p : Port) (count : Nat)
  /-- RESET_ENABLE 66h (R278). -/
  | resetEnable (p : Port)
  /-- RESET 99h (R278). -/
  | reset (p : Port)
  /-- DEEP_POWER_DOWN B9h (R278). -/
  | deepPowerDown (p : Port)
  /-- RELEASE_POWER_DOWN ABh (R278): bytes clocked after the 24 further clocks. -/
  | releasePowerDown (p : Port) (count : Nat)
  /-- FILTERED_OPCODE (R276): the opcode and the three bytes clocked on IO0, `none` when chip select rises before them. -/
  | filteredOpcode (p : Port) (opcode : Byte) (addr : Option (BitVec 24))
  /-- CHIP_SELECT_FALL_BEFORE_RELEASE (R236). -/
  | chipSelectFall (p : Port)
  /-- INTAKE_PAGE_PROGRAM (R414). -/
  | intakePageProgram (addr : BitVec 24) (data : Bytes)
  /-- WRITE_ACCEPTANCE (R314). -/
  | writeAcceptance (t : TSlot)
  /-- BOUNCE_BUFFER_IDLE_CLOSE (R315). -/
  | bounceBufferIdleClose (t : TSlot)
  /-- COMMIT_START (R317). -/
  | commitStart
  /-- FLASH_OPERATION_DONE (R269): the chip and its error bit. -/
  | flashOperationDone (chip : Fin 2) (error : Bool)
  /-- FLASH_OPERATION_TIMEOUT (R269): whether the chip is still busy 30 µs after 66h, 99h. -/
  | flashOperationTimeout (chip : Fin 2) (stillBusy : Bool)
  /-- FLASH_POWER_RESTORE (R268): whether chip 0 and chip 1 answer discovery with a table that meets R247 (R269). -/
  | flashPowerRestore (answers0 answers1 : Bool)
  /-- ERASE_QUEUE_ERASE (R262). -/
  | eraseQueueErase
  /-- FLASH_DIRECTORY_UPDATE (R255). -/
  | flashDirectoryUpdate
  /-- VAULT_WRITE_COMPLETE (R170). -/
  | vaultWriteComplete
  /-- LEDGER_UPDATE (R178): the step U1–U4 in which the commit monitor trips, `none` when it does not. -/
  | ledgerUpdate (tripIn : Option (Fin 4))
  /-- LEDGER_INITIALISE (R177). -/
  | ledgerInitialise
  /-- AUDIT_APPEND (R463). -/
  | auditAppend
  /-- SPILL_BATCH_WRITE (R466). -/
  | spillBatchWrite
  /-- MAKE_STATEMENT (R287). -/
  | makeStatement (t : TSlot)
  /-- STATEMENT_SIGNING (R472). -/
  | statementSigning
  /-- APPEND_NOTE (R288). -/
  | appendNote (t : TSlot)
  /-- NEW_NONCE (R289). -/
  | newNonce (t : TSlot)
  /-- ADVANCE_COUNTER (R289). -/
  | advanceCounter (t : TSlot)
  /-- NONCE_AND_ADVANCE (R289). -/
  | nonceAndAdvance (t : TSlot)
  /-- CONFIRM_GENERATION (R290). -/
  | confirmGeneration (t : TSlot)
  /-- SLEEP_ENTRY (R118): the wake count of sleep laps that Warden sets, if any (R121). -/
  | sleepEntry (wakeCount : Option Nat)
  /-- WAKE_REQUEST (R120). -/
  | wakeRequest (src : WakeSource)
  /-- SLEEP_TIMER_WAKE (R121). -/
  | sleepTimerWake
  /-- FABRIC_RESUME (R119). -/
  | fabricResume
  /-- WATCHDOG_EXPIRY (R129). -/
  | watchdogExpiry
  /-- GLITCH_MONITOR_ALARM (R129). -/
  | glitchMonitorAlarm
  /-- LFXO_QUALIFIED (R127). -/
  | lfxoQualified
  /-- LFXO_LOST (R128). -/
  | lfxoLost
  /-- LFXO_DEADLINE (R244). -/
  | lfxoDeadline
  /-- NOTICE_SEND (R59): a send on a channel and, when the other side of a shared channel sends at the same edge (R62), that
  send. -/
  | noticeSend (ch : Fin 12) (req : NoticeReq) (other : Option NoticeReq)
  /-- NOTICE_RECEIVE (R63): the identity of the reader. -/
  | noticeReceive (ch : Fin 12) (reader : Fin 16)
  /-- EVENT_POLL (R33): the event bit; `relatch` when the source fires again in the same slot (R34). -/
  | eventPoll (e : Fin 256) (relatch : Bool)
  /-- TRNG_HEALTH_FAILURE (R403). -/
  | trngHealthFailure (src : Fin 2) (test : TrngTest)
  /-- DRBG_RESEED (R402). -/
  | drbgReseed
  /-- BADGER_TICK (R445): the pad voltages of SENSE0–SENSE3 in millivolts at the comparator strobe. -/
  | badgerTick (sense0 sense1 sense2 sense3 : Nat)
  /-- BADGER_TIMER_EXPIRY (R441). -/
  | badgerTimerExpiry (timer : Fin 8)
  /-- EGRESS_HOLD_EXPIRY (R453). -/
  | egressHoldExpiry
  /-- TAMPER_HOLD_EXPIRY (R454). -/
  | tamperHoldExpiry
  /-- GUARD_WORD_WRITE (R452). -/
  | guardWordWrite
  /-- BADGER_PROGRAM_SWITCH (R457). -/
  | badgerProgramSwitch
  /-- LINK_OPEN (R237). -/
  | linkOpen
  /-- FIRST_BEACON (R237). -/
  | firstBeacon
  /-- BEACON_PERIOD (R353). -/
  | beaconPeriod
  /-- LINK_OPEN_RECORD_DEADLINE (R240). -/
  | linkOpenRecordDeadline
  /-- FRAME_TRANSMIT (R346). -/
  | frameTransmit (outcome : TxOutcome)
  /-- BEACON (R353). -/
  | beacon (f : Frame)
  /-- BEACON_REQUEST (R238). -/
  | beaconRequest (f : Frame)
  /-- BEACON_VERIFY (R355): the unit whose BEACON is verified. -/
  | beaconVerify (unit : Bytes)
  /-- JOIN (R356). -/
  | join (f : Frame)
  /-- JOIN_ADMIT (R239). -/
  | joinAdmit
  /-- ADMIT (R358): `session` is the identifier that the frame was sealed under (R359), which the ADMIT itself carries. -/
  | admitFrame (f : Frame) (session : Word32)
  /-- WAIT (R337). -/
  | waitFrame (f : Frame)
  /-- REFUSE (R351). -/
  | refuseFrame (f : Frame)
  /-- READ (R361). -/
  | readFrame (f : Frame)
  /-- WRITE_PROGRAM (R361). -/
  | writeProgram (f : Frame)
  /-- WRITE_ERASE_4K (R361). -/
  | writeErase4k (f : Frame)
  /-- WRITE_ERASE_64K (R361). -/
  | writeErase64k (f : Frame)
  /-- ACK (R362). -/
  | ackFrame (f : Frame)
  /-- NOTICE_REPEAT (R362). -/
  | noticeRepeat (t : TSlot)
  /-- STATEMENT_REQUEST (R361). -/
  | statementRequest (f : Frame)
  /-- STATEMENT_FRAGMENT (R351). -/
  | statementFragment (f : Frame)
  /-- PARCEL_TENANT_FRAGMENT (R432). -/
  | parcelTenantFragment (f : Frame)
  /-- PARCEL_IMPORT (R432). -/
  | parcelImport
  /-- PARCEL_RESULT (R430). -/
  | parcelResult (f : Frame)
  /-- PARCEL_RECOVERY_PAIR (R192). -/
  | parcelRecoveryPair (f : Frame)
  /-- PARCEL_IMAGE_FRAGMENT (R385). -/
  | parcelImageFragment (f : Frame)
  /-- PARCEL_RECOVERY_REQUEST (R385). -/
  | parcelRecoveryRequest (f : Frame)
  /-- CROSS (R377). -/
  | cross (f : Frame)
  /-- TIME (R374): the falling edge of its SOF. -/
  | timeFrame (f : Frame)
  /-- ELECT (R241). -/
  | elect (f : Frame)
  /-- LEAVE (R360). -/
  | leave (f : Frame)
  /-- ELECT_SEND (R241). -/
  | electSend
  /-- LEAD_ELECTION (R242). -/
  | leadElection
  /-- COLD_WINDOW_RENEW (R242). -/
  | coldWindowRenew
  /-- LEAD_LOSS_TIMEOUT (R369). -/
  | leadLossTimeout
  /-- LEAD_CONFIRM_TIMEOUT (R371). -/
  | leadConfirmTimeout
  /-- MEMBER_LOSS_TIMEOUT (R373): the silent member. -/
  | memberLossTimeout (unit : Bytes)
  /-- TIME_SEND (R374). -/
  | timeSend
  /-- CROSS_INITIATE (R379). -/
  | crossInitiate
  /-- CROSS_RESPONDER_TURN (R377). -/
  | crossResponderTurn
  /-- CROSS_REPLY_TIMEOUT (R378). -/
  | crossReplyTimeout
  /-- RECOVERY_PAIR_CYCLE (R383): the lost member addressed. -/
  | recoveryPairCycle (unit : Bytes)
  /-- RECOVERY_REQUEST_SEND (R384). -/
  | recoveryRequestSend (t : TSlot)
  /-- INSTALL_CHECK (R415). -/
  | installCheck
  /-- TENANT_IMAGE_INSTALL (R416). -/
  | tenantImageInstall
  /-- SCHEDULE_PAIR_INSTALL (R420). -/
  | schedulePairInstall
  /-- TENANT_RESTART (R419). -/
  | tenantRestart (t : TSlot)
  /-- CONFIRM_WINDOW_EXPIRY (R422). -/
  | confirmWindowExpiry (t : TSlot)
  /-- REVERT_RETRY (R423). -/
  | revertRetry (t : TSlot)
  /-- HANDOVER_LAP (R425). -/
  | handoverLap
  /-- HANDOVER_SELF_CHECK (R428). -/
  | handoverSelfCheck
  /-- HANDOVER_DEADLINE (R428). -/
  | handoverDeadline
  /-- PARCEL_EXPORT (R430). -/
  | parcelExport
  /-- PARCEL_RESULT_TIMEOUT (R433). -/
  | parcelResultTimeout
  /-- PROBE_HALT_REQUEST (R479). -/
  | probeHaltRequest
  /-- HALT_ENTRY (R479). -/
  | haltEntry
  /-- PROBE_RESUME_REQUEST (R479). -/
  | probeResumeRequest
  /-- DEBUG_ACCESS_WORD (R478). -/
  | debugAccessWord (op : DebugOp)
  /-- CONFIRMATION_PULSE_EDGE (R106, R437): the window slot and the level in millivolts that SENSE3 takes there. -/
  | confirmationPulseEdge (slot sense3 : Nat)
  /-- BANK_SUPPLY_IN_RANGE (R72): VDDIO_H in millivolts. -/
  | bankSupplyInRange (vddioH : Nat)
  /-- LINK_RECEIVE_ERROR (R346). -/
  | linkReceiveError
  /-- BUS_IDLE (R346). -/
  | busIdle
  /-- REQUEST_REPEAT_TIMEOUT (R365). -/
  | requestRepeatTimeout
  /-- RETRY_AFTER_EXPIRY (R239). -/
  | retryAfterExpiry
  /-- NOTICE_FRAME_RECEIVED (R387). -/
  | noticeFrame (f : Frame)
  /-- DATA_FRAME_RECEIVED (R352). -/
  | dataFrame (f : Frame)
deriving DecidableEq, Repr

end Sys2Proof
end

