-- ==== Sys2Proof/Machine/Bytes.lean ====
section
/-!
DEFINITION. Byte-string helpers: big-endian integers (R6), slices, padding.
-/
namespace Sys2Proof.Machine

/-- `n` as `w` big-endian bytes (R6). -/
def be (w n : Nat) : Bytes :=
  match w with
  | 0 => []
  | w + 1 => BitVec.ofNat 8 (n >>> (8 * w)) :: be w n

/-- The number that big-endian bytes hold (R6). -/
def beNat (bs : Bytes) : Nat := bs.foldl (fun acc b => acc * 256 + b.toNat) 0

/-- `n` as `w` little-endian bytes, for the JESD216 tables (R284). -/
def le (w n : Nat) : Bytes := (be w n).reverse

/-- The number that little-endian bytes hold. -/
def leNat (bs : Bytes) : Nat := beNat bs.reverse

/-- `len` bytes from offset `off`, fewer at the end of the string. -/
def slice (bs : Bytes) (off len : Nat) : Bytes := (bs.drop off).take len

/-- The big-endian field of `len` bytes at `off` (R6). -/
def field (bs : Bytes) (off len : Nat) : Nat := beNat (slice bs off len)

/-- The byte at `off`, 0 beyond the end. -/
def byteAt (bs : Bytes) (off : Nat) : Byte := (bs.drop off).headD 0

/-- `bs` cut or filled with `fill` to `n` bytes. -/
def fit (n : Nat) (fill : Byte) (bs : Bytes) : Bytes := bs.take n ++ List.replicate (n - bs.length) fill

/-- `n` zero bytes. -/
def zeros (n : Nat) : Bytes := List.replicate n 0

/-- Byte-wise exclusive or, to the shorter length. -/
def xorBytes (a b : Bytes) : Bytes := List.zipWith (fun x y => x ^^^ y) a b

/-- Whether every byte is `v`. -/
def allBytes (v : Byte) (bs : Bytes) : Bool := bs.all (fun b => b == v)

/-- The bytes of an ASCII string. -/
def ascii (s : String) : Bytes := s.toList.map (fun c => BitVec.ofNat 8 c.toNat)

/-- `bs` in pieces of `n` bytes, the last one shorter; `fuel` bounds the number of pieces. -/
def piecesAux (fuel n : Nat) (bs : Bytes) : List Bytes :=
  match fuel, bs with
  | 0, _ => []
  | _, [] => []
  | fuel + 1, bs => bs.take n :: piecesAux fuel n (bs.drop n)

/-- `bs` in pieces of `n` bytes, the last one shorter. -/
def pieces (n : Nat) (bs : Bytes) : List Bytes := piecesAux bs.length n bs

/-- `⌈a ÷ b⌉`. -/
def ceilDiv (a b : Nat) : Nat := (a + b - 1) / b

/-- `n` limited to 65,535 (R286, R352). -/
def sat16 (n : Nat) : Nat := min n 65535

end Sys2Proof.Machine
end

