-- ==== Sys2Proof/Machine/Crypto.lean ====
section
/-!
DEFINITION. The Cipher engine's algorithms (R389): SHA3-256 and KMAC256, SHA-256, AES-256 in counter mode and GCM, by the
standards that the rule names (FIPS 202, SP 800-185, FIPS 180-4, FIPS 197, SP 800-38A, SP 800-38D; PRESUMED, log 9), with the
results of R392. Every function is irreducible: proofs use it as a name.
-/
namespace Sys2Proof.Machine

/-- Rotation offsets of the Keccak lanes, lane x + 5y. -/
def keccakRot : List Nat :=
  [0, 1, 62, 28, 27, 36, 44, 6, 55, 20, 3, 10, 43] ++ [25, 39, 41, 45, 15, 21, 8, 18, 2, 61, 56, 14]

/-- Round constants of Keccak-f[1600]. -/
def keccakRc : List (BitVec 64) :=
  [0x0000000000000001, 0x0000000000008082, 0x800000000000808A, 0x8000000080008000, 0x000000000000808B,
   0x0000000080000001, 0x8000000080008081, 0x8000000000008009] ++
  [0x000000000000008A, 0x0000000000000088, 0x0000000080008009, 0x000000008000000A, 0x000000008000808B,
   0x800000000000008B, 0x8000000000008089, 0x8000000000008003] ++
  [0x8000000000008002, 0x8000000000000080, 0x000000000000800A, 0x800000008000000A, 0x8000000080008081,
   0x8000000000008080, 0x0000000080000001, 0x8000000080008008]

/-- One round of Keccak-f[1600] on 25 lanes. -/
def keccakRound (a : Array (BitVec 64)) (rc : BitVec 64) : Array (BitVec 64) :=
  let g := fun (i : Nat) => a.getD i 0
  let c := (List.range 5).map (fun x => g x ^^^ g (x + 5) ^^^ g (x + 10) ^^^ g (x + 15) ^^^ g (x + 20))
  let c := c.toArray
  let d := ((List.range 5).map (fun x => c.getD ((x + 4) % 5) 0 ^^^ (c.getD ((x + 1) % 5) 0).rotateLeft 1)).toArray
  let rot := keccakRot.toArray
  let b := ((List.range 25).map (fun j =>
    -- lane j of B takes lane (x, y) of A with j = y + 5 ((2x + 3y) mod 5)
    let y := j % 5
    let q := j / 5
    let x := (3 * (q + 10 - 3 * y % 5)) % 5
    let i := x + 5 * y
    (g i ^^^ d.getD x 0).rotateLeft (rot.getD i 0))).toArray
  let h := fun (i : Nat) => b.getD i 0
  let e := ((List.range 25).map (fun i =>
    let x := i % 5
    let r := i - x
    h i ^^^ (~~~ (h (r + (x + 1) % 5)) &&& h (r + (x + 2) % 5)))).toArray
  e.set! 0 (e.getD 0 0 ^^^ rc)

/-- Keccak-f[1600]. -/
def keccakF (a : Array (BitVec 64)) : Array (BitVec 64) := keccakRc.foldl keccakRound a

/-- Absorbs one block of 136 bytes. -/
def keccakAbsorb (a : Array (BitVec 64)) (block : Bytes) : Array (BitVec 64) :=
  let lanes := (pieces 8 block).map (fun w => BitVec.ofNat 64 (leNat w))
  keccakF (((List.range 25).map (fun i => a.getD i 0 ^^^ lanes.toArray.getD i 0)).toArray)

/-- The sponge at rate 136 bytes with the given domain byte; at most 136 bytes out. -/
@[irreducible] def keccak136 (domain : Byte) (data : Bytes) (outLen : Nat) : Bytes :=
  let q := 136 - data.length % 136
  let pad : Bytes := if q = 1 then [domain ||| 0x80] else domain :: zeros (q - 2) ++ [0x80]
  let final := (pieces 136 (data ++ pad)).foldl keccakAbsorb (Array.replicate 25 0)
  ((final.toList.map (fun w => le 8 w.toNat)).flatten).take outLen

/-- SHA3-256 (FIPS 202). -/
@[irreducible] def sha3 (data : Bytes) : Bytes := keccak136 0x06 data 32

/-- The bytes of `n` without leading zeros, at least one. -/
def minimalBytes (n : Nat) : Bytes :=
  let w := (List.range 8).foldl (fun acc i => if n >>> (8 * i) = 0 then acc else i + 1) 1
  be w n

/-- left_encode of SP 800-185. -/
def leftEncode (n : Nat) : Bytes := let m := minimalBytes n; BitVec.ofNat 8 m.length :: m

/-- right_encode of SP 800-185. -/
def rightEncode (n : Nat) : Bytes := let m := minimalBytes n; m ++ [BitVec.ofNat 8 m.length]

/-- encode_string of SP 800-185. -/
def encodeString (s : Bytes) : Bytes := leftEncode (8 * s.length) ++ s

/-- bytepad of SP 800-185 at width 136. -/
def bytepad (x : Bytes) : Bytes :=
  let y := leftEncode 136 ++ x
  y ++ zeros ((136 - y.length % 136) % 136)

/-- KMAC256 (SP 800-185) with an output of `outLen` bytes, at most 136. -/
@[irreducible] def kmac (key : Bytes) (custom : String) (data : Bytes) (outLen : Nat) : Bytes :=
  let head := bytepad (encodeString (ascii "KMAC") ++ encodeString (ascii custom))
  keccak136 0x04 (head ++ bytepad (encodeString key) ++ data ++ rightEncode (8 * outLen)) outLen

/-- The largest root of degree `k` of a number, found bit by bit from bit `bits` − 1 down. -/
def rootFloor (k n bits : Nat) : Nat :=
  ((List.range bits).reverse).foldl (fun r i => if (r + 2 ^ i) ^ k ≤ n then r + 2 ^ i else r) 0

/-- The first 32 bits of the fraction of the root of degree `k` of a number below 2¹⁰, from which FIPS 180-4 takes its constants. -/
def rootFraction (k n : Nat) : BitVec 32 := BitVec.ofNat 32 (rootFloor k (n * 2 ^ (32 * k)) 42)

/-- The primes up to 311: the first 64 (FIPS 180-4). -/
def smallPrimes : List Nat :=
  (List.range 312).filter (fun n => decide (2 ≤ n) && (List.range 18).all (fun d => decide (d < 2) || decide (n ≤ d) || n % d != 0))

/-- A word rotated right by several amounts, the results added without carry. -/
def xorOf (rotated : List (BitVec 32)) : BitVec 32 := rotated.foldl (· ^^^ ·) 0

/-- The schedule of SHA-256 with the latest word in front: the next word follows from the 2nd, 7th, 15th and 16th back. -/
def sha256Extend (words : List (BitVec 32)) : List (BitVec 32) :=
  let back := fun (n : Nat) => words.getD (n - 1) 0
  let old := back 15
  let recent := back 2
  (xorOf [old.rotateRight 7, old.rotateRight 18, old >>> (3 : Nat)] + back 16 + back 7 +
    xorOf [recent.rotateRight 17, recent.rotateRight 19, recent >>> (10 : Nat)]) :: words

/-- The two shift registers of SHA-256: `upper` holds A–D and `lower` E–H, the latest word in front. -/
structure ShaRegs where
  upper : List (BitVec 32)
  lower : List (BitVec 32)

/-- One round: both registers take in a new word and let their last one go. -/
def ShaRegs.round (x : ShaRegs) (constant word : BitVec 32) : ShaRegs :=
  let u := fun (n : Nat) => x.upper.getD n 0
  let l := fun (n : Nat) => x.lower.getD n 0
  let choice := l 2 ^^^ (l 0 &&& (l 1 ^^^ l 2))
  let majority := (u 0 &&& (u 1 ||| u 2)) ||| (u 1 &&& u 2)
  let mixed := word + constant + l 3 + choice + xorOf ([6, 11, 25].map (l 0).rotateRight)
  { upper := (mixed + majority + xorOf ([2, 13, 22].map (u 0).rotateRight)) :: x.upper.take 3
    lower := (mixed + u 3) :: x.lower.take 3 }

/-- One block of SHA-256 taken into the registers. -/
def ShaRegs.absorb (x : ShaRegs) (block : Bytes) : ShaRegs :=
  let first := ((pieces 4 block).map (fun b => BitVec.ofNat 32 (beNat b))).reverse
  let words := ((List.range 48).foldl (fun ws _ => sha256Extend ws) first).reverse
  let y := (smallPrimes.zip words).foldl (fun r pw => r.round (rootFraction 3 pw.1) pw.2) x
  { upper := x.upper.zipWith (· + ·) y.upper, lower := x.lower.zipWith (· + ·) y.lower }

/-- SHA-256 (FIPS 180-4): a 1 bit, zeros and the length fill the last block; the registers start from square roots. -/
@[irreducible] def sha256 (data : Bytes) : Bytes :=
  let fill := 55 + 64 * (data.length / 64 + 1) - data.length
  let message := data ++ 0x80 :: zeros (fill % 64) ++ be 8 (8 * data.length)
  let initial := (smallPrimes.take 8).map (rootFraction 2)
  let final := (pieces 64 message).foldl ShaRegs.absorb ⟨initial.take 4, initial.drop 4⟩
  (final.upper ++ final.lower).flatMap (fun w => be 4 w.toNat)

/-- Multiplication by x in the AES field. -/
def gfDouble (b : Byte) : Byte := (b <<< (1 : Nat)) ^^^ (if b.msb then 0x1b else 0)

/-- Multiplication in the AES field. -/
def gfMul (a b : Byte) : Byte :=
  ((List.range 8).foldl (fun (s : Byte × Byte) i =>
    (if b.getLsbD i then s.1 ^^^ s.2 else s.1, gfDouble s.2)) (0, a)).1

/-- The inverse in the AES field as the 254th power, 0 for 0. -/
def gfInv (a : Byte) : Byte :=
  let a2 := gfMul a a
  let a4 := gfMul a2 a2
  let a8 := gfMul a4 a4
  let a16 := gfMul a8 a8
  let a32 := gfMul a16 a16
  let a64 := gfMul a32 a32
  let a128 := gfMul a64 a64
  gfMul a2 (gfMul a4 (gfMul a8 (gfMul a16 (gfMul a32 (gfMul a64 a128)))))

/-- The AES S-box of one byte. -/
def sboxOf (a : Byte) : Byte :=
  let i := gfInv a
  i ^^^ i.rotateLeft 1 ^^^ i.rotateLeft 2 ^^^ i.rotateLeft 3 ^^^ i.rotateLeft 4 ^^^ 0x63

/-- The AES S-box as a table. -/
def sboxTable : Array Byte := ((List.range 256).map (fun n => sboxOf (BitVec.ofNat 8 n))).toArray

/-- The AES S-box. -/
def sbox (a : Byte) : Byte := sboxTable.getD a.toNat 0

/-- AES-256 key expansion: 60 words of 4 bytes. -/
def aesExpand (key : Bytes) : Array Bytes :=
  (List.range 52).foldl (fun (w : Array Bytes) j =>
    let i := j + 8
    let t := w.getD (i - 1) []
    let t := if i % 8 = 0 then
        xorBytes ((t.drop 1 ++ t.take 1).map sbox)
          ((List.range (i / 8 - 1)).foldl (fun r _ => gfDouble r) 1 :: zeros 3)
      else if i % 8 = 4 then t.map sbox else t
    w.push (xorBytes (w.getD (i - 8) []) t)) (pieces 4 key).toArray

/-- The round keys of 16 bytes. -/
def aesRoundKeys (key : Bytes) : List Bytes :=
  let w := aesExpand key
  (List.range 15).map (fun r => ((List.range 4).map (fun c => w.getD (4 * r + c) [])).flatten)

/-- ShiftRows on a column-major block. -/
def shiftRows (s : Bytes) : Bytes :=
  let a := s.toArray
  (List.range 16).map (fun i => a.getD ((i + 4 * (i % 4)) % 16) 0)

/-- MixColumns on one column. -/
def mixColumn (c : Bytes) : Bytes :=
  match c with
  | [a, b, c, d] =>
    let t := a ^^^ b ^^^ c ^^^ d
    [a ^^^ t ^^^ gfDouble (a ^^^ b), b ^^^ t ^^^ gfDouble (b ^^^ c), c ^^^ t ^^^ gfDouble (c ^^^ d),
     d ^^^ t ^^^ gfDouble (d ^^^ a)]
  | c => c

/-- AES-256 encryption of one block under expanded round keys. -/
def aesBlock (rks : List Bytes) (block : Bytes) : Bytes :=
  match rks with
  | [] => block
  | k0 :: rest =>
    let go := fun (s : Bytes × Nat) (rk : Bytes) =>
      let t := shiftRows (s.1.map sbox)
      let t := if s.2 = 14 then t else ((pieces 4 t).map mixColumn).flatten
      (xorBytes t rk, s.2 + 1)
    (rest.foldl go (xorBytes block k0, 1)).1

/-- Counter mode over whole counter blocks from `start`, adding 1 modulo 2^`width` in the low bits (SP 800-38A). -/
def ctrStream (rks : List Bytes) (width : Nat) (start : Nat) (data : Bytes) : Bytes :=
  let hi := (start >>> width) <<< width
  let lo := start % 2 ^ width
  (((pieces 16 data).zipIdx).map (fun (p : Bytes × Nat) =>
    xorBytes p.1 (aesBlock rks (be 16 (hi + (lo + p.2) % 2 ^ width))))).flatten

/-- AES-256-CTR (R389); the whole counter block is incremented (DEDUCED, log 9). -/
@[irreducible] def aesCtr (key counter data : Bytes) : Bytes :=
  ctrStream (aesRoundKeys key) 128 (beNat counter) data

/-- Multiplication in the GHASH field. -/
def ghashMul (x y : BitVec 128) : BitVec 128 :=
  ((List.range 128).foldl (fun (s : BitVec 128 × BitVec 128) i =>
    (if x.getLsbD (127 - i) then s.1 ^^^ s.2 else s.1,
     (s.2 >>> (1 : Nat)) ^^^ (if s.2.getLsbD 0 then 0xE1000000000000000000000000000000 else 0))) (0, y)).1

/-- GHASH over whole blocks, the last piece of each input filled with zeros. -/
def ghash (h : BitVec 128) (aad data : Bytes) : BitVec 128 :=
  let blocks := (pieces 16 aad).map (fit 16 0) ++ (pieces 16 data).map (fit 16 0) ++
    [be 8 (8 * aad.length) ++ be 8 (8 * data.length)]
  blocks.foldl (fun y b => ghashMul (y ^^^ BitVec.ofNat 128 (beNat b)) h) 0

/-- The 16-byte GCM tag of a ciphertext. -/
def gcmTag (rks : List Bytes) (nonce aad cipher : Bytes) : Bytes :=
  let h := BitVec.ofNat 128 (beNat (aesBlock rks (zeros 16)))
  xorBytes (be 16 (ghash h aad cipher).toNat) (aesBlock rks (nonce ++ [0, 0, 0, 1]))

/-- AES-256-GCM seal with a 12-byte nonce: ciphertext and 16-byte tag (SP 800-38D). -/
@[irreducible] def gcmSeal (key nonce aad plain : Bytes) : Bytes × Bytes :=
  let rks := aesRoundKeys key
  let cipher := ctrStream rks 32 (beNat (nonce ++ [0, 0, 0, 2])) plain
  (cipher, gcmTag rks nonce aad cipher)

/-- AES-256-GCM open: the plaintext when the tag, at its own length, matches (R392). The link uses 8-byte tags (R359). -/
@[irreducible] def gcmOpen (key nonce aad cipher tag : Bytes) : Option Bytes :=
  let rks := aesRoundKeys key
  if (gcmTag rks nonce aad cipher).take tag.length = tag ∧ tag ≠ [] then
    some (ctrStream rks 32 (beNat (nonce ++ [0, 0, 0, 2])) cipher)
  else none

/-- CRC-16 of R348: polynomial 0x1021, initial value 0xFFFF, no reflection, no final exclusive or. -/
@[irreducible] def crc16 (data : Bytes) : BitVec 16 :=
  data.foldl (fun (c : BitVec 16) (b : Byte) =>
    (List.range 8).foldl (fun (c : BitVec 16) _ =>
      if c.msb then (c <<< (1 : Nat)) ^^^ 0x1021 else c <<< (1 : Nat)) (c ^^^ (b.setWidth 16 <<< (8 : Nat)))) 0xFFFF

end Sys2Proof.Machine
end

