-- ==== Sys2Proof/Machine/Curve.lean ====
section
/-!
DEFINITION. The Curve engine's operations on P-256 (R393–R397, FIPS 186-5; PRESUMED, log 9), with the results of R395.
-/
namespace Sys2Proof.Machine

/-- Results of the engines (R392, R395), with the values of R508. -/
inductive CryptoResult where
  | ok
  | badSig
  | badPoint
  | badScalar
  | badTag
deriving DecidableEq, Repr

/-- The reason value of a result (R508). -/
def CryptoResult.code : CryptoResult → Byte
  | .ok => 0x00
  | .badSig => 0x01
  | .badPoint => 0x02
  | .badScalar => 0x03
  | .badTag => 0x04

/-- The field prime p of P-256. -/
def curveP : Nat := 0xFFFFFFFF00000001000000000000000000000000FFFFFFFFFFFFFFFFFFFFFFFF

/-- The order n of P-256. -/
def curveN : Nat := 0xFFFFFFFF00000000FFFFFFFFFFFFFFFFBCE6FAADA7179E84F3B9CAC2FC632551

/-- The coefficient b of P-256. -/
def curveB : Nat := 0x5AC635D8AA3A93E7B3EBBD55769886BC651D06B0CC53B0F63BCE3C3E27D2604B

/-- The base point G. -/
def curveG : Nat × Nat :=
  (0x6B17D1F2E12C4247F8BCE6E563A440F277037D812DEB33A0F4A13945D898C296,
   0x4FE342E2FE1A7F9B8EE7EB4A7C0F9E162BCE33576B315ECECBB6406837BF51F5)

/-- Modular power by squaring over `bits` bits of the exponent. -/
def powMod (m base e bits : Nat) : Nat :=
  ((List.range bits).foldl (fun (s : Nat × Nat) i =>
    (if e.testBit i then s.1 * s.2 % m else s.1, s.2 * s.2 % m)) (1 % m, base % m)).1

/-- The inverse modulo a prime. -/
def invMod (m a : Nat) : Nat := powMod m a (m - 2) 256

/-- A point of the curve, `none` for the point at infinity. -/
abbrev CPoint := Option (Nat × Nat)

/-- Affine point addition, complete. -/
def pointAdd (a b : CPoint) : CPoint :=
  match a, b with
  | none, q => q
  | p, none => p
  | some (x1, y1), some (x2, y2) =>
    let p := curveP
    if x1 = x2 ∧ (y1 + y2) % p = 0 then none
    else
      let l := if x1 = x2 ∧ y1 = y2 then (3 * x1 * x1 + (p - 3)) % p * invMod p (2 * y1) % p
        else (y2 + p - y1) % p * invMod p ((x2 + p - x1) % p) % p
      let x3 := (l * l + 2 * p - x1 - x2) % p
      some (x3, (l * ((x1 + p - x3) % p) + p - y1) % p)

/-- k times a point, over 256 bits of k. -/
@[irreducible] def pointMul (k : Nat) (q : CPoint) : CPoint :=
  ((List.range 256).foldl (fun (s : CPoint × CPoint) i =>
    (if k.testBit i then pointAdd s.1 s.2 else s.1, pointAdd s.2 s.2)) (none, q)).1

/-- Whether affine coordinates in range satisfy the curve equation (R395). -/
def onCurve (x y : Nat) : Bool :=
  decide (x < curveP) && decide (y < curveP) &&
    decide (y * y % curveP = (x * x * x + (curveP - 3) * x + curveB) % curveP)

/-- Decodes a point in one of the two encodings of R394 and validates it (R395). -/
@[irreducible] def decodePoint (bs : Bytes) : Option (Nat × Nat) :=
  match bs with
  | [] => none
  | t :: rest =>
    if t = 0x04 ∧ rest.length = 64 then
      let x := beNat (rest.take 32)
      let y := beNat (rest.drop 32)
      if onCurve x y then some (x, y) else none
    else if (t = 0x02 ∨ t = 0x03) ∧ rest.length = 32 then
      let x := beNat rest
      if x < curveP then
        let y := powMod curveP ((x * x * x + (curveP - 3) * x + curveB) % curveP) ((curveP + 1) / 4) 256
        let y := if y % 2 = t.toNat % 2 then y else (curveP - y) % curveP
        if onCurve x y then some (x, y) else none
      else none
    else none

/-- The compressed form of a point (R394). -/
def compressPoint (q : Nat × Nat) : Bytes := (if q.2 % 2 = 0 then 0x02 else 0x03) :: be 32 q.1

/-- The reduction of R163 and R393: d = (v mod (n − 1)) + 1. -/
def scalarOf (v : Bytes) : Nat := beNat v % (curveN - 1) + 1

/-- A scalar in 1 to n − 1 (R395). -/
def scalarOk (k : Nat) : Bool := decide (0 < k) && decide (k < curveN)

/-- d·G in compressed form; empty when the scalar is out of range. -/
@[irreducible] def publicKey (d : Nat) : Bytes :=
  if scalarOk d then match pointMul d (some curveG) with
    | some q => compressPoint q
    | none => []
  else []

/-- ECDH (R393, R395): the x-coordinate of the product and the result; zero bytes on any other result (R396). -/
@[irreducible] def ecdh (d : Nat) (point : Bytes) : Bytes × CryptoResult :=
  match decodePoint point with
  | none => (zeros 32, .badPoint)
  | some q =>
    if scalarOk d then match pointMul d (some q) with
      | some r => (be 32 r.1, .ok)
      | none => (zeros 32, .badPoint)
    else (zeros 32, .badScalar)

/-- ECDSA sign (R393, R397): `hash` is e, `rand` the 32 DRBG bytes. -/
@[irreducible] def ecdsaSign (d : Nat) (hash rand : Bytes) : Bytes × CryptoResult :=
  if scalarOk d then
    let k := scalarOf (kmac (be 32 d) "BX4016 ECDSA" (hash ++ rand) 48)
    match pointMul k (some curveG) with
    | none => (zeros 64, .badScalar)
    | some q =>
      let r := q.1 % curveN
      let s := invMod curveN k * (beNat hash + r * d) % curveN
      if r = 0 ∨ s = 0 then (zeros 64, .badScalar) else (be 32 r ++ be 32 s, .ok)
  else (zeros 64, .badScalar)

/-- ECDSA verify (R393, R395). -/
@[irreducible] def ecdsaVerify (point hash sig : Bytes) : CryptoResult :=
  match decodePoint point with
  | none => .badPoint
  | some q =>
    let r := beNat (sig.take 32)
    let s := beNat ((sig.drop 32).take 32)
    if scalarOk r && scalarOk s then
      let w := invMod curveN s
      match pointAdd (pointMul (beNat hash * w % curveN) (some curveG)) (pointMul (r * w % curveN) (some q)) with
      | none => .badSig
      | some v => if v.1 % curveN = r then .ok else .badSig
    else .badSig

end Sys2Proof.Machine
end

