-- ==== Sys2Proof/Config.lean ====
section
/-!
DEFINITION. What an implementation fixes and the values the manual leaves open. Every constant here is opaque: nothing can
evaluate it or prove a value of it, so a claim holds for every value.
-/
namespace Sys2Proof.Config

/-- The n-th byte drawn from the DRBG (R402): its construction is not given (log 2). -/
opaque drbgByte : Nat → Byte

/-- The n-th free bit: a floating strap's read (R519), a level the manual does not fix (log 2). -/
opaque freeBit : Nat → Bool

/-- The n-th free number: the ADC error within its bound (R90, R494) and other bounded open values (log 2). -/
opaque freeNat : Nat → Nat

/-- The n-th free byte: content of a sector that an abandoned or failed operation leaves (R124), unpowered SRAM (log 2). -/
opaque freeByte : Nat → Byte

/-- What an unlisted byte of a memory reads as after its domain was unpowered: by fill number and address (R116, log 8). -/
opaque fillByte : Nat → Nat → Byte

/-- The maker secret of the analysis root (R165), not published; its length is left open too. -/
opaque makerSecret : Bytes

/-- The words of the mask boot ROM, which no rule prints (R159, log 184). -/
opaque romWord : Nat → BitVec 32

/-- The latency bound that the ROM computes from an image's occupancy and poll tables in check A10 (R46): by image, service and
qualifier. The manual names the method and one example, not the rule for each service (log 12). -/
opaque latencyBound : Bytes → Nat → Nat → Nat

/-- The signed install statement of an image that the lead sends in install form (R385, R410), by digest prefix: no rule says where
a unit keeps it (log 21). -/
opaque installStatement : Bytes → Bytes

/-- The `image length` of an installed image (R431), by digest prefix: no rule says where a unit keeps it (log 21). -/
opaque imageLength : Bytes → Nat

/-- The digest prefix of the boot ROM's built-in recovery manifest (R196), whose encoding no rule gives (log 31). -/
opaque recoveryDigest : Nat → Byte

end Sys2Proof.Config
end

