-- ==== Sys2Proof/Machine/Data.lean ====
section
/-!
DEFINITION. The data types the spec gives the block's decoded inputs and its internal tables: the manifest (R216–R226),
the schedule image (R36–R45), the Badger program (R439–R442), keys, sessions, cache leaves, commits, records.
-/
namespace Sys2Proof.Machine

/-- A byte store that lists only the cells that differ from what an unlisted address reads as (canonical form). -/
abbrev Cells := List Host.Cell

/-- The life-cycle states (R133), in the order of R202 with Scrapped after them (R513). -/
inductive LifeCycle where
  | maker
  | integrator
  | fielded
  | returned
  | scrapped
deriving DecidableEq, Repr

/-- The phases of R70. -/
inductive Phase where
  | u
  | r
  | p
  | w
  | k
  | b
  | n
  | s
deriving DecidableEq, Repr

/-- What a pad does (R72): high impedance, input off, strap input, CFG pull-up and ADC, comparator input, crystal oscillator,
driven, released, held by its strap keeper at a level, on its bus keeper, an input that is on, a line in its run function, the debug
port, an input that the always-on bank monitors. -/
inductive Pad where
  | hiZ
  | off
  | strapInput
  | pullUpAdc
  | comparator
  | oscillator
  | low
  | high
  | released
  | keeper (level : Bool)
  | busKeeper
  | inputOn
  | function
  | debug
  | monitored
deriving DecidableEq, Repr

/-- How a tenant is attached (R218). -/
inductive Attach where
  | portA
  | portB
  | link
deriving DecidableEq, Repr

/-- `write mode` (R218). -/
inductive WriteMode where
  | readOnly
  | synchronous
  | posted
deriving DecidableEq, Repr

/-- `fail policy` (R207, R218). -/
inductive FailPolicy where
  | hold
  | degrade
deriving DecidableEq, Repr

/-- One tenant map of `tenant array` (R218). -/
structure TenantDecl where
  slot : TSlot
  attach : Attach
  linkNode : Byte
  linkKey : Bytes
  partition : Nat
  denShare : Nat
  quota : Nat
  deferral : Nat
  writeMode : WriteMode
  groups : Nat
  failPolicy : FailPolicy
  resetLine : Option (Fin 4)
  idBytes : Bytes
  window : Bool
deriving DecidableEq, Repr

/-- `unit binding` (R217). -/
inductive Binding where
  | one (unit : Bytes)
  | list (units : List Bytes)
  | any
deriving DecidableEq, Repr

/-- The `link` map (R223); `group` is empty when absent. -/
structure LinkDecl where
  group : Bytes
  peers : List Bytes
  leadRank : Nat
deriving DecidableEq, Repr

/-- `actuator policy` (R224). -/
structure ActuatorPolicy where
  guards : List TSlot
  egress : Option (Fin 4)
  egressHoldMs : Nat
  tamper : Option (Fin 4)
deriving DecidableEq, Repr

/-- `source` of a recovery entry (R225). -/
inductive RecoverySource where
  | intake (t : TSlot)
  | peer
  | portA
deriving DecidableEq, Repr

/-- One `recovery` entry (R225). -/
structure RecoveryEntry where
  slot : TSlot
  source : Option RecoverySource
  window : Nat
deriving DecidableEq, Repr

/-- One side map of a mailbox channel (R226). -/
structure SideDecl where
  identity : Nat
  base : Nat
  len : Nat
  wake : Bool
  event : Option Nat
deriving DecidableEq, Repr

/-- One channel of the mailbox table (R53, R226). -/
structure ChannelDecl where
  channel : Nat
  shared : Bool
  depth : Nat
  sideA : SideDecl
  sideB : SideDecl
deriving DecidableEq, Repr

/-- A decoded manifest (R216). -/
structure Manifest where
  binding : Binding
  scheduleDigest : Bytes
  tenants : List TenantDecl
  link : Option LinkDecl
  badger : Option Bytes
  spillRecords : Nat
  batteryStep : Nat
  counterShift : Nat
  actuator : Option ActuatorPolicy
  order : List TSlot
  recovery : List RecoveryEntry
  mailbox : List ChannelDecl
deriving DecidableEq, Repr

/-- One occupancy entry (R40). -/
structure OccEntry where
  resource : Nat
  activity : Nat
  start : Nat
  len : Nat
deriving DecidableEq, Repr

/-- One poll table entry (R43). -/
structure PollEntry where
  event : Nat
  consumer : Nat
  code : Nat
  offset : Nat
deriving DecidableEq, Repr

/-- One state declaration (R45). -/
structure StateDecl where
  cls : Nat
  carry : Bool
  addr : Nat
  len : Nat
deriving DecidableEq, Repr

/-- One handover map entry (R45). -/
structure MapEntry where
  transform : Nat
  pred : Nat
  own : Nat
  len : Nat
deriving DecidableEq, Repr

/-- What the fabric uses of an admitted schedule image (R36–R45). -/
structure Schedule where
  version : Nat
  compiler : Nat
  recovery : Bool
  handover : Bool
  lanes : Nat
  frameLaps : Nat
  idleThreshold : Nat
  predecessor : Bytes
  digest : Bytes
  occupancy : List OccEntry
  windows : List (Nat × Nat)
  polls : List PollEntry
  latency : List (Nat × Nat × Nat)
  decls : List StateDecl
  maps : List MapEntry
deriving DecidableEq, Repr

/-- The schedule sources of R187, with their codes 1–6. -/
inductive Source where
  | fa
  | fb
  | c2
  | peer
  | pa
  | vr
deriving DecidableEq, Repr

/-- A Badger channel entry (R440). -/
structure BChanCfg where
  enable : Bool
  lowActive : Bool
  pull : Bool
  glitch : Bool
  threshold : Nat
  mode : Nat
  d : Nat
deriving DecidableEq, Repr

/-- A Badger rule (R442). -/
structure BRule where
  source : Nat
  index : Nat
  qualifier : Nat
  mask : BitVec 16
  value : BitVec 16
  actions : BitVec 8
  wakeBit : Nat
  timer : Nat
  eventCode : Nat
  targets : BitVec 8
deriving DecidableEq, Repr

/-- A Badger program (R439). -/
structure BProgram where
  tickCode : Nat
  logChannel : Option Nat
  initialLatch : Bool
  channels : List BChanCfg
  timers : List Nat
  rules : List BRule
deriving DecidableEq, Repr

/-- The uses of key-store slots (R162, R163, R353, R430, R460). -/
inductive KeyId where
  | root
  | scheduleSeal
  | imageSeal
  | vaultIntegrity
  | auditSpill
  | link
  | chain
  | start
  | imageLeaf (t : TSlot) (generation : Nat)
  | dataLeaf (t : TSlot)
  | parcel
deriving DecidableEq, Repr

/-- The two ends of a link identity (R348): a tenant module by its node, a BX4016 by its unit number. -/
inductive Peer where
  | module (node : Byte)
  | unit (number : Bytes)
deriving DecidableEq, Repr

/-- One entry of the session table (R360). `toUs` and `fromUs` are the two direction keys of R357, `joiner` when this unit
sent the JOIN, `sent` the last counter sent and `heard` the last counter accepted. -/
structure Session where
  peer : Peer
  ident : Bytes
  toUs : Bytes
  fromUs : Bytes
  joiner : Bool
  sent : Nat
  heard : Option Nat
  boot : Nat
  bornAt : Nat
  lastFrame : Nat
deriving DecidableEq, Repr

/-- The kinds of a cache leaf (R302). -/
inductive LeafKind where
  | data
  | failed
  | index
  | tagTable
  | map
  | porch
  | window
deriving DecidableEq, Repr

/-- The descriptor of a data leaf (R305). -/
structure Descriptor where
  leaf : Nat
  sector : Nat
  serial : Nat
  tag : Bytes
deriving DecidableEq, Repr

/-- One leaf of a tenant's cache share (R302): `valid` is its published validity. -/
structure CacheLeaf where
  kind : LeafKind
  no : Nat
  content : Bytes
  valid : Bool
deriving DecidableEq, Repr

/-- A fetch chain (R307): the virtual data leaf it serves, what missed (R335), the lap it was queued in (R333). -/
structure Chain where
  leaf : Nat
  opcode : Byte
  addr : Nat
  lap : Nat
  deferred : Bool
  held : List (LeafKind × Nat)
  busy : Bool
  served : Bool
deriving DecidableEq, Repr

/-- What a port or link identity reports to its lane (R22, R511). -/
inductive LaneEvent where
  | miss (opcode : Byte) (addr : Nat)
  | tampered (addr : Nat)
  | spoof (opcode : Byte) (addr : Nat)
  | denied (opcode : Byte) (addr : Nat)
  | clearFlags
  | filtered (opcode : Byte) (addr : BitVec 32)
  | porchProgram (offset : Nat) (data : List (Nat × Byte))
  | porchFrame (request : Byte) (addr : Nat) (data : Bytes)
  | statementFrame (request : Byte) (nonce : Bytes)
deriving DecidableEq, Repr

/-- A program or erase that waits for its lane (R314). -/
inductive WriteOp where
  | program (addr : Nat) (data : Bytes)
  | erase4k (addr : Nat)
  | erase64k (addr : Nat)
deriving DecidableEq, Repr

/-- A write command taken with WIP set (R314): the frame request it answers for a link tenant. -/
structure PendingWrite where
  op : WriteOp
  lap : Nat
  deferred : Bool
  opcode : Byte
  linkRequest : Option Byte
deriving DecidableEq, Repr

/-- What the next lane poll of a tenant reports of an earlier moment (R281, R310, R322): late, refused, tampered, with the
address. -/
inductive TOutcome where
  | late (addr : Nat)
  | refused (reason opcode : Byte) (addr : Nat)
  | tampered (addr : Nat)
deriving DecidableEq, Repr

/-- The states of a bounce buffer (R315). -/
inductive BufferState where
  | empty
  | opened
  | closed
  | committing
deriving DecidableEq, Repr

/-- A bounce buffer (R315): the bytes written of one virtual sector, listed by offset. -/
structure Bounce where
  state : BufferState
  sector : Nat
  written : Cells
  lastMerge : Nat
  firstAddr : Nat
  merged : Nat
  posted : Bool
deriving DecidableEq, Repr

/-- The states of a tenant (R272); `absent` for a slot that no manifest declares. -/
inductive TenantLife where
  | absent
  | created
  | released
  | held
  | degraded
deriving DecidableEq, Repr

/-- Staging of one tenant (R232, R233, R295): the lap it began in, its decision lap, the next leaf, the tag-table leaves read,
whether a leaf failed, whether it is a re-staging (R209, R419). -/
structure Staging where
  beginLap : Nat
  decisionLap : Nat
  next : Nat
  verified : Nat
  generation : Nat
  tagTables : List Bytes
  failed : Bool
  again : Bool
deriving DecidableEq, Repr

/-- The stored bytes of the writable and readable fields of one porch page other than the fault page (R285–R290). -/
structure Porch where
  request : Byte
  status : Byte
  reason : Byte
  byte3 : Byte
  fields : Cells
deriving DecidableEq, Repr

/-- The purpose of a flash leaf fetch in a Cipher lane (R294). -/
inductive FetchPurpose where
  | staging (t : TSlot)
  | chain (t : TSlot) (leaf : Nat)
  | merge (t : TSlot)
  | warden
deriving DecidableEq, Repr

/-- A leaf fetched in a ticket window, waiting for the end of its Cipher interval (R294). -/
structure LaneJob where
  purpose : FetchPurpose
  kind : LeafKind
  no : Nat
  sector : Nat
  content : Bytes
  tag : Bytes
  serial : Nat
  until_ : Nat
deriving DecidableEq, Repr

/-- What an operation on an external chip is part of (R266). -/
inductive OpOwner where
  | commit
  | blankErase
  | eraseQueue
  | directory
  | spill
  | wipe
  | debug
  | install
  | parcel
deriving DecidableEq, Repr

/-- A flash program or erase (R251). -/
inductive FlashOpKind where
  | program
  | erase4k
  | erase64k
deriving DecidableEq, Repr

/-- One program or erase that the Sequencer sends (R251): a program of up to 256 bytes within a page. -/
structure FlashTask where
  kind : FlashOpKind
  chip : Fin 2
  addr : Nat
  data : Bytes
deriving DecidableEq, Repr

/-- A flash operation in progress on a chip (R266, R269). -/
structure FlashOp where
  task : FlashTask
  owner : OpOwner
  suspended : Bool
deriving DecidableEq, Repr

/-- The commit kinds (R317, R264, R413): a bounce buffer, an erase of virtual sectors, Warden's own header write. -/
inductive CommitKind where
  | program
  | erase (first count : Nat)
  | header (content : Bytes)
deriving DecidableEq, Repr

/-- The steps of a commit (R264): merge fetches, C1, C2 and C3, C4, C5. C6 and C7 end it. -/
inductive CommitStage where
  | merge
  | c1
  | c2
  | c4
  | c5
deriving DecidableEq, Repr

/-- The commit in progress (R264, R317). `leaves` holds the leaves it has taken from the cache or fetched, `metas` the metadata
leaves written with their content and slot, `todo` those still to write with the slot tried last, `tasks` the programs of the
leaf or sector in work, `begun` whether the step has sent one, `asked` whether a lane poll has found its next merge fetch (R332). -/
structure Commit where
  tenant : TSlot
  kind : CommitKind
  sector : Nat
  stage : CommitStage
  target : Nat
  serial : Nat
  plain : Bytes
  cipher : Bytes
  tags : List Bytes
  leaves : List (LeafKind × Nat × Bytes)
  tasks : List FlashTask
  metas : List (Nat × Bytes × Nat)
  todo : List (Nat × Bytes × Nat)
  retried : Bool
  begun : Bool
  asked : Bool
deriving DecidableEq, Repr

/-- What the commit of a queued audit record brings about (R288, R322, R417, R472). -/
inductive OnCommit where
  | nothing
  | note (t : TSlot)
  | statement
  | lateMark (t : TSlot)
  | closeInstall
deriving DecidableEq, Repr

/-- An audit record request before its sequence and chain tag (R458, R463). -/
structure AuditReq where
  kind : Byte
  tenant : Byte
  time : Bytes
  body : Bytes
  onCommit : OnCommit
deriving DecidableEq, Repr

/-- A record kind limited to one in any 1,024 laps (R291, R311, R352, R403): when it was last appended and what it has counted
since. -/
structure RateLimit where
  kind : Byte
  tenant : Byte
  last : Option Nat
  further : Nat
deriving DecidableEq, Repr

/-- Who asked for a statement (R287, R361, R475). -/
inductive StmtAsker where
  | tenant (t : TSlot)
  | linkTenant (t : TSlot) (request : Byte)
  | unit (number : Bytes) (request : Byte)
  | readout
deriving DecidableEq, Repr

/-- A statement request in the queue (R339). `claims` is the payload once the content is fixed (R472). -/
structure StmtReq where
  asker : StmtAsker
  nonce : Bytes
  claims : Option Bytes
deriving DecidableEq, Repr

/-- A Badger channel at run time (R436, R438). -/
structure BChan where
  comparator : Bool
  samples : List Bool
  outputs : List Bool
  filtered : Bool
deriving DecidableEq, Repr

/-- One mailbox channel (R56, R60–R63): the queue holds notice words with the side that sent them (true for side A). -/
structure Channel where
  decl : Option ChannelDecl
  queue : List (BitVec 32 × Bool)
  collidedA : Bool
  collidedB : Bool
  seqA : BitVec 8
  seqB : BitVec 8
deriving DecidableEq, Repr

/-- A unit heard on the segment by its BEACON (R353, R355). -/
structure HeardUnit where
  number : Bytes
  boot : Nat
  epoch : Byte
  group : Bytes
  leadRank : Byte
  linkKey : Bytes
  startKey : Bytes
  signature : Bytes
  verified : Option Bool
  leadFlag : Bool
  leadHeard : Nat
deriving DecidableEq, Repr

/-- A pending JOIN (R239, R356): its key is E for a module and empty for a unit. -/
structure PendingJoin where
  peer : Peer
  request : Byte
  joinerBoot : Nat
  key : Bytes
  nonce : Bytes
  confirm : Bytes
  arrival : Nat
deriving DecidableEq, Repr

/-- Where a frame of the unit goes (R348). -/
inductive Dest where
  | peer (p : Peer)
  | everyone
deriving DecidableEq, Repr

/-- A frame queued to be sent (R346, R347): `tries` counts its transmissions. -/
structure OutFrame where
  dest : Dest
  kind : Nat
  request : Byte
  rep : Bool
  sealed : Bool
  payload : Bytes
  tries : Nat
deriving DecidableEq, Repr

/-- A request of the unit that waits for its reply (R365): when its WAIT or REFUSE lets it repeat (R239, R337), and the boundary count and
slot of its last bit. -/
structure OutRequest where
  frame : OutFrame
  repeats : Nat
  retryAt : Option Nat
  sentAt : Option (Nat × Nat)
deriving DecidableEq, Repr

/-- The roles of R97 and R513. -/
inductive LinkRole where
  | off
  | solo
  | member
  | lead
deriving DecidableEq, Repr

/-- A READ or WRITE of a link tenant that is not yet answered (R337). -/
structure LinkRequest where
  request : Byte
  kind : Nat
  addr : Nat
  count : Nat
  outcome : Option Byte
  waited : Bool
deriving DecidableEq, Repr

/-- An install object in work (R408, R409, R415). -/
structure Install where
  carrier : Byte
  intake : Option TSlot
  kind : Byte
  slot : Byte
  bodyLen : Nat
  object : Bytes
  nextLeaf : Nat
  checked : Bool
  version : Nat
  digest : Bytes
  generation : Nat
deriving DecidableEq, Repr

/-- A parcel export in work (R430): steps 1–4 stand for E1–E4. -/
structure Export where
  slot : TSlot
  target : Bytes
  order : Bytes
  transfer : BitVec 16
  step : Nat
  parcel : Bytes
  count : Nat
  next : Nat
  lastSent : Nat
  digest : Bytes
deriving DecidableEq, Repr

/-- Fragments received of one transfer (R351, R432), by index. -/
structure Transfer where
  peer : Bytes
  content : Byte
  transfer : BitVec 16
  count : Nat
  parts : List (Nat × Bytes)
deriving DecidableEq, Repr

/-- The parameters that a chip's JESD216 SFDP tables hold for R247, and the tables themselves for their digest (R255). -/
structure Sfdp where
  signature : Bool
  revision : Nat
  dwords : Nat
  densityBits : Nat
  erase4k : Bool
  erase64k : Bool
  read144 : Bool
  read114 : Bool
  readClocks : Nat
  pageSize : Nat
  programMaxUs : Nat
  erase4kMaxMs : Nat
  erase64kMaxMs : Nat
  suspend : Bool
  suspendLatencyUs : Nat
  deepPowerDown : Bool
  exitDelayUs : Nat
  busyPoll : Bool
  quadMethod : Nat
  quadVolatile : Bool
  fourByte : Bool
  tables : Bytes
  table4 : Bool
  flagPoll : Bool
  quadOps : Bytes
  suspendOps : Byte × Byte
  downOps : Byte × Byte
deriving DecidableEq, Repr

/-- An external flash chip as the board fits it (R247): ID, SFDP, content, and the 4 KB sectors in which it ignores programs and erases
without an error (R252). -/
structure Chip where
  fitted : Bool
  jedec : Bytes
  sfdp : Sfdp
  cells : Cells
  ignores : List Nat
deriving DecidableEq, Repr

/-- The result of the discovery of one chip (R248, R249): 0 supported, else the failed row of R247; whether it stands in 4-byte mode
by B7h; whether the volatile quad enable has been written. -/
structure Discovery where
  ran : Bool
  row : Nat
  fourByte : Bool
  quadOn : Bool
deriving DecidableEq, Repr

/-- An OTP cell (R152), to name one that never programs. -/
inductive OtpCell where
  | group (g : Fin 4) (bit : Fin 16)
  | word (w : Fin 32) (bit : Fin 32)
  | keyTrue (i : Fin 256)
  | keyComp (i : Fin 256)
  | patch (copy : Fin 2) (entry : Fin 128) (bit : Fin 64)
deriving DecidableEq, Repr

/-- The wipes whose flash part runs block by block (R145, R271, R485). -/
inductive WipeJob where
  | returned (signedPath : Bool)
  | reopen
deriving DecidableEq, Repr

/-- A vault write operation in progress (R170): its words in order, and the tenant whose WIP clears at the first poll after its
end (R320). -/
structure VaultJob where
  words : List (Nat × Bytes)
  wip : Option TSlot
deriving DecidableEq, Repr

/-- The data part of an import in work (R432 step 5): the data sectors written, with reference, write serial and tags; the one in work
with its content too; whether an erase precedes its programs; whether it is the second try (R269); the slots of the metadata leaves
written and the one tried last (R262). -/
structure ImportPlan where
  placed : List (Nat × Nat × Bytes)
  work : Option (Nat × Nat × Bytes × Bytes)
  blanking : Bool
  retried : Bool
  slots : List Nat
  last : Option Nat
deriving DecidableEq, Repr

/-- What follows a ledger update that commits (R178). An import holds the slots and digests of the index leaves it wrote, their
joint digest, the serial ceiling, the sectors that its data takes and those that the old data vacates (R432). -/
inductive AfterLedger where
  | nothing
  | image
  | pair
  | exported
  | imported (slots : List Nat) (digests : List Bytes) (digest : Bytes) (ceiling : Nat) (taken vacated : List Nat)
  | revert (t : TSlot)
deriving DecidableEq, Repr

/-- A ledger update requested: bytes put at offsets of the half, its cause, what follows (R174, R178). -/
structure LedgerReq where
  patches : List (Nat × Bytes)
  cause : Byte
  after : AfterLedger
deriving DecidableEq, Repr

/-- Where the start stands while phase B lasts and after it. -/
inductive BootStage where
  | none
  | wiping (job : WipeJob) (completion ignored : Bool)
  | attempt (src : Source) (rest : List Source)
  | recovery (src : Source) (forced : Bool)
  | readout
  | held (reason : Byte)
  | scrapped
  | running
deriving DecidableEq, Repr

/-- The reach a debug port is enabled with (R477). -/
inductive Reach where
  | observe
  | halt
  | maker
deriving DecidableEq, Repr

/-- What a port front end serves (R191, R236, R414, R475). -/
inductive PortMode where
  | unbound
  | tenant (t : TSlot)
  | intake
  | readout
deriving DecidableEq, Repr

/-- The guard states of R452. -/
inductive Guard where
  | released
  | held
  | degraded
deriving DecidableEq, Repr

end Sys2Proof.Machine
end

