-- ==== Sys2Proof/Machine/Cells.lean ====
section
/-!
DEFINITION. The byte stores of the block (vault R169, SRAM R52, Den R295, flash R247): cells in canonical form, with the
reads and writes that keep it. `d` is what an unlisted address reads as.
-/
namespace Sys2Proof.Machine

/-- What an unlisted byte of flash or vault reads as: erased (R251, R169). -/
def erased : Nat → Byte := fun _ => 0xFF

/-- Addresses strictly rising from `lo`, no entry equal to what it reads as when unlisted. -/
def Cells.wfFrom (d : Nat → Byte) (lo : Nat) : Cells → Bool
  | [] => true
  | (a, b) :: rest => decide (lo ≤ a) && decide (b ≠ d a) && Cells.wfFrom d (a + 1) rest

/-- The canonical form. -/
def Cells.wf (d : Nat → Byte) (m : Cells) : Bool := Cells.wfFrom d 0 m

/-- The byte at an address. -/
def Cells.read (d : Nat → Byte) (m : Cells) (a : Nat) : Byte :=
  match m.find? (fun c => c.1 == a) with
  | some c => c.2
  | none => d a

/-- `n` bytes from `a` out of cells that all lie at `a` or above. -/
def Cells.readFrom (d : Nat → Byte) : Nat → Nat → Cells → Bytes
  | 0, _, _ => []
  | n + 1, a, [] => d a :: Cells.readFrom d n (a + 1) []
  | n + 1, a, (k, b) :: rest =>
    if k = a then b :: Cells.readFrom d n (a + 1) rest else d a :: Cells.readFrom d n (a + 1) ((k, b) :: rest)

/-- The `n` bytes from `a`. -/
def Cells.readRange (d : Nat → Byte) (m : Cells) (a n : Nat) : Bytes :=
  Cells.readFrom d n a (m.filter (fun c => decide (a ≤ c.1)))

/-- The cells that the bytes `bs` at `a` list. -/
def Cells.fresh (d : Nat → Byte) : Nat → Bytes → Cells
  | _, [] => []
  | a, b :: bs => if b = d a then Cells.fresh d (a + 1) bs else (a, b) :: Cells.fresh d (a + 1) bs

/-- Bytes `bs` written from `a`. -/
def Cells.writeRange (d : Nat → Byte) (m : Cells) (a : Nat) (bs : Bytes) : Cells :=
  m.filter (fun c => decide (c.1 < a)) ++ Cells.fresh d a bs ++ m.filter (fun c => decide (a + bs.length ≤ c.1))

/-- One byte written. -/
def Cells.write (d : Nat → Byte) (m : Cells) (a : Nat) (b : Byte) : Cells := Cells.writeRange d m a [b]

/-- The cells of `n` bytes from `a` unlisted again. -/
def Cells.clearRange (m : Cells) (a n : Nat) : Cells :=
  m.filter (fun c => decide (c.1 < a)) ++ m.filter (fun c => decide (a + n ≤ c.1))

/-- A program of flash: bits only fall (R251). -/
def Cells.program (m : Cells) (a : Nat) (bs : Bytes) : Cells :=
  Cells.writeRange erased m a
    (List.zipWith (fun x y => x &&& y) (Cells.readRange erased m a bs.length) bs)

end Sys2Proof.Machine
end

