-- ==== Sys2Proof/Machine/Codes.lean ====
section
/-!
DEFINITION. The assigned codes of chapter 26: reason values (R508), event numbers (R510, R511), record kinds (R512), record
fields (R513) and frame kinds (R514).
-/
namespace Sys2Proof.Machine.Code

/-- The value of a life-cycle state (R513). -/
def life : LifeCycle → Byte
  | .maker => 0
  | .integrator => 1
  | .fielded => 2
  | .returned => 3
  | .scrapped => 4

/-- Refusals (R508). -/
def full : Byte := 0x10
def quota : Byte := 0x11
def lowbat : Byte := 0x12
def notAdmitted : Byte := 0x13
def spoof : Byte := 0x14
def policy : Byte := 0x15
def frozen : Byte := 0x16
def notReady : Byte := 0x17
def flashFailed : Byte := 0x18
/-- Strap faults and holds (R508). -/
def betweenCodes : Byte := 0x20
def underRange : Byte := 0x21
def overRange : Byte := 0x22
def unstable : Byte := 0x23
def conflict : Byte := 0x24
def armNoTrain : Byte := 0x25
def armBadTrain : Byte := 0x26
def armNotPermitted : Byte := 0x27
def armLowbat : Byte := 0x28
def lcOtpFail : Byte := 0x29
def lcLowbat : Byte := 0x2A
def noSchedule : Byte := 0x2B
/-- Schedule sources (R508). -/
def srcAbsent : Byte := 0x30
def srcEmpty : Byte := 0x31
def srcHeader : Byte := 0x32
def srcSeal : Byte := 0x33
def srcMseal : Byte := 0x34
def srcSig : Byte := 0x35
def srcMform : Byte := 0x36
def srcAdmit : Byte := 0x37
def srcTimeout : Byte := 0x38
/-- Tenant image checks (R508). -/
def imgNotInstalled : Byte := 0x40
def imgUnsigned : Byte := 0x41
def imgLedgerLost : Byte := 0x42
def imgLeafTag : Byte := 0x43
def imgRoot : Byte := 0x44
/-- Requests, debug and OTP (R508). -/
def reqForm : Byte := 0x50
def reqUnit : Byte := 0x51
def reqSigner : Byte := 0x52
def reqSig : Byte := 0x53
def reqStale : Byte := 0x54
def reqLowbat : Byte := 0x55
def dbgEpochSpent : Byte := 0x56
def otpLocked : Byte := 0x57
def otpNotSuperset : Byte := 0x58
/-- Installs and parcels (R508). -/
def insForm : Byte := 0x60
def insSig : Byte := 0x61
def insBinding : Byte := 0x62
def insMform : Byte := 0x63
def insAdmit : Byte := 0x64
def insMismatch : Byte := 0x65
def insDigest : Byte := 0x66
def insOrder : Byte := 0x67
def insPower : Byte := 0x68

/-- The reasons that R508 assigns, 0x00 aside; every other value is reserved (R507). -/
def reasons : List Byte :=
  ([(0x01, 4), (0x10, 9), (0x20, 12), (0x30, 9), (0x40, 5), (0x50, 9), (0x60, 9)] : List (Nat × Nat)).flatMap
    (fun r => (List.range r.2).map (fun i => BitVec.ofNat 8 (r.1 + i)))


/-- Audit record kinds (R512). -/
def genesis : Byte := 0x01
def start : Byte := 0x02
def versions : Byte := 0x03
def tenantState : Byte := 0x04
def patch : Byte := 0x05
def chip : Byte := 0x06
def sourceFail : Byte := 0x07
def strapFault : Byte := 0x08
def readout : Byte := 0x09
def lifeCycle : Byte := 0x10
def lcReject : Byte := 0x11
def otpWrite : Byte := 0x12
def keyCommit : Byte := 0x13
def keyTorn : Byte := 0x14
def install : Byte := 0x18
def installRefused : Byte := 0x19
def trialRevert : Byte := 0x1A
def handover : Byte := 0x1B
def handoverOk : Byte := 0x1C
def parcelOut : Byte := 0x1D
def parcelIn : Byte := 0x1E
def parcelHead : Byte := 0x1F
def parcelAbort : Byte := 0x20
def writeLate : Byte := 0x28
def writeLost : Byte := 0x29
def flashFault : Byte := 0x2A
def leafFail : Byte := 0x2B
def spoofRecord : Byte := 0x2C
def trngFault : Byte := 0x2D
def note : Byte := 0x30
def statement : Byte := 0x31
def badger : Byte := 0x32
def linkOpen : Byte := 0x38
def linkDrop : Byte := 0x39
def leadLost : Byte := 0x3A
def memberLost : Byte := 0x3B
def leadChange : Byte := 0x3C
def timeStep : Byte := 0x3D
def crossIn : Byte := 0x3E
def crossBad : Byte := 0x3F
def crossMiss : Byte := 0x40
def gap : Byte := 0x48
def overflow : Byte := 0x49

/-- Frame kinds (R514). -/
def fBeacon : Nat := 0x0
def fJoin : Nat := 0x1
def fAdmit : Nat := 0x2
def fWait : Nat := 0x3
def fRefuse : Nat := 0x4
def fRead : Nat := 0x5
def fData : Nat := 0x6
def fWrite : Nat := 0x7
def fAck : Nat := 0x8
def fNotice : Nat := 0x9
def fStatement : Nat := 0xA
def fParcel : Nat := 0xB
def fCross : Nat := 0xC
def fTime : Nat := 0xD
def fElect : Nat := 0xE
def fLeave : Nat := 0xF

end Sys2Proof.Machine.Code

namespace Sys2Proof.Machine.Ev

/-- Event numbers (R510). -/
def commitTripped : Nat := 0
def commitReleased : Nat := 1
def buckSettled : Nat := 2
def wakeRequest : Nat := 3
def sleepTimer : Nat := 4
def portPower : Nat := 7
/-- Source e of tenant slot n (R511). -/
def tenant (n e : Nat) : Nat := 8 + 8 * n + e
def frameForUnit : Nat := 136
def frameForAll : Nat := 137
def frameSent : Nat := 138
def arbitrationLost : Nat := 139
def frameDropped : Nat := 140
def receiveError : Nat := 141
def busIdle : Nat := 142
def lnkWake : Nat := 143
def electHeard : Nat := 144
def leadBeacon : Nat := 145
def beacon : Nat := 146
def time : Nat := 147
def cross : Nat := 148
def parcel : Nat := 149
def join : Nat := 150
def leave : Nat := 151
def noticeTimer (t : Nat) : Nat := 152 + t
def busyCleared (c : Nat) : Nat := 168 + c
def errorBit (c : Nat) : Nat := 170 + c
def opTimeout (c : Nat) : Nat := 172 + c
def suspendDone (c : Nat) : Nat := 174 + c
def readBack : Nat := 176
def blankCheck : Nat := 177
def powerCycled : Nat := 178
def discovered : Nat := 179
def eraseQueueEmpty : Nat := 180
def poolEmpty : Nat := 181
def directoryFull : Nat := 182
def eraseHeld : Nat := 183
def healthFailed (n : Nat) : Nat := 184 + n
def reseedSkipped : Nat := 186
def reseeded : Nat := 187
def badTag (n : Nat) : Nat := 188 + n
def curveBad : Nat := 190
def confirmMismatch : Nat := 191
def vaultWritten : Nat := 192
def eccRead : Nat := 193
def pumpReady : Nat := 194
def verifyFailed : Nat := 195
def batchComplete : Nat := 196
def queueFull : Nat := 197
def ledgerEnded : Nat := 198
def wipeAdvanced : Nat := 199
def mailbox (n : Nat) : Nat := 200 + n
def badgerWake (n : Nat) : Nat := 208 + n
def actAsserted : Nat := 224
def actWithdrawn : Nat := 225
def egressStarted : Nat := 226
def egressEnded : Nat := 227
def tamperTripped : Nat := 228
def tamperCleared : Nat := 229
def logDropped : Nat := 230
def programSwitched : Nat := 231
def lfxoQualified : Nat := 232
def lfxoLost : Nat := 233
def bdgSwitched : Nat := 234
def fllLocked : Nat := 235
def fllRange : Nat := 236
def rtcReady : Nat := 237
def resumed : Nat := 238
def lfxoLate : Nat := 239
def debugEnabled : Nat := 248
def haltRequest : Nat := 249
def resumeRequest : Nat := 250
def debugWord : Nat := 251
def debugSpace : Nat := 252
def otpStep : Nat := 253
def otpFailed : Nat := 254
def groupChanged : Nat := 255

end Sys2Proof.Machine.Ev
end

