-- ==== Sys2Proof/Machine/State.lean ====
section
/-!
DEFINITION. The state of the BX4016 as plain data, what stops it, and the state right after reset. Each field's docstring
reads: what it is | width | file and rule of spec/ | value at reset.
-/
namespace Sys2Proof.Machine

/-- Clocks and counts of time. -/
structure Clock where
  /-- window slot of phases W and K | 0–64,512 | 04_pins_and_package.md R76 | 0 (R76) -/
  windowSlot : Nat
  /-- lap number | unbounded count | 00_scope.md R10 | 0 (R10) -/
  lap : Nat
  /-- slot within the lap | 0–65,535 | 00_scope.md R10 | 0 (R10) -/
  slot : Nat
  /-- laps of phase N since lap 0 of the start, lap H counted, laps in S not counted | unbounded count | 20_updates_handover_parcels.md R427 | 0 (R427) -/
  startLap : Nat
  /-- lap boundaries passed, those in S included | unbounded count | 17_rarvo_link.md R353 | 0 (R353) -/
  boundaries : Nat
  /-- RTC count at 32,768 Hz since POR release | 46 bits | 22_audit_and_statements.md R459 | 0 (R459) -/
  rtc : Nat
  /-- fraction of an RTC tick, in 1/15,625 | 0–15,624 | 06_power_and_clocks.md R127 | 0 DESIGN CHOICE 0 (log 3) -/
  rtcAcc : Nat
  /-- the drbg is reseeded in this lap | 1 bit | 19_crypto_engines.md R402 | false DESIGN CHOICE (log 3) -/
  reseeded : Bool
  /-- the next reseed is skipped for a failed health test | 1 bit | 19_crypto_engines.md R403 | false DESIGN CHOICE (log 3) -/
  skipReseed : Bool
  /-- slot count of the last polling slot reached and the events polled in it (the model's own, so that a slot polls an event once) | count and list | 02_static_schedule.md R33 | 0, empty DESIGN CHOICE (log 3) -/
  polls : Nat × List Nat
  /-- slot count at which a ticket window last began and the windows begun there (the model's own, so that a window carries one fetch in a lap) | count and list | 02_static_schedule.md R42 | 0, empty DESIGN CHOICE (log 3) -/
  windows : Nat × List Nat
deriving DecidableEq, Repr

/-- Supplies, monitors and oscillators. -/
structure Power where
  /-- phase of the device | one of U R P W K B N S | 04_pins_and_package.md R70 | R (R70) -/
  phase : Phase
  /-- VBAT in millivolts | analog | 06_power_and_clocks.md R111 | DESIGN CHOICE 1,500 (log 4) -/
  vbat : Nat
  /-- VDDIO_H in millivolts | analog | 06_power_and_clocks.md R111 | DESIGN CHOICE 0 (log 4) -/
  vddioH : Nat
  /-- VDDIO_F in millivolts | analog | 06_power_and_clocks.md R111 | DESIGN CHOICE 0 (log 4) -/
  vddioF : Nat
  /-- VDDIO_F range decided at the end of P, true for the high range | 1 bit | 06_power_and_clocks.md R114 | DESIGN CHOICE false (log 4) -/
  vddioFHigh : Bool
  /-- phase R was entered by a brown-out | 1 bit | 06_power_and_clocks.md R113 | false (R113) -/
  afterBrownOut : Bool
  /-- commit monitor tripped | 1 bit | 06_power_and_clocks.md R122 | DESIGN CHOICE false (log 4) -/
  commitLow : Bool
  /-- cause of the previous reset, 0–5 | 1 byte | 22_audit_and_statements.md R468 | 0 (R468) -/
  resetCause : Nat
  /-- LFXO qualified | 1 bit | 06_power_and_clocks.md R127 | false (R127) -/
  lfxoQualified : Bool
  /-- BDG and RTC run from LFXO | 1 bit | 06_power_and_clocks.md R127 | false (R126) -/
  bdgOnLfxo : Bool
  /-- the frequency-locked loop holds HFRC | 1 bit | 06_power_and_clocks.md R127 | false (R127) -/
  fllLocked : Bool
  /-- the 1,200 ms of R244 have passed unqualified | 1 bit | 11_first_second.md R244 | false (R244) -/
  lfxoLate : Bool
  /-- buck supplies the core | 1 bit | 06_power_and_clocks.md R115 | false (R115) -/
  buckOn : Bool
  /-- port domain powered | 1 bit | 06_power_and_clocks.md R116 | false (R116) -/
  portOn : Bool
  /-- fabric domain powered | 1 bit | 06_power_and_clocks.md R116 | false (R116) -/
  fabricOn : Bool
  /-- vault domain powered | 1 bit | 06_power_and_clocks.md R116 | false (R116) -/
  vaultOn : Bool
  /-- WDT running | 1 bit | 06_power_and_clocks.md R129 | false (R129) -/
  wdtOn : Bool
deriving DecidableEq, Repr

/-- Sleep of the fabric. -/
structure Sleep where
  /-- boundary count of the lap in which an event was latched last (the model's own, for the idle threshold) | count | 06_power_and_clocks.md R118 | 0 DESIGN CHOICE (log 3) -/
  lastEvent : Nat
  /-- wake count of the sleep lap timer, in sleep laps | count or none | 06_power_and_clocks.md R121 | none (R121) -/
  wakeCount : Option Nat
  /-- boundary count at which the fabric resumes after a wake request | count or none | 06_power_and_clocks.md R120 | none (R120) -/
  resumeAt : Option Nat
  /-- a wake request came from LNK | 1 bit | 17_rarvo_link.md R363 | false (R363) -/
  lnkWoke : Bool
  /-- the fabric was woken by LNK; boundary count of the last frame addressed to the unit since | count or none | 17_rarvo_link.md R363 | none (R363) -/
  lnkWakeAt : Option Nat
  /-- events whose sources fired in S, latched in the first slot of the resumed lap | 256 bits | 06_power_and_clocks.md R121, 03_internal_mailboxes.md R66 | 0 (R121) -/
  waiting : EventVec
deriving DecidableEq, Repr

/-- The signal pads (R72), one field per row of its table. -/
structure Pads where
  /-- FCLK | pad | 04_pins_and_package.md R72 | Hi-Z (R72) -/
  fclk : Pad
  /-- FCS0# | pad | 04_pins_and_package.md R72 | Hi-Z (R72) -/
  fcs0 : Pad
  /-- FIO0–FIO3 | pad | 04_pins_and_package.md R72 | Hi-Z (R72) -/
  fio : Pad
  /-- FCS1#/FSTRAP | pad | 04_pins_and_package.md R72 | Hi-Z (R72) -/
  fcs1 : Pad
  /-- FPWR | pad | 04_pins_and_package.md R72 | Hi-Z (R72) -/
  fpwr : Pad
  /-- PRST0#–PRST3# | 4 pads | 04_pins_and_package.md R72, R25 | Hi-Z (R72) -/
  prst : Vector Pad 4
  /-- ACT_EN | pad | 04_pins_and_package.md R72, R24 | Hi-Z (R72) -/
  actEn : Pad
  /-- port A clock, chip select, HAIO0 and HAIO1 inputs | pad | 04_pins_and_package.md R72 | off (R72) -/
  portA : Pad
  /-- HAIO2 and HAIO3 inputs | pad | 04_pins_and_package.md R72 | off (R72) -/
  haio23 : Pad
  /-- port B clock, chip select and data inputs | pad | 04_pins_and_package.md R72 | off (R72) -/
  portB : Pad
  /-- ALERTA#/ASTRAP | pad | 04_pins_and_package.md R72 | Hi-Z (R72) -/
  alertA : Pad
  /-- ALERTB#/LDIR | pad | 04_pins_and_package.md R72 | Hi-Z (R72) -/
  alertB : Pad
  /-- LNK | pad | 04_pins_and_package.md R72 | Hi-Z (R72) -/
  lnk : Pad
  /-- SENSE0–SENSE3 | pad | 04_pins_and_package.md R72 | Hi-Z (R72) -/
  sense : Pad
  /-- CFG0 | pad | 04_pins_and_package.md R72 | Hi-Z (R72) -/
  cfg0 : Pad
  /-- CFG1/TMSC and CFG2/TCKC | pad | 04_pins_and_package.md R72, R80 | Hi-Z (R72) -/
  cfg12 : Pad
  /-- XIN32, XOUT32 | pad | 04_pins_and_package.md R72 | Hi-Z (passive, R72) -/
  xtal : Pad
deriving DecidableEq, Repr

/-- What phase W sampled (R93, R106). -/
structure Straps where
  /-- CFG0–CFG2 conversions: count, UNDER, OVER | 3 × 8 × (10 + 2 bits) | 05_straps_and_resistor_codes.md R90, R92, R93 | empty DESIGN CHOICE (log 3) -/
  samples : List (List (Nat × Bool × Bool))
  /-- FSTRAP, ASTRAP and ALERTB# strap reads | 3 × 8 bits | 05_straps_and_resistor_codes.md R93, R519 | empty DESIGN CHOICE (log 3) -/
  digital : List (List Bool)
  /-- levels the keepers hold from window slot 63,488 | 3 bits | 04_pins_and_package.md R76 | empty DESIGN CHOICE (log 3) -/
  keepers : List Bool
  /-- SENSE3 comparator output of the pulse watch | 1 bit | 05_straps_and_resistor_codes.md R106 | low (R106) -/
  train : Bool
  /-- edges of the pulse watch: window slot and new level, oldest first | list | 05_straps_and_resistor_codes.md R106 | empty (R106) -/
  edges : List (Nat × Bool)
  /-- the watch is running | 1 bit | 04_pins_and_package.md R76 | false (R76) -/
  watching : Bool
deriving DecidableEq, Repr

/-- One-time-programmable memory (R152). -/
structure Otp where
  /-- life-cycle groups G0–G3 | 4 × 16 bits | 07_life_cycle_and_otp.md R136 | DESIGN CHOICE 0, unprogrammed (log 5) -/
  groups : Vector (BitVec 16) 4
  /-- configuration words | 32 × 32 bits | 07_life_cycle_and_otp.md R153 | DESIGN CHOICE 0, unprogrammed (log 5) -/
  words : Vector (BitVec 32) 32
  /-- true cells of the device-unique key, bit i for pair i | 256 bits | 07_life_cycle_and_otp.md R156 | DESIGN CHOICE 0, blank (log 5) -/
  keyTrue : BitVec 256
  /-- complement cells of the device-unique key | 256 bits | 07_life_cycle_and_otp.md R156 | DESIGN CHOICE 0, blank (log 5) -/
  keyComp : BitVec 256
  /-- ROM patch entries, first copy | 128 × 64 bits | 07_life_cycle_and_otp.md R158 | DESIGN CHOICE 0, unprogrammed (log 5) -/
  patch0 : Vector (BitVec 64) 128
  /-- ROM patch entries, second copy | 128 × 64 bits | 07_life_cycle_and_otp.md R158 | DESIGN CHOICE 0, unprogrammed (log 5) -/
  patch1 : Vector (BitVec 64) 128
  /-- cells that no pulse programs (the model's own, what the physical cells do) | list | 07_life_cycle_and_otp.md R139 | DESIGN CHOICE empty (log 5) -/
  stuck : List OtpCell
deriving DecidableEq, Repr

/-- What the boot ROM decided in this start (R184–R202). -/
structure Boot where
  /-- where the start stands | stage | 09_boot_and_verification.md R184 | none (R184) -/
  stage : BootStage
  /-- decoded life-cycle state | 5 states | 07_life_cycle_and_otp.md R137 | DESIGN CHOICE Maker (log 5) -/
  life : LifeCycle
  /-- CFG0 code in force | 3 bits | 05_straps_and_resistor_codes.md R103 | DESIGN CHOICE 0 (log 3) -/
  cfg0 : Nat
  /-- CFG1 code in force | 3 bits | 05_straps_and_resistor_codes.md R103 | DESIGN CHOICE 0 (log 3) -/
  cfg1 : Nat
  /-- CFG2 code in force | 3 bits | 05_straps_and_resistor_codes.md R103 | DESIGN CHOICE 0 (log 3) -/
  cfg2 : Nat
  /-- FSTRAP in force, true for two chips | 1 bit | 05_straps_and_resistor_codes.md R100 | DESIGN CHOICE false (log 3) -/
  fstrap : Bool
  /-- ASTRAP in force, true for quad width | 1 bit | 05_straps_and_resistor_codes.md R100 | DESIGN CHOICE false (log 3) -/
  astrap : Bool
  /-- ALERTB# strap in force, true for ALERTB# | 1 bit | 05_straps_and_resistor_codes.md R100 | DESIGN CHOICE false (log 3) -/
  alertbStrap : Bool
  /-- source order | list | 09_boot_and_verification.md R188 | empty DESIGN CHOICE (log 3) -/
  order : List Source
  /-- source used | code or none | 09_boot_and_verification.md R202 | none DESIGN CHOICE (log 3) -/
  source : Option Source
  /-- sources whose attempt failed in this start | list | 09_boot_and_verification.md R198 | empty DESIGN CHOICE (log 3) -/
  failed : List Source
  /-- marks UNSIGNED, TEST, ANALYSIS, RECOVERY_RUN, INSTALL_PENDING | 1 byte | 09_boot_and_verification.md R202 | 0 DESIGN CHOICE (log 3) -/
  marks : BitVec 8
  /-- notes word of START | 32 bits | 22_audit_and_statements.md R469 | 0 DESIGN CHOICE (log 3) -/
  notes : BitVec 32
  /-- source-failure records appended | 1 byte | 09_boot_and_verification.md R194 | 0 DESIGN CHOICE (log 3) -/
  failures : Nat
  /-- failures counted in one record under the forced recovery wait: source, reason, check, version, count | list | 09_boot_and_verification.md R194 | empty DESIGN CHOICE (log 3) -/
  repeated : List (Source × Byte × Byte × Nat × Nat)
  /-- boot counter of this start | 32 bits | 08_keys_and_vault.md R172 | 0 (R172) -/
  counter : Nat
  /-- first 16 bytes of the patch region digest | 16 bytes | 07_life_cycle_and_otp.md R160 | empty DESIGN CHOICE (log 3) -/
  patchDigest : Bytes
  /-- binding form of the manifest | 1 byte | 10_manifest.md R217 | 0 DESIGN CHOICE (log 3) -/
  bindingForm : Nat
  /-- a request or response was read in this start | 1 bit | 07_life_cycle_and_otp.md R148 | false DESIGN CHOICE (log 3) -/
  requestRead : Bool
  /-- digest of the request being acted on or rejected, until its mark is written | 16 bytes or none | 07_life_cycle_and_otp.md R151 | empty DESIGN CHOICE (log 3) -/
  request : Bytes
  /-- ROM patches in force: word address and replacement | list | 07_life_cycle_and_otp.md R159 | empty DESIGN CHOICE (log 3) -/
  patches : List (Nat × BitVec 32)
  /-- HACS# has fallen in the present attempt of PA | 1 bit | 09_boot_and_verification.md R187 | false DESIGN CHOICE (log 3) -/
  heard : Bool
  /-- Warden's copy of the handover block | 64 bytes | 09_boot_and_verification.md R202 | empty DESIGN CHOICE (log 3) -/
  block : Bytes
  /-- the reach that the debug port is enabled with at lap 0 | reach or none | 23_debug_and_reopen.md R477 | none (R477) -/
  debugReach : Option Reach
  /-- RTC count at which the present attempt of PA or PEER began | 46 bits | 09_boot_and_verification.md R187 | 0 DESIGN CHOICE (log 3) -/
  attemptAt : Nat
  /-- RTC count at which the recovery wait began | 46 bits | 09_boot_and_verification.md R197 | 0 DESIGN CHOICE (log 3) -/
  recoveryAt : Nat
  /-- OTP bits still pulsed before the commit monitor trips in this start (the environment's) | count or none | 07_life_cycle_and_otp.md R141 | none DESIGN CHOICE (log 6) -/
  tripAfter : Option Nat
  /-- key ledger lost at this start | 1 bit | 08_keys_and_vault.md R176 | false DESIGN CHOICE (log 3) -/
  ledgerLost : Bool
  /-- the manifest in use is at this physical address; none when held in SRAM | 32 bits | 09_boot_and_verification.md R202 | none DESIGN CHOICE (log 3) -/
  manifestAddr : Option Nat
  /-- the VERSIONS records of the tenants are appended | 1 bit | 09_boot_and_verification.md R206 | false DESIGN CHOICE (log 3) -/
  versionsDone : Bool
  /-- START has been appended | 1 bit | 22_audit_and_statements.md R469 | false DESIGN CHOICE (log 3) -/
  startDone : Bool
deriving DecidableEq, Repr

/-- The running pair (R14, R210). -/
structure Running where
  /-- manifest in force | decoded or none | 10_manifest.md R210 | none (R210) -/
  manifest : Option Manifest
  /-- schedule in force | decoded or none | 02_static_schedule.md R48 | none (R48) -/
  schedule : Option Schedule
  /-- encoded manifest in force | bytes | 10_manifest.md R213 | empty DESIGN CHOICE (log 3) -/
  manifestBytes : Bytes
  /-- schedule image in force, its seal as carried | bytes | 02_static_schedule.md R36 | empty DESIGN CHOICE (log 3) -/
  image : Bytes
  /-- pair this start began from, which a handover leaves: image and encoded manifest | bytes or none | 18_joined_units.md R383 | none DESIGN CHOICE (log 3) -/
  startPair : Option (Bytes × Bytes)
  /-- pair loaded into the inactive program banks and awaiting handover: manifest bytes and image | bytes or none | 20_updates_handover_parcels.md R425 | none (R425) -/
  handover : Option (Bytes × Bytes)
  /-- HANDOVER_OK is still due | 1 bit | 20_updates_handover_parcels.md R428 | false (R428) -/
  selfCheckDue : Bool
deriving DecidableEq, Repr

/-- A port front end (R22, R275–R282). -/
structure PortSt where
  /-- what the port serves | mode | 11_first_second.md R236 | unbound (R72) -/
  mode : PortMode
  /-- WEL | 1 bit | 13_tenants_and_virtual_flash.md R279 | 0 DESIGN CHOICE (log 3) -/
  wel : Bool
  /-- WIP | 1 bit | 13_tenants_and_virtual_flash.md R279 | 0 DESIGN CHOICE (log 3) -/
  wip : Bool
  /-- the previous command was 66h | 1 bit | 13_tenants_and_virtual_flash.md R278 | false DESIGN CHOICE (log 3) -/
  resetArmed : Bool
  /-- deep power-down at the port | 1 bit | 13_tenants_and_virtual_flash.md R278 | false DESIGN CHOICE (log 3) -/
  deepDown : Bool
  /-- chip-select falls before release | 16 bits, stops at 65,535 | 11_first_second.md R236 | 0 (R236) -/
  early : Nat
  /-- slot count (laps in S included) at which the 2 µs pulse of the ALERT# pin ends, 0 when none runs | count | 13_tenants_and_virtual_flash.md R283 | 0 DESIGN CHOICE (log 3) -/
  alertPulse : Nat
  /-- bytes the front end drove in the last command | bytes | 13_tenants_and_virtual_flash.md R275 | empty (R72) -/
  out : Bytes
deriving DecidableEq, Repr

/-- A tenant slot (R272). -/
structure Tenant where
  /-- state of the tenant | 5 states | 13_tenants_and_virtual_flash.md R272 | absent (R220) -/
  life : TenantLife
  /-- frozen for a parcel | 1 bit | 20_updates_handover_parcels.md R430 | false (R430) -/
  frozen : Bool
  /-- reason of the last check | 1 byte | 09_boot_and_verification.md R203 | 0 DESIGN CHOICE (log 3) -/
  reason : Byte
  /-- a tenant restart is in progress | 1 bit | 20_updates_handover_parcels.md R419 | false (R419) -/
  restarting : Bool
  /-- a tenant restart or revert is asked for and waits: 1 restart, 2 a revert waiting for its ledger update | 2 bits | 20_updates_handover_parcels.md R419, R423 | 0 (R419) -/
  waiting : Nat
  /-- first Den offset of the share | 0–80 units | 10_manifest.md R221 | 0 DESIGN CHOICE (log 3) -/
  denBase : Nat
  /-- opcode set of the lane and front end: group bits | 7 bits | 10_manifest.md R221 | 0 DESIGN CHOICE (log 3) -/
  groups : Nat
  /-- staging in progress | record or none | 11_first_second.md R232 | none (R232) -/
  staging : Option Staging
  /-- generation the Den share holds | 16 bits | 13_tenants_and_virtual_flash.md R290 | 0 DESIGN CHOICE (log 3) -/
  generation : Nat
  /-- published Den validity bits of the share | 1 bit per leaf | 14_continuous_verification.md R296 | empty (R296) -/
  denValid : List Bool
  /-- Den validity bits being staged | 1 bit per leaf | 14_continuous_verification.md R296 | empty (R296) -/
  denStaged : List Bool
  /-- cache share | ⌊64/t⌋ or one more leaves of 1,024 bytes | 14_continuous_verification.md R301 | empty (R301) -/
  cache : List CacheLeaf
  /-- size of the cache share | count | 14_continuous_verification.md R301 | 0 DESIGN CHOICE (log 3) -/
  cacheSize : Nat
  /-- replacement pointer | index | 14_continuous_verification.md R303 | 0 DESIGN CHOICE (log 3) -/
  cachePtr : Nat
  /-- spare leaf | index | 14_continuous_verification.md R302 | 0 DESIGN CHOICE (log 3) -/
  spare : Nat
  /-- leaves inserted and not yet published | list | 14_continuous_verification.md R303 | empty (R303) -/
  inserts : List CacheLeaf
  /-- leaves whose publication ends a MISS | list | 14_continuous_verification.md R304 | empty (R303) -/
  awaited : List (LeafKind × Nat)
  /-- leaves to invalidate at the next validity publication | list | 14_continuous_verification.md R313 | empty (R313) -/
  drops : List (LeafKind × Nat)
  /-- descriptors of data leaves | list | 14_continuous_verification.md R305 | empty (R305) -/
  descriptors : List Descriptor
  /-- index digest table | up to 5 × 16 bytes | 14_continuous_verification.md R305 | empty (R305) -/
  indexDigests : List Bytes
  /-- pending fetch chains, oldest first | list | 14_continuous_verification.md R307 | empty (R307) -/
  chains : List Chain
  /-- events reported to the lane and not yet polled | list | 13_tenants_and_virtual_flash.md R281 | empty (R34) -/
  events : List LaneEvent
  /-- program or erase waiting for acceptance or completion | record or none | 15_writes_and_late_faults.md R314 | none (R314) -/
  write : Option PendingWrite
  /-- WRITE frames of a link tenant that wait for the write before them | list | 16_contention_and_refusal.md R337 | empty (R337) -/
  writes : List PendingWrite
  /-- accepted write whose WIP still stands | record or none | 15_writes_and_late_faults.md R320 | none (R320) -/
  accepted : Option PendingWrite
  /-- WIP and WEL clear at the next lane poll | 1 bit | 15_writes_and_late_faults.md R320 | false (R320) -/
  wipDone : Bool
  /-- bounce buffer | 4 KB with mask | 15_writes_and_late_faults.md R315 | empty (R315) -/
  bounce : Bounce
  /-- closed erase waiting for its commit: first virtual sector and count | record or none | 15_writes_and_late_faults.md R317 | none (R317) -/
  eraseWait : Option (Nat × Nat)
  /-- virtual sectors in flight, whose reads miss | list | 15_writes_and_late_faults.md R316 | empty (R316) -/
  inFlight : List Nat
  /-- sectors in flight of which a read missed, for which MISS stands | list | 15_writes_and_late_faults.md R316 | empty DESIGN CHOICE (log 3) -/
  flightMiss : List Nat
  /-- outcomes that the next lane poll reports, oldest first | list | 15_writes_and_late_faults.md R322 | empty (R322) -/
  outcomes : List TOutcome
  /-- sectors whose commit or failure awaits its publication | list | 15_writes_and_late_faults.md R316 | empty (R316) -/
  landed : List Nat
  /-- header that Warden writes into the tenant's intake by a commit of its own | 64 bytes or none | 20_updates_handover_parcels.md R413 | none (R413) -/
  headerWait : Option Bytes
  /-- an install through the tenant's intake was cut off by a power failure; its header is refused after release | 1 bit | 20_updates_handover_parcels.md R417 | false (R417) -/
  headerStale : Bool
  /-- MISS live bit | 1 bit | 13_tenants_and_virtual_flash.md R280 | 0 DESIGN CHOICE (log 3) -/
  miss : Bool
  /-- DEFER live bit | 1 bit | 13_tenants_and_virtual_flash.md R280 | 0 DESIGN CHOICE (log 3) -/
  defer : Bool
  /-- REFUSE sticky bit | 1 bit | 13_tenants_and_virtual_flash.md R280 | 0 DESIGN CHOICE (log 3) -/
  refuse : Bool
  /-- LATE sticky bit | 1 bit | 13_tenants_and_virtual_flash.md R280 | 0 DESIGN CHOICE (log 3) -/
  late : Bool
  /-- TAMPERED sticky bit | 1 bit | 13_tenants_and_virtual_flash.md R280 | 0 DESIGN CHOICE (log 3) -/
  tampered : Bool
  /-- LOST sticky bit | 1 bit | 13_tenants_and_virtual_flash.md R280 | 0 DESIGN CHOICE (log 3) -/
  lost : Bool
  /-- CONFIRMED sticky bit | 1 bit | 13_tenants_and_virtual_flash.md R280 | 0 DESIGN CHOICE (log 3) -/
  confirmed : Bool
  /-- last refusal reason | 1 byte | 13_tenants_and_virtual_flash.md R286 | 0x00 (R286) -/
  lastReason : Byte
  /-- last refused opcode or frame kind | 1 byte | 13_tenants_and_virtual_flash.md R286 | 0x00 (R286) -/
  lastOpcode : Byte
  /-- last refused virtual address | 32 bits | 13_tenants_and_virtual_flash.md R286 | 0xFFFFFFFF DESIGN CHOICE, its cleared value (log 3) -/
  lastAddr : BitVec 32
  /-- refusal count | 16 bits, stops | 13_tenants_and_virtual_flash.md R286 | 0 (R286) -/
  refusals : Nat
  /-- deferral count | 16 bits, stops | 13_tenants_and_virtual_flash.md R286 | 0 (R286) -/
  deferrals : Nat
  /-- first LATE virtual address | 32 bits | 13_tenants_and_virtual_flash.md R286 | 0xFFFFFFFF DESIGN CHOICE, its cleared value (log 3) -/
  firstLate : BitVec 32
  /-- LATE count | 16 bits, stops | 13_tenants_and_virtual_flash.md R286 | 0 (R286) -/
  lateCount : Nat
  /-- LOST count | 16 bits, stops | 13_tenants_and_virtual_flash.md R286 | 0 (R286) -/
  lostCount : Nat
  /-- LOST count found in the posted mark, written at release | 16 bits or none | 15_writes_and_late_faults.md R325 | none (R325) -/
  lostFound : Option Nat
  /-- first TAMPERED virtual address | 32 bits | 13_tenants_and_virtual_flash.md R286 | 0xFFFFFFFF DESIGN CHOICE, its cleared value (log 3) -/
  firstTampered : BitVec 32
  /-- TAMPERED count | 16 bits, stops | 13_tenants_and_virtual_flash.md R286 | 0 (R286) -/
  tamperedCount : Nat
  /-- pre-release chip-select count | 16 bits | 13_tenants_and_virtual_flash.md R286 | 0 (R286) -/
  preRelease : Nat
  /-- published flag byte | 1 byte | 13_tenants_and_virtual_flash.md R282 | 0x00 DESIGN CHOICE (log 3) -/
  pubFlag : Byte
  /-- published fault page content 0x000–0x03F | 64 bytes | 13_tenants_and_virtual_flash.md R282, R286 | empty DESIGN CHOICE (log 3) -/
  pubFault : Bytes
  /-- statement page | porch page | 13_tenants_and_virtual_flash.md R287 | all 0x00 (R285) -/
  statementPage : Porch
  /-- note page | porch page | 13_tenants_and_virtual_flash.md R288 | all 0x00 (R285) -/
  notePage : Porch
  /-- nonce page | porch page | 13_tenants_and_virtual_flash.md R289 | all 0x00 (R285) -/
  noncePage : Porch
  /-- confirm page | porch page | 13_tenants_and_virtual_flash.md R290 | all 0x00 (R285) -/
  confirmPage : Porch
  /-- notes appended in this lap: lap and count | pair | 22_audit_and_statements.md R470 | 0, 0 DESIGN CHOICE (log 3) -/
  notesInLap : Nat × Nat
  /-- RTC count at which the confirm window ends | count or none | 20_updates_handover_parcels.md R422 | none (R422) -/
  windowEnds : Option Nat
  /-- next write serial | 40 bits | 12_physical_flash.md R260 | 0 DESIGN CHOICE (log 3) -/
  serial : Nat
  /-- the serial ceiling of this start is committed | 1 bit | 12_physical_flash.md R260 | false (R260) -/
  ceilingSet : Bool
  /-- the tag-root record is lost or does not match the index leaves | 1 bit | 14_continuous_verification.md R309 | false DESIGN CHOICE (log 3) -/
  rootLost : Bool
  /-- a NOTICE to a link tenant is unanswered: repeats sent and boundary count of the last | pair or none | 17_rarvo_link.md R362 | none (R362) -/
  notice : Option (Nat × Nat)
  /-- frame requests of a link tenant, pending and answered, one for each request identifier | list | 16_contention_and_refusal.md R337 | empty (R337) -/
  linkReq : List LinkRequest
  /-- the ALERT# pin of the tenant is low | 1 bit | 13_tenants_and_virtual_flash.md R283 | false (R283) -/
  alert : Bool
deriving DecidableEq, Repr

/-- The external flash side (R247–R271). -/
structure FlashSide where
  /-- the chips the board fits, with their content | 2 chips, up to 64 MB | 12_physical_flash.md R247 | DESIGN CHOICE: chip 0 a supported 4 MB chip that reads erased, chip 1 not fitted (log 7) -/
  chips : Vector Chip 2
  /-- discovery result per chip | 2 × result | 12_physical_flash.md R249 | not run (R248) -/
  found : Vector Discovery 2
  /-- operation in progress per chip | record or none | 12_physical_flash.md R266 | none (R266) -/
  op : Vector (Option FlashOp) 2
  /-- chip failed: no further command to it | 2 bits | 12_physical_flash.md R269 | false (R269) -/
  dead : Vector Bool 2
  /-- flash power cycles done in this start | 0–3 | 12_physical_flash.md R268 | 0 (R268) -/
  cycles : Nat
  /-- boundary count at which FPWR fell | count or none | 12_physical_flash.md R268 | none (R268) -/
  cutAt : Option Nat
  /-- the chips are in deep power-down | 1 bit | 12_physical_flash.md R267 | false (R267) -/
  deepDown : Bool
  /-- free-pool bitmap, as the list of free sector references | list | 12_physical_flash.md R265 | empty DESIGN CHOICE (log 3) -/
  free : List Nat
  /-- the bitmap is complete | 1 bit | 12_physical_flash.md R265 | false (R265) -/
  poolReady : Bool
  /-- pool sectors allocated last | sector reference | 12_physical_flash.md R264 | 0 DESIGN CHOICE (log 3) -/
  lastTaken : Nat
  /-- erase queue, oldest first | list of sector references | 12_physical_flash.md R262 | empty DESIGN CHOICE (log 3) -/
  eraseQueue : List Nat
  /-- retired sectors | list of up to 1,000 in the directory | 12_physical_flash.md R270 | empty DESIGN CHOICE (log 3) -/
  retired : List Nat
  /-- sectors the Sequencer has erased since the start | list | 12_physical_flash.md R269 | empty (R269) -/
  erasedHere : List Nat
  /-- live sequence of the flash directory and its sector, 2 or 3 | pair or none | 12_physical_flash.md R255 | none DESIGN CHOICE (log 3) -/
  directory : Option (Nat × Nat)
  /-- a directory write is due | 1 bit | 12_physical_flash.md R255 | false DESIGN CHOICE (log 3) -/
  directoryDue : Bool
  /-- page programs of the directory copy being written | list | 12_physical_flash.md R255 | empty DESIGN CHOICE (log 3) -/
  directoryPages : List FlashTask
  /-- chip and block of the wipe erase in progress | pair or none | 12_physical_flash.md R271 | none (R271) -/
  wipeAt : Option (Nat × Nat)
  /-- erase failures of metadata sectors, one entry each; two leave the sector unused | list of sector references | 12_physical_flash.md R517 | empty (R517) -/
  badMeta : List Nat
  /-- opcodes of the sequence sent last to each chip | 2 × list of bytes | 12_physical_flash.md R251 | empty (R248) -/
  sent : Vector Bytes 2
  /-- slots after lap 0 at which each chip may be fetched from again after its release from deep power-down | 2 × count | 12_physical_flash.md R267 | 0 (R267) -/
  readyAt : Vector Nat 2
deriving DecidableEq, Repr

/-- The audit record service (R458–R467). -/
structure Audit where
  /-- append queue | 32 requests | 22_audit_and_statements.md R463 | empty (R464) -/
  queue : List AuditReq
  /-- requests that found the queue full | 16 bits | 22_audit_and_statements.md R463 | 0 DESIGN CHOICE (log 3) -/
  overflow : Nat
  /-- record kinds limited to one in 1,024 laps | list | 14_continuous_verification.md R311 | empty DESIGN CHOICE (log 3) -/
  limits : List RateLimit
  /-- complete batches not yet spilled, oldest first | list of batch numbers | 22_audit_and_statements.md R466 | empty DESIGN CHOICE (log 3) -/
  unspilled : List Nat
  /-- spilled batches with their sectors, oldest first | list | 22_audit_and_statements.md R466 | empty DESIGN CHOICE (log 3) -/
  spilled : List (Nat × Nat)
  /-- spill sectors kept erased | list of sector references | 22_audit_and_statements.md R466 | empty DESIGN CHOICE (log 3) -/
  spillErased : List Nat
  /-- page programs of the spill batch being written | batch, sector and pages | 22_audit_and_statements.md R466 | none DESIGN CHOICE (log 3) -/
  spilling : Option (Nat × Nat × List FlashTask)
  /-- last leaf of the oldest spilled batch, read in Ledger's window | 1,024 bytes or none | 22_audit_and_statements.md R467 | none DESIGN CHOICE (log 3) -/
  oldest : Option Bytes
  /-- next sequence of a chain that restarts from a zero tag | count or none | 22_audit_and_statements.md R516 | none DESIGN CHOICE (log 3) -/
  restartAt : Option Nat
  /-- the audit head of this start has been settled | 1 bit | 22_audit_and_statements.md R516 | false (R516) -/
  settled : Bool
deriving DecidableEq, Repr

/-- Statements in work (R339, R472). -/
structure Statements where
  /-- the statement in progress and those waiting | up to 3 | 16_contention_and_refusal.md R339 | empty (R339) -/
  queue : List StmtReq
  /-- the readout page: the statement at 0x010000 | bytes | 22_audit_and_statements.md R475 | empty (R475) -/
  readout : Bytes
  /-- fragments of a peer's statement received | transfer or none | 17_rarvo_link.md R351 | none DESIGN CHOICE (log 3) -/
  heard : Option Transfer
deriving DecidableEq, Repr

/-- Badger (R434–R457). -/
structure Badger where
  /-- active half of the rule memory | program or none | 21_badger_and_actuator.md R434 | none (R435) -/
  program : Option BProgram
  /-- inactive half of the rule memory | program or none | 21_badger_and_actuator.md R425 | none DESIGN CHOICE (log 3) -/
  inactive : Option BProgram
  /-- actuator policy | record or none | 21_badger_and_actuator.md R435 | none (R435) -/
  policy : Option ActuatorPolicy
  /-- the first tick has passed | 1 bit | 21_badger_and_actuator.md R434 | false (R434) -/
  started : Bool
  /-- tick number since the first tick | 32 bits | 21_badger_and_actuator.md R448 | 0 (R448) -/
  tick : Nat
  /-- RTC count (one a BDG period) of the BDG edge of the next tick | 46 bits | 21_badger_and_actuator.md R434 | 0 DESIGN CHOICE (log 3) -/
  nextTick : Nat
  /-- SENSE0–SENSE3 filters | 4 channels | 21_badger_and_actuator.md R438 | empty, inactive DESIGN CHOICE (log 3) -/
  chans : Vector BChan 4
  /-- remaining ticks of timers 0–7, 0 when stopped | 8 counts | 21_badger_and_actuator.md R441 | 0 DESIGN CHOICE (log 3) -/
  timers : Vector Nat 8
  /-- latched timer expiries | 8 bits | 21_badger_and_actuator.md R441 | 0 DESIGN CHOICE (log 3) -/
  expired : BitVec 8
  /-- permit latch | 1 bit | 21_badger_and_actuator.md R455 | false DESIGN CHOICE (log 3); the header's value at the first tick (R455) -/
  latch : Bool
  /-- egress active E | 1 bit | 21_badger_and_actuator.md R453 | false (R453) -/
  egress : Bool
  /-- remaining ticks of the egress hold | count | 21_badger_and_actuator.md R453 | 0 DESIGN CHOICE (log 3) -/
  egressLeft : Nat
  /-- tamper tripped T | 1 bit | 21_badger_and_actuator.md R454 | false (R454) -/
  tamper : Bool
  /-- remaining ticks of the tamper hold | count | 21_badger_and_actuator.md R454 | 0 DESIGN CHOICE (log 3) -/
  tamperLeft : Nat
  /-- ACT_EN decision | 1 bit | 21_badger_and_actuator.md R455 | low (R455) -/
  actEn : Bool
  /-- guard word | one state per guard | 21_badger_and_actuator.md R452 | empty DESIGN CHOICE (log 3) -/
  guards : List (TSlot × Guard)
  /-- a change of the guard word waits for the tick | 1 bit | 21_badger_and_actuator.md R452 | false DESIGN CHOICE (log 3) -/
  guardChanged : Bool
  /-- status bits at the last tick: commit-low, fabric awake, LFXO qualified | 3 bits | 21_badger_and_actuator.md R442 | false DESIGN CHOICE (log 3) -/
  status : Bool × Bool × Bool
  /-- topics of notices read since the last tick | list | 21_badger_and_actuator.md R445 | empty DESIGN CHOICE (log 3) -/
  notices : List (BitVec 7)
  /-- messages dropped since the last accepted one | 16 bits | 21_badger_and_actuator.md R448 | 0 DESIGN CHOICE (log 3) -/
  dropped : Nat
  /-- next message slot | index | 21_badger_and_actuator.md R449 | 0 DESIGN CHOICE (log 3) -/
  slot : Nat
  /-- RTC counts (one a BDG period) at which the platform wake pulses on ALERTA#, ALERTB# end, 0 when none runs | 2 counts | 21_badger_and_actuator.md R450 | 0 DESIGN CHOICE (log 3) -/
  pulse : Nat × Nat
deriving DecidableEq, Repr

/-- The mailboxes (R51–R69). -/
structure Mailbox where
  /-- channels 0–11 | 12 channels | 03_internal_mailboxes.md R53 | disabled and empty (R69) -/
  channels : Vector Channel 12
  /-- channel table locked | 1 bit | 03_internal_mailboxes.md R55 | false (R69) -/
  locked : Bool
  /-- status of the last send, and of the other side's send at the same edge | 3 bits each | 03_internal_mailboxes.md R59 | 0 DESIGN CHOICE (log 3) -/
  sendStatus : BitVec 3 × BitVec 3
  /-- word and status of the last receive | 32 bits and 4 bits | 03_internal_mailboxes.md R63 | none DESIGN CHOICE (log 3) -/
  received : Option (BitVec 32) × BitVec 4
deriving DecidableEq, Repr

/-- The Rarvo link and joined units (R341–R387). -/
structure Link where
  /-- link open | 1 bit | 11_first_second.md R237 | false (R237) -/
  opened : Bool
  /-- role | 4 roles | 05_straps_and_resistor_codes.md R97 | off DESIGN CHOICE (log 3) -/
  role : LinkRole
  /-- the lead's unit number | 16 bytes or none | 18_joined_units.md R366 | none (R366) -/
  lead : Option Bytes
  /-- an idle has been seen since link open, resume or error | 1 bit | 17_rarvo_link.md R346 | false (R346) -/
  idleSeen : Bool
  /-- BEACONs are sent and joins accepted | 1 bit | 11_first_second.md R237 | false (R237) -/
  beaconing : Bool
  /-- counts FORM, CHECK, SOURCE, REPLAY, EARLY | 5 × 16 bits, stop | 17_rarvo_link.md R352 | 0 (R352) -/
  counts : Vector Nat 5
  /-- LNK bit rate, true for 2 Mbit/s | 1 bit | 05_straps_and_resistor_codes.md R97 | false DESIGN CHOICE (log 3) -/
  fast : Bool
  /-- start public key, compressed | 33 bytes | 17_rarvo_link.md R353 | empty DESIGN CHOICE (log 3) -/
  startKey : Bytes
  /-- signature of the BEACON | 64 bytes | 17_rarvo_link.md R353 | empty DESIGN CHOICE (log 3) -/
  beaconSig : Bytes
  /-- link public key, compressed | 33 bytes | 08_keys_and_vault.md R163 | empty DESIGN CHOICE (log 3) -/
  linkKey : Bytes
  /-- boundary count of the last periodic BEACON | count | 17_rarvo_link.md R353 | 0 DESIGN CHOICE (log 3) -/
  lastBeacon : Nat
  /-- boundary count of the last BEACON that answered a request | count or none | 17_rarvo_link.md R353 | none DESIGN CHOICE (log 3) -/
  lastAnswer : Option Nat
  /-- periodic BEACONs are paced at 8,192 boundaries | 1 bit | 17_rarvo_link.md R353 | false DESIGN CHOICE (log 3) -/
  longPace : Bool
  /-- units heard | up to 15 | 17_rarvo_link.md R355 | empty DESIGN CHOICE (log 3) -/
  heard : List HeardUnit
  /-- JOIN frames pending, oldest first | up to 4 | 11_first_second.md R239 | empty DESIGN CHOICE (log 3) -/
  joins : List PendingJoin
  /-- start lap of the last ADMIT | count or none | 11_first_second.md R239 | none DESIGN CHOICE (log 3) -/
  lastJoin : Option Nat
  /-- frames queued to be sent, oldest first | list | 17_rarvo_link.md R347 | empty DESIGN CHOICE (log 3) -/
  outbox : List OutFrame
  /-- the last frame sent on LNK | frame or none | 17_rarvo_link.md R348 | none (R237) -/
  lastSent : Option Frame
  /-- the unit's own request that waits for a reply | record or none | 17_rarvo_link.md R365 | none DESIGN CHOICE (log 3) -/
  request : Option OutRequest
  /-- next request identifier | 1 byte | 17_rarvo_link.md R348 | 0 DESIGN CHOICE (log 3) -/
  nextRequest : Byte
  /-- nonce of the unit's JOIN | 16 bytes | 17_rarvo_link.md R351 | empty DESIGN CHOICE (log 3) -/
  joinNonce : Bytes
  /-- sources already told NOT_ADMITTED and when | list | 17_rarvo_link.md R352 | empty DESIGN CHOICE (log 3) -/
  told : List (Peer × Nat)
  /-- cold window: boundary count of its first lap, silenced by a better candidate, boundary count at which its next ELECT is due | record or none | 11_first_second.md R241 | none (R241) -/
  cold : Option (Nat × Bool × Nat)
  /-- boundary count of the last lead BEACON; without a lead, of the last sign of one: a better ELECT or the loss | count | 18_joined_units.md R369 | 0 DESIGN CHOICE (log 3) -/
  lastLead : Nat
  /-- boot counter of the lead's session | 32 bits | 18_joined_units.md R369 | 0 DESIGN CHOICE (log 3) -/
  leadBoot : Nat
  /-- a foreign lead was heard: its number and the boundary count of the BEACON request to the own lead | record or none | 18_joined_units.md R371 | none DESIGN CHOICE (log 3) -/
  foreign : Option (Bytes × Nat)
  /-- a BEACON of a unit has been heard | 1 bit | 17_rarvo_link.md R365 | false DESIGN CHOICE (log 3) -/
  heardAny : Bool
  /-- levels that pad 30 took as LDIR in the last transmission | list | 17_rarvo_link.md R343 | empty DESIGN CHOICE (log 3) -/
  ldir : List Bool
  /-- LINK_OPEN has been appended | 1 bit | 11_first_second.md R240 | false DESIGN CHOICE (log 3) -/
  openRecorded : Bool
  /-- offset to the lead's time, in RTC counts | signed | 18_joined_units.md R374 | 0 DESIGN CHOICE (log 3) -/
  offset : Int
  /-- the offset is applied | 1 bit | 22_audit_and_statements.md R459 | false DESIGN CHOICE (log 3) -/
  shared : Bool
  /-- the last TIME carried APPROX | 1 bit | 11_first_second.md R245 | false DESIGN CHOICE (log 3) -/
  timeApprox : Bool
  /-- boundary count at which the unit became lead | count or none | 11_first_second.md R246 | none DESIGN CHOICE (log 3) -/
  leadSince : Option Nat
  /-- TIME is due to these units | list | 18_joined_units.md R374 | empty DESIGN CHOICE (log 3) -/
  timeDue : List Bytes
  /-- own CROSS that waits for its reply: peer, head sequence sent, boundary count | record or none | 18_joined_units.md R378 | none DESIGN CHOICE (log 3) -/
  crossOut : Option (Bytes × Nat × Nat)
  /-- CROSS frames queued as responder: peer, request, payload | list | 18_joined_units.md R377 | empty DESIGN CHOICE (log 3) -/
  crossIn : List (Bytes × Byte × Bytes)
  /-- boundary count before which no CROSS is initiated | count | 18_joined_units.md R378 | 0 DESIGN CHOICE (log 3) -/
  crossNotBefore : Nat
  /-- boundary count at which an exchange is due: 4,096 after the first record since the last one completed | count or none | 18_joined_units.md R379 | none DESIGN CHOICE (log 3) -/
  crossDue : Option Nat
  /-- exchanges that ADMITs made due: the peer and the boundary count of the ADMIT | list | 18_joined_units.md R379 | empty DESIGN CHOICE (log 3) -/
  crossJoins : List (Bytes × Nat)
  /-- last member a lead initiated with | 16 bytes | 18_joined_units.md R379 | empty DESIGN CHOICE (log 3) -/
  crossLast : Bytes
  /-- members declared lost and the boundary count of the declaration | list | 18_joined_units.md R383 | empty DESIGN CHOICE (log 3) -/
  lostMembers : List (Bytes × Nat)
  /-- the lead that the unit lost last, predecessor at its election | 16 bytes or none | 18_joined_units.md R373 | none DESIGN CHOICE (log 3) -/
  former : Option Bytes
  /-- transfer the unit receives | record or none | 20_updates_handover_parcels.md R432 | none DESIGN CHOICE (log 3) -/
  receiving : Option Transfer
  /-- next transfer identifier | 16 bits | 17_rarvo_link.md R351 | 0 DESIGN CHOICE (log 3) -/
  nextTransfer : BitVec 16
  /-- recovery requests of held PEER tenants: boundary count of the last | list | 18_joined_units.md R384 | empty DESIGN CHOICE (log 3) -/
  recoveryAsked : List (TSlot × Nat)
deriving DecidableEq, Repr

/-- Installs, trials and parcels (R407–R433). -/
structure Update where
  /-- install object in work | record or none | 20_updates_handover_parcels.md R408 | none (R408) -/
  install : Option Install
  /-- sequential intake of port A or of the ROM: next expected address, bytes absorbed, ended | record or none | 20_updates_handover_parcels.md R414 | none (R414) -/
  intake : Option (Nat × Bytes × Bool)
  /-- header as the unit last wrote it into the sequential intake | 64 bytes | 20_updates_handover_parcels.md R414 | empty DESIGN CHOICE (log 3) -/
  intakeHeader : Bytes
  /-- parcel export in work | record or none | 20_updates_handover_parcels.md R430 | none (R430) -/
  exporting : Option Export
  /-- parcel import: source unit, transfer and its state step | record or none | 20_updates_handover_parcels.md R432 | none (R432) -/
  importing : Option Transfer
  /-- ledger updates requested, oldest first | list | 08_keys_and_vault.md R178 | empty (R178) -/
  ledger : List LedgerReq
  /-- key ledger initialisation waits for the commit monitor | 1 bit | 08_keys_and_vault.md R177 | false (R177) -/
  initDue : Bool
  /-- programs and erases that the install or import in work still sends | list | 20_updates_handover_parcels.md R416, R420, R432 | empty (R408) -/
  flashTasks : List FlashTask
  /-- the ledger update that follows them | record or none | 20_updates_handover_parcels.md R416, R420, R432 | none (R408) -/
  flashEnd : Option LedgerReq
  /-- the data part of an import in work | record or none | 20_updates_handover_parcels.md R432 | none (R432) -/
  plan : Option ImportPlan
  /-- vault write operations in progress or waiting, oldest first | list | 08_keys_and_vault.md R170 | empty (R170) -/
  vaultWrite : List VaultJob
  /-- KEY_TORN of stage 1, 2 or 3 recorded since the last KEY_COMMIT | 1 bit | 08_keys_and_vault.md R183 | false DESIGN CHOICE (log 3) -/
  tornSeen : Bool
  /-- pair in install form that R198 still writes: image and manifest | bytes or none | 09_boot_and_verification.md R198 | none DESIGN CHOICE (log 3) -/
  pendingPair : Option (Bytes × Bytes)
deriving DecidableEq, Repr

/-- The debug port (R477–R479). -/
structure Debug where
  /-- reach of the enabled port | reach or none | 23_debug_and_reopen.md R477 | none (R477) -/
  reach : Option Reach
  /-- halt requested | 1 bit | 23_debug_and_reopen.md R479 | false (R479) -/
  haltAsked : Bool
  /-- fabric halted | 1 bit | 23_debug_and_reopen.md R479 | false (R479) -/
  halted : Bool
  /-- data returned by the last access word | bytes | 23_debug_and_reopen.md R478 | empty DESIGN CHOICE (log 3) -/
  out : Bytes
deriving DecidableEq, Repr

/-- Why the machine stops with a fault. No step of the model raises one on an input the spec gives an effect to. -/
inductive Fault where
  /-- Raised by DEBUG_ACCESS_WORD on an address outside the space it names: the spec gives no such cell. Safe: a claim about
  the access cannot be proved. -/
  | noSuchAddress
deriving DecidableEq, Repr

/-- Why the machine refuses a command. -/
inductive Refusal where
  /-- The command has no meaning yet. Raised by an arm of `exec` alone. Safe. -/
  | notModelled (mnemonic : String)
  /-- Raised by DEBUG_ACCESS_WORD on the SCAN chains of the Maker state (R126, R478), whose content and effect the spec does
  not give. Safe. -/
  | scanChain
deriving DecidableEq, Repr

/-- The state of the block and of what hangs off its pads. -/
structure State where
  /-- commands waiting, first in first out | list | the model's own, no rule | empty -/
  pending : List Instr
  /-- clocks and counts of time | structure | 00_scope.md R9 | below -/
  clock : Clock
  /-- supplies, monitors, oscillators | structure | 06_power_and_clocks.md R111 | below -/
  power : Power
  /-- sleep | structure | 06_power_and_clocks.md R118 | below -/
  sleep : Sleep
  /-- signal pads | structure | 04_pins_and_package.md R72 | below -/
  pads : Pads
  /-- strap samples | structure | 05_straps_and_resistor_codes.md R93 | below -/
  straps : Straps
  /-- OTP | structure | 07_life_cycle_and_otp.md R152 | below -/
  otp : Otp
  /-- start | structure | 09_boot_and_verification.md R184 | below -/
  boot : Boot
  /-- running pair | structure | 10_manifest.md R210 | below -/
  running : Running
  /-- event vector | 256 bits | 02_static_schedule.md R33, 26_event_and_code_reference.md R510 | 0 (R125) -/
  events : EventVec
  /-- the event bit last read by its consumer | 1 bit | 02_static_schedule.md R33 | false DESIGN CHOICE (log 3) -/
  polled : Bool
  /-- vault RRAM, unlisted bytes read 0xFF | 128 KB | 08_keys_and_vault.md R169 | DESIGN CHOICE erased (log 5) -/
  vault : Cells
  /-- vault words with an uncorrectable ECC error, by byte offset | list | 08_keys_and_vault.md R171 | DESIGN CHOICE empty (log 5) -/
  vaultBad : List Nat
  /-- engine working SRAM with the notice store | 64 KB | 03_internal_mailboxes.md R52, 02_static_schedule.md R46 | DESIGN CHOICE nothing listed (log 8) -/
  sram : Cells
  /-- what an unlisted SRAM byte reads as: 0 zeroised, else a free value | count | 09_boot_and_verification.md R201 | DESIGN CHOICE 1 (log 8) -/
  sramFill : Nat
  /-- the Den | 320 KB | 00_scope.md Terms, 14_continuous_verification.md R295 | DESIGN CHOICE nothing listed (log 8) -/
  den : Cells
  /-- what an unlisted Den byte reads as: 0 zeroised, else a free value | count | 09_boot_and_verification.md R201 | DESIGN CHOICE 1 (log 8) -/
  denFill : Nat
  /-- key store | 48 slots of 256 bits | 08_keys_and_vault.md R167 | empty (R168) -/
  keys : List (KeyId × Bytes)
  /-- session table | 32 entries | 17_rarvo_link.md R360 | empty (R360) -/
  sessions : List Session
  /-- cross table | 15 entries of 16 + 98 bytes | 18_joined_units.md R381 | empty (R381) -/
  crossTable : List (Bytes × Bytes)
  /-- port A front end | structure | 13_tenants_and_virtual_flash.md R275 | below -/
  portA : PortSt
  /-- port B front end | structure | 13_tenants_and_virtual_flash.md R275 | below -/
  portB : PortSt
  /-- tenant slots T0–T15 | 16 structures | 13_tenants_and_virtual_flash.md R272 | below -/
  tenants : Vector Tenant 16
  /-- tenant being staged at the start, as its place in the release order | index or none | 11_first_second.md R232 | none (R232) -/
  stagingPlace : Option Nat
  /-- Cipher lanes 0 and 1 | leaf in work or none | 19_crypto_engines.md R389 | none (R400) -/
  lanes : Vector (Option LaneJob) 2
  /-- commit in progress | structure or none | 15_writes_and_late_faults.md R317 | none (R317) -/
  commit : Option Commit
  /-- lane served last by the commit rotation | 0–15 | 15_writes_and_late_faults.md R317 | 15 DESIGN CHOICE (log 3) -/
  lastLane : Nat
  /-- the commit waits for the commit monitor to release | 1 bit | 15_writes_and_late_faults.md R318 | false (R318) -/
  commitWaits : Bool
  /-- external flash side | structure | 12_physical_flash.md R247 | below -/
  flash : FlashSide
  /-- audit | structure | 22_audit_and_statements.md R458 | below -/
  audit : Audit
  /-- statements | structure | 22_audit_and_statements.md R472 | below -/
  statements : Statements
  /-- Badger | structure | 21_badger_and_actuator.md R434 | below -/
  badger : Badger
  /-- mailboxes | structure | 03_internal_mailboxes.md R53 | below -/
  mailbox : Mailbox
  /-- Rarvo link | structure | 17_rarvo_link.md R341 | below -/
  link : Link
  /-- installs, trials, parcels, ledger updates | structure | 20_updates_handover_parcels.md R408 | below -/
  update : Update
  /-- debug port | structure | 23_debug_and_reopen.md R477 | below -/
  probe : Debug
  /-- bytes drawn from the DRBG so far (the model's own counter) | count | 19_crypto_engines.md R402 | DESIGN CHOICE 0 (log 2) -/
  drbg : Nat
  /-- free values drawn so far (the model's own counter) | count | the model's own, no rule | DESIGN CHOICE 0 (log 2) -/
  freeDrawn : Nat
deriving DecidableEq, Repr

/-- A porch page with every byte 0x00 (R285). -/
def Porch.blank : Porch := ⟨0, 0, 0, 0, []⟩

/-- An empty bounce buffer (R315). -/
def Bounce.none : Bounce := ⟨.empty, 0, [], 0, 0, 0, false⟩

/-- A port front end at reset (R72, R236). -/
def PortSt.reset : PortSt := ⟨.unbound, false, false, false, false, 0, 0, []⟩

/-- A tenant slot before its creation (R221, R286). -/
def Tenant.reset : Tenant :=
  { life := .absent, frozen := false, reason := 0, restarting := false, waiting := 0, denBase := 0, groups := 0
    staging := none, generation := 0, denValid := [], denStaged := [], cache := [], cacheSize := 0, cachePtr := 0
    spare := 0, inserts := [], awaited := [], drops := [], descriptors := [], indexDigests := [], chains := [], events := []
    write := none, writes := [], accepted := none, wipDone := false, bounce := Bounce.none, eraseWait := none, inFlight := []
    flightMiss := [], outcomes := [], landed := [], headerWait := none, headerStale := false, miss := false, defer := false, refuse := false, late := false, tampered := false, lost := false
    confirmed := false, lastReason := 0, lastOpcode := 0, lastAddr := 0xFFFFFFFF, refusals := 0, deferrals := 0
    firstLate := 0xFFFFFFFF, lateCount := 0, lostCount := 0, lostFound := none, firstTampered := 0xFFFFFFFF
    tamperedCount := 0, preRelease := 0, pubFlag := 0, pubFault := [], statementPage := Porch.blank
    notePage := Porch.blank, noncePage := Porch.blank, confirmPage := Porch.blank, notesInLap := (0, 0)
    windowEnds := none, serial := 0, ceilingSet := false, rootLost := false, notice := none, linkReq := []
    alert := false }

/-- The SFDP parameters of a chip that meets every row of R247. -/
def Sfdp.supported (densityBits : Nat) : Sfdp :=
  { signature := true, revision := 0x0106, dwords := 16, densityBits := densityBits, erase4k := true, erase64k := true
    read144 := true, read114 := true, readClocks := 6, pageSize := 256, programMaxUs := 3000, erase4kMaxMs := 400
    erase64kMaxMs := 2000, suspend := true, suspendLatencyUs := 30, deepPowerDown := true, exitDelayUs := 30
    busyPoll := true, quadMethod := 4, quadVolatile := true, fourByte := false, tables := [], table4 := false
    flagPoll := false, quadOps := [0x50, 0x01], suspendOps := (0x75, 0x7A), downOps := (0xB9, 0xAB) }

/-- A supported chip of the given number of 4 KB sectors that reads erased. -/
def Chip.blank (sectors : Nat) : Chip :=
  { fitted := true, jedec := [0xEF, 0x40, 0x16], sfdp := Sfdp.supported (sectors * 32768), cells := [], ignores := [] }

/-- No chip in a place (R249). -/
def Chip.missing : Chip :=
  { fitted := false, jedec := [], sfdp := { Sfdp.supported 0 with signature := false }, cells := [], ignores := [] }

/-- Badger before its program is loaded (R435). -/
def Badger.reset : Badger :=
  { program := none, inactive := none, policy := none, started := false, tick := 0, nextTick := 0
    chans := Vector.replicate 4 ⟨false, [], [], false⟩, timers := Vector.replicate 8 0, expired := 0, latch := false
    egress := false, egressLeft := 0, tamper := false, tamperLeft := 0, actEn := false, guards := [], guardChanged := false
    status := (false, false, false), notices := [], dropped := 0, slot := 0, pulse := (0, 0) }

/-- The mailboxes emptied and unlocked (R69). -/
def Mailbox.reset : Mailbox :=
  { channels := Vector.replicate 12 ⟨none, [], false, false, 0, 0⟩, locked := false, sendStatus := (0, 0)
    received := (none, 0) }

/-- The link before it opens (R237, R360). -/
def Link.reset : Link :=
  { opened := false, role := .off, lead := none, idleSeen := false, beaconing := false, counts := Vector.replicate 5 0
    fast := false, startKey := [], beaconSig := [], linkKey := [], lastBeacon := 0, lastAnswer := none, longPace := false
    heard := [], joins := [], lastJoin := none, outbox := [], lastSent := none, request := none, nextRequest := 0
    joinNonce := [], told := [], cold := none, lastLead := 0, leadBoot := 0, foreign := none, heardAny := false, ldir := []
    openRecorded := false
    offset := 0, shared := false, timeApprox := false, leadSince := none, timeDue := [], crossOut := none, crossIn := []
    crossNotBefore := 0, crossDue := none, crossJoins := [], crossLast := [], lostMembers := [], former := none, receiving := none
    nextTransfer := 0, recoveryAsked := [] }

/-- Installs and ledger updates at reset: nothing in work (R408). -/
def Update.reset : Update :=
  { install := none, intake := none, intakeHeader := [], exporting := none, importing := none, ledger := []
    initDue := false, flashTasks := [], flashEnd := none, plan := none, vaultWrite := [], tornSeen := false, pendingPair := none }

/-- Clocks at reset. -/
def Clock.reset : Clock := ⟨0, 0, 0, 0, 0, 0, 0, false, false, (0, []), (0, [])⟩

/-- The pads in phases U and R (R72). -/
def Pads.reset : Pads :=
  { fclk := .hiZ, fcs0 := .hiZ, fio := .hiZ, fcs1 := .hiZ, fpwr := .hiZ, prst := Vector.replicate 4 .hiZ, actEn := .hiZ
    portA := .off, haio23 := .off, portB := .off, alertA := .hiZ, alertB := .hiZ, lnk := .hiZ, sense := .hiZ, cfg0 := .hiZ
    cfg12 := .hiZ, xtal := .hiZ }

/-- Supplies in phase R before the first power-up, VBAT above 1.0 V and below the POR threshold (R70, R113; log 4). -/
def Power.reset : Power :=
  { phase := .r, vbat := 1500, vddioH := 0, vddioF := 0, vddioFHigh := false, afterBrownOut := false, commitLow := false
    resetCause := 0, lfxoQualified := false, bdgOnLfxo := false, fllLocked := false, lfxoLate := false, buckOn := false
    portOn := false, fabricOn := false, vaultOn := false, wdtOn := false }

/-- Sleep bookkeeping at reset. -/
def Sleep.reset : Sleep := ⟨0, none, none, false, none, 0⟩

/-- Strap samples at reset: none taken (R81). -/
def Straps.reset : Straps := ⟨[], [], [], false, [], false⟩

/-- OTP with no cell programmed. -/
def Otp.blank : Otp :=
  { groups := Vector.replicate 4 0, words := Vector.replicate 32 0, keyTrue := 0, keyComp := 0
    patch0 := Vector.replicate 128 0, patch1 := Vector.replicate 128 0, stuck := [] }

/-- The start before the ROM runs (R186). -/
def Boot.reset : Boot :=
  { stage := .none, life := .maker, cfg0 := 0, cfg1 := 0, cfg2 := 0, fstrap := false, astrap := false
    alertbStrap := false, order := [], source := none, failed := [], marks := 0, notes := 0, failures := 0, repeated := []
    counter := 0, patchDigest := [], bindingForm := 0, requestRead := false, request := [], patches := [], heard := false, block := [], debugReach := none, attemptAt := 0, recoveryAt := 0, tripAfter := none
    ledgerLost := false, manifestAddr := none, versionsDone := false, startDone := false }

/-- No pair runs (R48). -/
def Running.reset : Running := ⟨none, none, [], [], none, none, false⟩

/-- The flash side of a start before discovery (R248), over the chips the board fits. -/
def FlashSide.start (chips : Vector Chip 2) : FlashSide :=
  { chips := chips, found := Vector.replicate 2 ⟨false, 0, false, false⟩, op := Vector.replicate 2 none
    dead := Vector.replicate 2 false, cycles := 0, cutAt := none, deepDown := false, free := [], poolReady := false
    lastTaken := 0, eraseQueue := [], retired := [], erasedHere := [], directory := none, directoryDue := false
    directoryPages := [], wipeAt := none, badMeta := [], sent := Vector.replicate 2 [], readyAt := Vector.replicate 2 0 }

/-- The audit service before its head is settled (R516). -/
def Audit.reset : Audit := ⟨[], 0, [], [], [], [], none, none, none, false⟩

/-- No statement in work (R339). -/
def Statements.reset : Statements := ⟨[], [], none⟩

/-- The debug port disabled (R477). -/
def Debug.reset : Debug := ⟨none, false, false, []⟩

/-- The machine right after reset: phase R, every volatile domain reset (R125), OTP and vault as a new die holds them, one
blank flash chip. -/
def State.reset : State :=
  { pending := [], clock := Clock.reset, power := Power.reset, sleep := Sleep.reset, pads := Pads.reset
    straps := Straps.reset, otp := Otp.blank, boot := Boot.reset, running := Running.reset, events := 0, polled := false
    vault := [], vaultBad := [], sram := [], sramFill := 1, den := [], denFill := 1, keys := [], sessions := []
    crossTable := [], portA := PortSt.reset, portB := PortSt.reset, tenants := Vector.replicate 16 Tenant.reset
    stagingPlace := none, lanes := Vector.replicate 2 none, commit := none, lastLane := 15, commitWaits := false
    flash := FlashSide.start ⟨#[Chip.blank 1024, Chip.missing], rfl⟩, audit := Audit.reset
    statements := Statements.reset, badger := Badger.reset, mailbox := Mailbox.reset, link := Link.reset
    update := Update.reset, probe := Debug.reset, drbg := 0, freeDrawn := 0 }

end Sys2Proof.Machine
end

