-- ==== Sys2Proof/Machine/Ops.lean ====
section
/-!
DEFINITION. The named operations over the registers and memories of the block that every family of commands shares: time,
events, random and free values, OTP fields, vault words and counters, the key store, tenants and ports.
-/
namespace Sys2Proof.Machine

/-- Slots in a lap (R9). -/
def lapSlots : Nat := 65536

/-- RTC ticks (32,768 Hz) that `n` slots of 15.625 ns take, and the fraction left, in 1/15,625 of a tick (R9, R127, R459). -/
def Clock.advanceRtc (c : Clock) (n : Nat) : Clock :=
  let x := c.rtcAcc + 8 * n
  { c with rtc := c.rtc + x / 15625, rtcAcc := x % 15625 }

/-- One lap boundary: slot 0 of the next lap; the lap count of the start runs in phase N (R10, R427). -/
def Clock.nextLap (c : Clock) (awake : Bool) : Clock :=
  { (c.advanceRtc (lapSlots - c.slot)) with
    slot := 0, lap := if awake then c.lap + 1 else c.lap, startLap := if awake then c.startLap + 1 else c.startLap
    boundaries := c.boundaries + 1, reseeded := false }

/-- One slot passes (R9). -/
def Clock.tick (c : Clock) (awake : Bool) : Clock :=
  if c.slot + 1 < lapSlots then { (c.advanceRtc 1) with slot := c.slot + 1 } else c.nextLap awake

/-- Forward to slot `n` of this lap; no change when it has passed. -/
def Clock.toSlot (c : Clock) (n : Nat) : Clock :=
  if c.slot < n ∧ n < lapSlots then { (c.advanceRtc (n - c.slot)) with slot := n } else c

/-- Forward by whole laps, keeping the slot. -/
def Clock.skipLaps (c : Clock) (n : Nat) (awake : Bool) : Clock :=
  { (c.advanceRtc (n * lapSlots)) with
    lap := if awake then c.lap + n else c.lap, startLap := if awake then c.startLap + n else c.startLap
    boundaries := c.boundaries + n, reseeded := if n = 0 then c.reseeded else false }

/-- Forward to slot 0 of lap `l` of phase N; no change when it has begun. -/
def Clock.toLap (c : Clock) (l : Nat) : Clock :=
  if c.lap < l then (c.nextLap true).skipLaps (l - c.lap - 1) true else c

/-- The clock moved forward to a boundary count (laps in S included); no change when it has passed. -/
def Clock.toBoundary (c : Clock) (b : Nat) (awake : Bool) : Clock :=
  if c.boundaries < b then (c.nextLap awake).skipLaps (b - c.boundaries - 1) awake else c

/-- Slot 0 of this lap when the clock stands there, else of the next. -/
def Clock.toLapStart (c : Clock) : Clock := if c.slot = 0 then c else c.nextLap true

/-- Slots passed since lap 0, laps in S included (R9). -/
def Clock.now (c : Clock) : Nat := c.boundaries * lapSlots + c.slot

/-- Forward by a number of slots. -/
def Clock.forward (c : Clock) (n : Nat) (awake : Bool) : Clock :=
  let target := c.slot + n
  if target < lapSlots then c.toSlot target
  else ((c.nextLap awake).skipLaps (target / lapSlots - 1) awake).toSlot (target % lapSlots)

/-- Forward to the next slot, this one included, that lies `offset` into a period that divides the lap (R33, R43). -/
def Clock.toPhase (c : Clock) (period offset : Nat) : Clock := c.forward ((offset + period - c.slot % period) % period) true

/-- Forward to the next polling slot of an event, one in which it has not been polled yet (R33, R34). -/
def Clock.toPoll (c : Clock) (e period offset : Nat) : Clock :=
  let c := if c.polls.1 = c.now ∧ e ∈ c.polls.2 then c.forward 1 true else c
  let c := c.toPhase period offset
  { c with polls := (c.now, if c.polls.1 = c.now then e :: c.polls.2 else [e]) }

/-- Forward to the start of ticket window `w` in this lap, or in the next one when the window has begun or passed (R42). -/
def Clock.toTicket (c : Clock) (w start : Nat) : Clock :=
  let c := if c.slot ≤ start then c.toSlot start else (c.nextLap true).toSlot start
  let c := if c.windows.1 = c.now ∧ w ∈ c.windows.2 then (c.nextLap true).toSlot start else c
  { c with windows := (c.now, if c.windows.1 = c.now then w :: c.windows.2 else [w]) }

/-- Slots from a place in the frame to the next start of a non-idle activity of a resource, this slot included (R30, R40); 0 without
one. -/
def Schedule.untilStart (x : Schedule) (r place : Nat) : Nat :=
  let frame := x.frameLaps * lapSlots
  let waits := (x.occupancy.filter (fun e => e.resource == r && e.activity != 0)).map (fun e => (e.start + frame - place) % frame)
  match waits with
  | [] => 0
  | w :: rest => rest.foldl min w

/-- The part of a walk over intervals, given by their ends from now on, at which `n` slots have gone. -/
def walkIntervals : List (Nat × Nat) → Nat → Nat
  | [], _ => 0
  | (a, b) :: rest, n => if n ≤ b - a then a + n else walkIntervals rest (n - (b - a))

/-- Slots until `n` slots of a resource's non-idle intervals have passed, from a place in the frame (R30, R49); `n` itself when the
resource has no interval. -/
def Schedule.spread (x : Schedule) (r place n : Nat) : Nat :=
  let frame := x.frameLaps * lapSlots
  let own := x.occupancy.filter (fun e => e.resource == r && e.activity != 0)
  let parts := (own.flatMap (fun e =>
    if e.start ≤ place ∧ place < e.start + e.len then [(0, e.start + e.len - place), (frame + e.start - place, frame)]
    else [((e.start + frame - place) % frame, (e.start + frame - place) % frame + e.len)])).mergeSort (fun p q => decide (p.1 ≤ q.1))
  let busy := (own.map (·.len)).sum
  if n = 0 then 0 else if busy = 0 then n else (n - 1) / busy * frame + walkIntervals parts (n - (n - 1) / busy * busy)

/-- The place of the clock in the frame of the schedule in force (R32). -/
def Schedule.place (x : Schedule) (c : Clock) : Nat := c.lap % x.frameLaps * lapSlots + c.slot

/-- The fabric runs: phase N and not halted by a probe (R70, R479). -/
def State.awake (s : State) : Bool := s.power.phase == .n && !s.probe.halted

/-- Slots until the RTC reads a count, 0 when it does (R127). -/
def Clock.slotsToRtc (c : Clock) (n : Nat) : Nat := ((n - c.rtc) * 15625 - c.rtcAcc + 7) / 8

/-- The device has no running PMU: phase U or R (R70). -/
def State.inReset (s : State) : Bool := s.power.phase == .u || s.power.phase == .r

/-- An event source fires (R33, R34); a lap with a latched event is not idle (R118). In S, where FAB has no clock, it is latched in the
first slot of the resumed lap (R66, R121; log 28). -/
def State.latch (s : State) (e : Nat) : State :=
  let asleep := s.power.phase == .s
  let bit : EventVec := BitVec.ofNat 256 (2 ^ e)
  { s with
    events := if asleep then s.events else s.events ||| bit
    sleep := { s.sleep with lastEvent := if asleep then s.sleep.lastEvent else s.clock.boundaries
                            waiting := if asleep then s.sleep.waiting ||| bit else s.sleep.waiting } }

/-- An event source fires when a condition holds. -/
def State.latchIf (s : State) (c : Bool) (e : Nat) : State := if c then s.latch e else s

/-- Whether an event bit is latched (R33). -/
def State.eventBit (s : State) (e : Nat) : Bool := s.events.getLsbD e

/-- An event bit cleared (R33). -/
def State.clearEvent (s : State) (e : Nat) : State :=
  { s with events := s.events &&& ~~~ BitVec.ofNat 256 (2 ^ e) }

/-- `n` bytes drawn from the DRBG (R402). -/
def State.random (s : State) (n : Nat) : Bytes × State :=
  ((List.range n).map (fun i => Config.drbgByte (s.drbg + i)), { s with drbg := s.drbg + n })

/-- A free bit (log 2). -/
def State.freeBit (s : State) : Bool × State := (Config.freeBit s.freeDrawn, { s with freeDrawn := s.freeDrawn + 1 })

/-- A free number below a bound (log 2). -/
def State.freeBelow (s : State) (bound : Nat) : Nat × State :=
  (Config.freeNat s.freeDrawn % bound, { s with freeDrawn := s.freeDrawn + 1 })

/-- `n` free bytes (log 2). -/
def State.freeBytes (s : State) (n : Nat) : Bytes × State :=
  ((List.range n).map (fun i => Config.freeByte (s.freeDrawn + i)), { s with freeDrawn := s.freeDrawn + n })

/-! ### OTP words (R153) -/

/-- Configuration word `n` (R153). -/
def State.otpWord (s : State) (n : Nat) : BitVec 32 := s.otp.words.toList.getD n 0

/-- The bytes of `k` configuration words from word `n`, the first word most significant (R153). -/
def State.otpBytes (s : State) (n k : Nat) : Bytes :=
  (List.range k).flatMap (fun i => be 4 (s.otpWord (n + i)).toNat)

/-- The unit number, words 2–5 (R12, R153). -/
def State.unitNumber (s : State) : Bytes := s.otpBytes 2 4

/-- The maker root hash, words 6–13 (R153). -/
def State.makerRootHash (s : State) : Bytes := s.otpBytes 6 8

/-- The operator root hash, words 14–21 (R153). -/
def State.operatorRootHash (s : State) : Bytes := s.otpBytes 14 8

/-- The derivation epoch: the pairs of word 22 in which either bit is programmed (R153). -/
def epochOf (w : BitVec 32) : Nat :=
  ((List.range 16).filter (fun k => w.getLsbD (2 * k) || w.getLsbD (2 * k + 1))).length

/-- The derivation epoch in force (R153). -/
def State.epoch (s : State) : Nat := epochOf (s.otpWord 22)

/-- The last 8 bytes of a unit number (R468). -/
def unit8 (u : Bytes) : Bytes := u.drop 8

/-! ### Vault (R169–R172) -/

/-- `n` vault bytes at an offset, as stored. -/
def State.vaultBytes (s : State) (off n : Nat) : Bytes := s.vault.readRange erased off n

/-- Whether any word that `n` bytes at `off` touch has an uncorrectable ECC error (R171). -/
def State.vaultBadIn (s : State) (off n : Nat) : Bool :=
  s.vaultBad.any (fun w => decide (off / 4 * 4 ≤ w) && decide (w < off + n))

/-- The vault word at an offset, `none` when it is invalid by ECC (R171). -/
def State.vaultWord? (s : State) (off : Nat) : Option Nat :=
  if s.vaultBadIn off 4 then none else some (beNat (s.vaultBytes off 4))

/-- The vault word at an offset when it is valid and not erased. -/
def State.vaultValue? (s : State) (off : Nat) : Option Nat :=
  match s.vaultWord? off with
  | some w => if w = 0xFFFFFFFF then none else some w
  | none => none

/-- A vault write (R170): the words written become valid. -/
def State.vaultWrite (s : State) (off : Nat) (bs : Bytes) : State :=
  { s with vault := s.vault.writeRange erased off bs
           vaultBad := s.vaultBad.filter (fun w => !(decide (off ≤ w) && decide (w < off + bs.length))) }

/-- A vault word written. -/
def State.vaultPut (s : State) (off n : Nat) : State := s.vaultWrite off (be 4 n)

/-- A vault region erased to 0xFF (R145, R170). -/
def State.vaultErase (s : State) (off n : Nat) : State :=
  { s with vault := s.vault.clearRange off n
           vaultBad := s.vaultBad.filter (fun w => !(decide (off ≤ w) && decide (w < off + n))) }

/-- Counter offsets in the counter region (R172; places DESIGN CHOICE, log 10). -/
def bootCounterAt : Nat := 0x12400
def tornCounterAt : Nat := 0x12408
def tenantCounterAt (t : TSlot) : Nat := 0x12410 + 8 * t.val

/-- The value of a counter: the larger of its valid words, 0 with none (R172). -/
def State.counter (s : State) (off : Nat) : Nat :=
  match s.vaultValue? off, s.vaultValue? (off + 4) with
  | some a, some b => max a b
  | some a, none => a
  | none, some b => b
  | none, none => 0

/-- A counter advanced by one: to an invalid word if there is one, else to the smaller one (R172). -/
def State.countUp (s : State) (off : Nat) : State :=
  let v := s.counter off + 1
  match s.vaultValue? off, s.vaultValue? (off + 4) with
  | none, _ => s.vaultPut off v
  | some _, none => s.vaultPut (off + 4) v
  | some a, some b => if a ≤ b then s.vaultPut off v else s.vaultPut (off + 4) v

/-- A counter advanced unless it is at its maximum (R172). -/
def State.countUpTo (s : State) (off maximum : Nat) : State :=
  if s.counter off < maximum then s.countUp off else s

/-- The largest value of a 32-bit counter (R172). -/
def counterMax : Nat := 0xFFFFFFFE

/-! ### SRAM and Den (R46, R295) -/

/-- What an unlisted byte of a volatile memory reads as: 0 when it was zeroised, else free (R201, log 8). -/
def fillOf (fill : Nat) : Nat → Byte := fun a => if fill = 0 then 0 else Config.fillByte fill a

/-- `n` bytes of working SRAM. -/
def State.sramBytes (s : State) (off n : Nat) : Bytes := s.sram.readRange (fillOf s.sramFill) off n

/-- Working SRAM written. -/
def State.sramWrite (s : State) (off : Nat) (bs : Bytes) : State :=
  { s with sram := s.sram.writeRange (fillOf s.sramFill) off bs }

/-- `n` bytes of the Den. -/
def State.denBytes (s : State) (off n : Nat) : Bytes := s.den.readRange (fillOf s.denFill) off n

/-- The Den written. -/
def State.denWrite (s : State) (off : Nat) (bs : Bytes) : State :=
  { s with den := s.den.writeRange (fillOf s.denFill) off bs }

/-! ### Key store (R167) -/

/-- The key of a use, `none` when its slot is zeroised. -/
def State.key? (s : State) (k : KeyId) : Option Bytes := (s.keys.find? (fun p => p.1 == k)).map (·.2)

/-- A key removed: its slot is zeroised (R168). -/
def State.dropKey (s : State) (k : KeyId) : State := { s with keys := s.keys.filter (fun p => !(p.1 == k)) }

/-- Slots of the key store (R167). -/
def keySlots : Nat := 48

/-- A key loaded into its slot, or into a free one of the 48 (R167). -/
def State.putKey (s : State) (k : KeyId) (v : Bytes) : State :=
  let others := s.keys.filter (fun p => !(p.1 == k))
  { s with keys := if others.length < keySlots then others ++ [(k, v)] else others }

/-- The key store zeroised (R168). -/
def State.zeroiseKeys (s : State) : State := { s with keys := [] }

/-! ### Tenants and ports -/

/-- Tenant slot `t`. -/
def State.tenant (s : State) (t : TSlot) : Tenant := s.tenants[t]

/-- Tenant slot `t` changed. -/
def State.setTenant (s : State) (t : TSlot) (x : Tenant) : State := { s with tenants := s.tenants.set t x }

/-- Tenant slot `t` changed by a function of its value. -/
def State.modTenant (s : State) (t : TSlot) (f : Tenant → Tenant) : State := s.setTenant t (f (s.tenant t))

/-- A port's front end. -/
def State.port (s : State) (p : Port) : PortSt := match p with | .a => s.portA | .b => s.portB

/-- A port's front end changed. -/
def State.setPort (s : State) (p : Port) (x : PortSt) : State :=
  match p with | .a => { s with portA := x } | .b => { s with portB := x }

/-- A port's front end changed by a function of its value. -/
def State.modPort (s : State) (p : Port) (f : PortSt → PortSt) : State := s.setPort p (f (s.port p))

/-- All sixteen tenant slots in order. -/
def allSlots : List TSlot := List.finRange 16

/-- The manifest's declaration of a tenant slot, `none` where no tenant is declared (R218). -/
def State.decl? (s : State) (t : TSlot) : Option TenantDecl :=
  match s.running.manifest with
  | some m => m.tenants.find? (fun d => d.slot == t)
  | none => none

/-- The declared tenants in slot order (R218). -/
def State.declared (s : State) : List TSlot := allSlots.filter (fun t => (s.decl? t).isSome)

/-- The tenant bound to a port (R275), `none` when there is none. -/
def State.portTenant (s : State) (p : Port) : Option TSlot :=
  match s.running.manifest with
  | some m => (m.tenants.find? (fun d => d.attach == (match p with | .a => Attach.portA | .b => Attach.portB))).map (·.slot)
  | none => none

/-- The port that a tenant is bound to. -/
def TenantDecl.port? (d : TenantDecl) : Option Port :=
  match d.attach with
  | .portA => some .a
  | .portB => some .b
  | .link => none

/-- The start runs its schedule: phase N or S after handover (R70, R201). -/
def State.isRunning (s : State) : Bool := s.boot.stage == .running

/-- The run is under a recovery schedule: mark RECOVERY_RUN (R196, R202). -/
def State.recoveryRun (s : State) : Bool := s.boot.marks.getLsbD 3

/-- The commit monitor allows a new flash or vault change that VCOMMIT guards (R122). -/
def State.commitClear (s : State) : Bool := !s.power.commitLow

/-! ### Time passes (R9) -/

/-- Slots passed since lap 0, laps in S included (R9). -/
def State.now (s : State) : Nat := s.clock.now

/-- Whether a pulse runs on a port's ALERT# pad: a platform wake (R450) or the 2 µs of a new fault (R283). -/
def State.pulsing (s : State) (p : Port) : Bool :=
  decide (s.now < (s.port p).alertPulse) ||
    (match p with
     | .a => decide (s.clock.rtc < s.badger.pulse.1)
     | .b => decide (s.clock.rtc < s.badger.pulse.2))

/-- A port's ALERT# pad driven; pad 30 only when it serves as ALERTB# (R72, R79). -/
def State.driveAlert (s : State) (p : Port) (low : Bool) : State :=
  match p with
  | .a => { s with pads := { s.pads with alertA := if low then .low else .high } }
  | .b => if s.boot.alertbStrap then { s with pads := { s.pads with alertB := if low then .low else .high } } else s

/-- The level that a port's ALERT# pad has outside a pulse (R283). -/
def State.alertLevel (s : State) (p : Port) : Bool := match s.portTenant p with | some t => (s.tenant t).alert | none => false

/-- The end of a pulse on a port's pad whose time has come: the pad takes the level that its tenant's publication gave (R283, R450). -/
def State.endPulse (s : State) (p : Port) : State :=
  let due := ((s.port p).alertPulse != 0 || (match p with | .a => s.badger.pulse.1 != 0 | .b => s.badger.pulse.2 != 0)) && !s.pulsing p
  if due then
    let s := (s.driveAlert p (s.alertLevel p)).modPort p (fun x => { x with alertPulse := 0 })
    { s with badger := { s.badger with pulse := match p with | .a => (0, s.badger.pulse.2) | .b => (s.badger.pulse.1, 0) } }
  else s

/-- The pulses whose time has come ended. -/
def State.endPulses (s : State) : State := (s.endPulse .a).endPulse .b

/-- The clock moves on: a pulse on an ALERT# pad ends with its time (R283, R450). -/
def State.setClock (s : State) (c : Clock) : State := { s with clock := c }.endPulses

/-- A number of slots passes: in N and S the lap slots count, but not while a probe halts the fabric (R9, R119, R479). -/
def State.pass (s : State) (n : Nat) : State :=
  s.setClock (if s.awake then s.clock.forward n true else if s.power.phase = .s then s.clock.forward n false else s.clock.advanceRtc n)

/-- The polling slot of an event reached by the poll table of the schedule in force (R33, R43, R50). -/
def State.toPoll (s : State) (e : Nat) : State :=
  match s.running.schedule with
  | some x =>
    match x.polls[e]? with
    | some p => s.setClock (s.clock.toPoll e (2 ^ (p.code + 9)) p.offset)
    | none => s
  | none => s

/-- The next polling slot of an event, this one included, reached by its consumer (R33). -/
def State.atPoll (s : State) (e : Nat) : State :=
  match s.running.schedule with
  | some x =>
    match x.polls[e]? with
    | some p => s.setClock (s.clock.toPhase (2 ^ (p.code + 9)) p.offset)
    | none => s
  | none => s

/-- The next slot at which the schedule in force starts an activity of a resource of R29 (R30, R50; log 171). -/
def State.toStart (s : State) (r : Nat) : State :=
  match s.running.schedule with
  | some x => if s.awake then (s.setClock (s.clock.forward (x.untilStart r (x.place s.clock)) true)) else s
  | none => s

end Sys2Proof.Machine
end

