-- ==== Sys2Proof/Machine/AuditOps.lean ====
section
/-!
DEFINITION. The audit ring and its chain: one record (R458), its time (R459) and tag (R460), the head (R462, R516), the
append of a record at once and by the queue (R463, R464), batches and GAP (R465–R467).
-/
namespace Sys2Proof.Machine

/-- Ring control offsets (R465). -/
def headAt : Nat := 0x0FC00
def lowAt : Nat := 0x0FC04
def lowTagAt : Nat := 0x0FC08
def oldestSpillAt : Nat := 0x0FC18
def serialAt : Nat := 0x0FC1C

/-- Records in the ring (R169). -/
def ringRecords : Nat := 1344

/-- The vault offset of a sequence's ring slot (R460). -/
def ringAt (seq : Nat) : Nat := 48 * (seq % ringRecords)

/-- The chain tag of the first 32 bytes of a record (R460). -/
def chainTag (unit prev rec : Bytes) : Bytes := (kmac (unit ++ zeros 16) "BX4016 CHAIN" (prev ++ rec) 32).take 16

/-- The 48 bytes in a sequence's ring slot, `none` when a word of it is invalid (R171). -/
def State.ringSlot? (s : State) (seq : Nat) : Option Bytes :=
  if s.vaultBadIn (ringAt seq) 48 then none else some (s.vaultBytes (ringAt seq) 48)

/-- The record with this sequence when its slot holds it in a readable form. -/
def State.ringRecord? (s : State) (seq : Nat) : Option Bytes :=
  match s.ringSlot? seq with
  | some r => if field r 0 4 = seq ∧ seq ≠ 0xFFFFFFFF then some r else none
  | none => none

/-- The chain tag that a record holds. -/
def recordTag (r : Bytes) : Bytes := slice r 32 16

/-- Whether a record chains from a tag. -/
def chainsFrom (unit prev r : Bytes) : Bool := recordTag r == chainTag unit prev (r.take 32)

/-- Whether a record chains from the one before it in the ring, or from zeros for sequence 0 (R460). -/
def State.chains (s : State) (seq : Nat) (r : Bytes) : Bool :=
  if seq = 0 then chainsFrom s.unitNumber (zeros 16) r
  else match s.ringRecord? (seq - 1) with
    | some p => chainsFrom s.unitNumber (recordTag p) r
    | none => false

/-- The time field now (R459, R245): APPROX while BDG runs from LFRC or the applied TIME carried APPROX. -/
def State.timeField (s : State) : Bytes :=
  let approx := !s.power.bdgOnLfxo || (s.link.shared && s.link.timeApprox)
  let count := if s.link.shared then ((s.clock.rtc : Int) + s.link.offset) % (2 ^ 46 : Int) else (s.clock.rtc : Int) % (2 ^ 46 : Int)
  be 6 ((if approx then 2 ^ 47 else 0) + (if s.link.shared then 2 ^ 46 else 0) + count.toNat)

/-- The sequence the next record takes (R460, R516). -/
def State.nextSequence (s : State) : Nat :=
  match s.audit.restartAt with
  | some n => n
  | none => match s.vaultValue? headAt with
    | some h => h + 1
    | none => 0

/-- The tag the next record chains from (R460, R516). -/
def State.prevTag (s : State) : Bytes :=
  match s.audit.restartAt with
  | some _ => zeros 16
  | none =>
    if s.nextSequence = 0 then zeros 16
    else match s.ringSlot? (s.nextSequence - 1) with
      | some r => recordTag r
      | none => zeros 16

/-- `spill records` of the manifest in force (R224). -/
def State.spillRecords (s : State) : Nat :=
  match s.running.manifest with
  | some m => m.spillRecords
  | none => 0

/-- Whether a batch lies in the spill; before a manifest is in force the ring control tells (R465, R466). -/
def State.batchSpilled (s : State) (b : Nat) : Bool :=
  match s.running.manifest with
  | some _ => s.audit.spilled.any (fun p => p.1 == b)
  | none => match s.vaultValue? oldestSpillAt with
    | some o => decide (o ≤ 64 * b)
    | none => false

/-- The first record since the last exchange, of a kind that cross-signing does not write, makes one due 4,096 laps on (R379). -/
def State.noteForCross (s : State) (kind : Byte) : State :=
  if s.link.crossDue.isNone ∧ kind ≠ Code.crossIn ∧ kind ≠ Code.crossBad ∧ kind ≠ Code.crossMiss then
    { s with link := { s.link with crossDue := some (s.clock.boundaries + 4096) } }
  else s

/-- One record written and committed: slot, then head word (R460). -/
def State.writeRecord (s : State) (kind tenant : Byte) (time body : Bytes) : State :=
  let seq := s.nextSequence
  let rec32 := be 4 seq ++ time ++ [kind, tenant] ++ fit 20 0 body
  let tag := chainTag s.unitNumber s.prevTag rec32
  let s := (s.vaultWrite (ringAt seq) (rec32 ++ tag)).vaultPut headAt seq
  let s := { s with audit := { s.audit with restartAt := none } }
  let s := s.noteForCross kind
  if seq % 64 = 63 then
    let s := s.latch Ev.batchComplete
    if s.spillRecords = 0 then s
    else { s with audit := { s.audit with unspilled := s.audit.unspilled ++ [seq / 64] } }
  else s

/-- The low-water fields written and the GAP record appended for a dropped batch whose last record is given (R467). -/
def State.dropBatch (s : State) (last : Bytes) (verified : Bool) : State :=
  let s := s.vaultWrite lowAt (slice last 0 4 ++ recordTag last)
  s.writeRecord Code.gap (if verified then 0xFF else 0xFE) s.timeField (slice last 0 4 ++ recordTag last)

/-- What precedes a record that would overwrite an unspilled batch: that batch is dropped (R467). -/
def State.makeRoom (s : State) : State :=
  let seq := s.nextSequence
  if seq % 64 = 0 ∧ ringRecords ≤ seq ∧ s.audit.restartAt = none then
    let b := seq / 64 - 21
    if s.batchSpilled b then s
    else
      let last := 64 * b + 63
      let s := { s with audit := { s.audit with unspilled := s.audit.unspilled.filter (fun x => !(x == b)) } }
      match s.ringSlot? last with
      | some r => s.dropBatch r (decide (field r 0 4 = last) && s.chains last r)
      | none => s.dropBatch (s.vaultBytes (ringAt last) 48) false
  else s

/-- The GENESIS body (R461, R468). -/
def State.genesisBody (s : State) (life : LifeCycle) : Bytes :=
  s.unitNumber ++ [Code.life life, BitVec.ofNat 8 s.epoch, 0, 0]

/-- The highest sequence held in its own slot by a readable record that chains, R516's search. -/
def State.searchHead (s : State) : Option Nat :=
  let held := (List.range ringRecords).filterMap (fun i =>
    match s.ringSlot? i with
    | some r =>
      let n := field r 0 4
      if n % ringRecords = i ∧ n ≠ 0xFFFFFFFF then some n else none
    | none => none)
  let good := held.filter (fun n =>
    match s.ringRecord? n with
    | some r => if n = 0 then chainsFrom s.unitNumber (zeros 16) r
      else match s.ringRecord? (n - 1) with
        | some p => chainsFrom s.unitNumber (recordTag p) r
        | none => true
    | none => false)
  good.foldl (fun acc n => match acc with | some m => some (max m n) | none => some n) none

/-- The head settled as R516 states, before the check of R462. -/
def State.settleSearch (s : State) : State :=
  match s.searchHead with
  | some n => { s.vaultPut headAt n with boot := { s.boot with notes := s.boot.notes ||| 0x4000#32 } }
  | none =>
    let low := match s.vaultValue? lowAt with | some n => n + 1 | none => 0
    let spill := match s.vaultValue? oldestSpillAt with | some n => n + 64 | none => 0
    let spill := s.audit.spilled.foldl (fun acc p => max acc (64 * p.1 + 64)) spill
    { s with audit := { s.audit with restartAt := some (max low spill) }
             boot := { s.boot with notes := s.boot.notes ||| 0x8000#32 } }

/-- The three cases of R516 by the head word. -/
def State.settleCase (s : State) : State :=
  match s.vaultWord? headAt with
  | none => s.settleSearch
  | some h =>
    if h = 0xFFFFFFFF then
      match s.ringRecord? 0 with
      | some r => if byteAt r 10 = Code.genesis ∧ chainsFrom s.unitNumber (zeros 16) r then s.vaultPut headAt 0 else s
      | none => s
    else
      match s.ringRecord? h with
      | none => s.settleSearch
      | some _ => s

/-- The record after the head adopted when it chains (R462). -/
def State.adoptNext (s : State) : State :=
  match s.audit.restartAt, s.vaultValue? headAt with
  | none, some h =>
    match s.ringRecord? h, s.ringRecord? (h + 1) with
    | some p, some r => if chainsFrom s.unitNumber (recordTag p) r then s.vaultPut headAt (h + 1) else s
    | _, _ => s
  | _, _ => s

/-- The head settled, once, before the first append of a start (R462, R516). -/
def State.settleHead (s : State) : State :=
  if s.audit.settled then s
  else ({ s with audit := { s.audit with settled := true } }.settleCase).adoptNext

/-- A record appended at once, after GENESIS when the chain is empty (R461, R463). -/
def State.appendNow (s : State) (kind tenant : Byte) (time body : Bytes) : State :=
  let s := s.settleHead
  let s := if s.nextSequence = 0 ∧ kind ≠ Code.genesis then
      s.writeRecord Code.genesis 0xFF time (s.genesisBody s.boot.life) else s
  s.makeRoom.writeRecord kind tenant time body

/-- Requests that the append queue holds (R463). -/
def queueDepth : Nat := 32

/-- A record requested of Ledger: queued, or counted when the queue is full (R463). -/
def State.enqueueRecord (s : State) (r : AuditReq) : State :=
  if s.audit.queue.length < queueDepth then { s with audit := { s.audit with queue := s.audit.queue ++ [r] } }
  else { s.latch Ev.queueFull with audit := { s.audit with overflow := sat16 (s.audit.overflow + 1) } }

/-- A record requested with what its commit brings about: by the queue while the schedule runs, at once by the ROM; no
record in Scrapped (R463, R464). Its time is that of the request (log 11). -/
def State.recordThen (s : State) (kind tenant : Byte) (body : Bytes) (onCommit : OnCommit) : State :=
  if s.boot.life = .scrapped then s
  else if s.isRunning then s.enqueueRecord ⟨kind, tenant, s.timeField, fit 20 0 body, onCommit⟩
  else s.appendNow kind tenant s.timeField body

/-- A record requested. -/
def State.record (s : State) (kind tenant : Byte) (body : Bytes) : State := s.recordThen kind tenant body .nothing

/-- A tenant slot in the `tenant` field (R458). -/
def slotByte (t : TSlot) : Byte := BitVec.ofNat 8 t.val

/-- A record of a kind limited to one in any 1,024 laps (R291, R311, R352, R403): `body` takes the count of those since the
last. -/
def State.recordLimited (s : State) (kind tenant : Byte) (body : Nat → Bytes) : State :=
  match s.audit.limits.find? (fun r => r.kind == kind && r.tenant == tenant) with
  | some r =>
    let due := match r.last with
      | some b => decide (b + 1024 ≤ s.clock.boundaries)
      | none => true
    let others := s.audit.limits.filter (fun x => !(x.kind == kind && x.tenant == tenant))
    if due then
      let s := { s with audit := { s.audit with limits := others ++ [RateLimit.mk kind tenant (some s.clock.boundaries) 0] } }
      s.record kind tenant (body r.further)
    else
      { s with audit := { s.audit with limits := others ++ [{ r with further := sat16 (r.further + 1) }] } }
  | none =>
    let s := { s with audit := { s.audit with limits := s.audit.limits ++ [RateLimit.mk kind tenant (some s.clock.boundaries) 0] } }
    s.record kind tenant (body 0)

end Sys2Proof.Machine
end

