-- ==== Sys2Proof/Machine/KeyOps.lean ====
section
/-!
DEFINITION. OTP programming (R139, R154, R156, R157), the device-unique key and the key hierarchy (R156, R161–R166).
-/
namespace Sys2Proof.Machine

/-! ### One OTP bit (R139) -/

/-- Whether a cell reads programmed. -/
def Otp.reads (o : Otp) (c : OtpCell) : Bool :=
  match c with
  | .group g b => (o.groups[g]).getLsbD b.val
  | .word w b => (o.words[w]).getLsbD b.val
  | .keyTrue i => o.keyTrue.getLsbD i.val
  | .keyComp i => o.keyComp.getLsbD i.val
  | .patch c e b => (if c = 0 then o.patch0[e] else o.patch1[e]).getLsbD b.val

/-- A cell after a pulse that programs it. -/
def Otp.program (o : Otp) (c : OtpCell) : Otp :=
  match c with
  | .group g b => { o with groups := o.groups.set g (o.groups[g] ||| BitVec.ofNat 16 (2 ^ b.val)) }
  | .word w b => { o with words := o.words.set w (o.words[w] ||| BitVec.ofNat 32 (2 ^ b.val)) }
  | .keyTrue i => { o with keyTrue := o.keyTrue ||| BitVec.ofNat 256 (2 ^ i.val) }
  | .keyComp i => { o with keyComp := o.keyComp ||| BitVec.ofNat 256 (2 ^ i.val) }
  | .patch c e b =>
    let n : BitVec 64 := BitVec.ofNat 64 (2 ^ b.val)
    if c = 0 then { o with patch0 := o.patch0.set e (o.patch0[e] ||| n) } else { o with patch1 := o.patch1.set e (o.patch1[e] ||| n) }

/-- The commit monitor trips when the bits that the start still gets are used up (R141, log 6). -/
def State.spendBit (s : State) : State :=
  match s.boot.tripAfter with
  | none => s
  | some n =>
    let s := { s with boot := { s.boot with tripAfter := some (n - 1) } }
    if n ≤ 1 then { s.latch Ev.commitTripped with power := { s.power with commitLow := true } } else s

/-- Slots in the 40 µs that a bit takes (R139). -/
def pulseSlots : Nat := 2560

/-- One bit pulsed four times in 40 µs (R139); a stuck cell that does not read programmed is counted as failed. -/
def State.pulse (s : State) (c : OtpCell) : State :=
  let s := s.pass pulseSlots
  let fails := s.otp.stuck.contains c && !s.otp.reads c
  let s := if s.otp.stuck.contains c then s else { s with otp := s.otp.program c }
  ((s.latch Ev.otpStep).latchIf fails Ev.otpFailed).spendBit

/-- Bits pulsed in order; none starts while the commit monitor is tripped (R122, R141). The second value is false when the monitor is
tripped before or at the end, so that no further step starts (R141). -/
def State.pulseAll (s : State) (cs : List OtpCell) : State × Bool :=
  match cs with
  | [] => (s, s.commitClear)
  | c :: rest => if s.power.commitLow then (s, false) else (s.pulse c).pulseAll rest

/-- The cells of bits `lo` to `hi − 1` of a life-cycle group. -/
def groupCells (g : Fin 4) (lo hi : Nat) : List OtpCell :=
  (List.finRange 16).filterMap (fun b => if lo ≤ b.val ∧ b.val < hi then some (.group g b) else none)

/-- The cells of the bits that a value sets in a configuration word. -/
def wordCells (w : Fin 32) (v : BitVec 32) : List OtpCell :=
  (List.finRange 32).filterMap (fun b => if v.getLsbD b.val then some (.word w b) else none)

/-! ### Life-cycle groups (R136, R137) -/

/-- How a group reads (R136). -/
inductive GroupRead where
  | clear
  | torn
  | set
deriving DecidableEq, Repr

/-- Programmed bits of a group. -/
def groupCount (g : BitVec 16) : Nat := ((List.range 16).filter (fun i => g.getLsbD i)).length

/-- R136. -/
def groupRead (g : BitVec 16) : GroupRead :=
  if 12 ≤ groupCount g then .set else if groupCount g ≤ 4 then .clear else .torn

/-- What the groups decode to (R137): a state, or a torn transition to a state; `from_` follows the run of set groups. -/
inductive LifeRead where
  | whole (l : LifeCycle)
  | torn (old new : LifeCycle)
deriving DecidableEq, Repr

/-- The state given by the run of set groups from G0 upward (R137 note). -/
def runState (g0 g1 g2 : GroupRead) : LifeCycle :=
  match g0, g1, g2 with
  | .set, .set, .set => .returned
  | .set, .set, _ => .fielded
  | .set, _, _ => .integrator
  | _, _, _ => .maker

/-- R137, first matching row; every other pattern is a torn scrap. -/
def decodeLife (o : Otp) : LifeRead :=
  let g0 := groupRead o.groups[0]
  let g1 := groupRead o.groups[1]
  let g2 := groupRead o.groups[2]
  let g3 := groupRead o.groups[3]
  match g3, g0, g1, g2 with
  | .set, _, _, _ => .whole .scrapped
  | .clear, .clear, .clear, .clear => .whole .maker
  | .clear, .torn, .clear, .clear => .torn .maker .integrator
  | .clear, .set, .clear, .clear => .whole .integrator
  | .clear, .set, .torn, .clear => .torn .integrator .fielded
  | .clear, .set, .set, .clear => .whole .fielded
  | .clear, .set, .set, .torn => .torn .fielded .returned
  | .clear, .set, .set, .set => .whole .returned
  | _, _, _, _ => .torn (runState g0 g1 g2) .scrapped

/-- The group that a transition programs: that of its target state. -/
def groupOf (target : LifeCycle) : Fin 4 :=
  match target with
  | .fielded => 1
  | .returned => 2
  | .scrapped => 3
  | _ => 0

/-! ### The device-unique key (R156, R157) -/

/-- How the key as a whole reads (R156). -/
inductive KeyRead where
  | valid
  | blank
  | incomplete
  | destroyed
deriving DecidableEq, Repr

/-- R156. -/
def keyRead (o : Otp) : KeyRead :=
  if o.keyTrue &&& o.keyComp ≠ 0 then .destroyed
  else if o.keyTrue ||| o.keyComp = BitVec.allOnes 256 then .valid
  else if o.keyTrue ||| o.keyComp = 0 then .blank
  else .incomplete

/-- The device-unique key when it is valid; pair i is bit i (R5, R156; log 13). -/
def Otp.duk? (o : Otp) : Option Bytes := if keyRead o = .valid then some (be 32 o.keyTrue.toNat) else none

/-- The key destroyed: every cell not yet programmed, pair 0 first (R156). -/
def State.destroyKey (s : State) : State × Bool :=
  s.pulseAll ((List.finRange 256).flatMap (fun i => [OtpCell.keyTrue i, OtpCell.keyComp i].filter (fun c => !s.otp.reads c)))

/-- The key generated: each blank pair from a fresh random bit (R157). -/
def State.generateKey (s : State) : State × Bool :=
  if keyRead s.otp = .blank ∨ keyRead s.otp = .incomplete then
    let (r, s) := s.random 32
    let bits := BitVec.ofNat 256 (beNat r)
    s.pulseAll ((List.finRange 256).filterMap (fun i =>
      if s.otp.reads (.keyTrue i) || s.otp.reads (.keyComp i) then none
      else if bits.getLsbD i.val then some (.keyTrue i) else some (.keyComp i)))
  else (s, s.commitClear)

/-! ### Derivations (R161–R165) -/

/-- The root in place of KR for a state and epoch (R161, R165); none where there is none. -/
def rootKey (o : Otp) (life : LifeCycle) (epoch : Nat) (unit : Bytes) : Option Bytes :=
  match life with
  | .maker => some (sha3 (ascii "BX4016 MAKER TEST ROOT"))
  | .integrator => o.duk?.map (fun k => kmac k "BX4016 ROOT" (be 1 epoch ++ unit) 32)
  | .fielded => o.duk?.map (fun k => kmac k "BX4016 ROOT" (be 1 epoch ++ unit) 32)
  | .returned => some (kmac Config.makerSecret "BX4016 ANALYSIS" unit 32)
  | .scrapped => none

/-- The data string of a derivation (R161). -/
def deriveData (cls slot generation : Nat) (unit : Bytes) : Bytes := be 1 cls ++ be 1 slot ++ be 2 generation ++ unit

/-- A derived key of 256 bits (R161). -/
def deriveKey (root : Bytes) (cls slot generation : Nat) (unit : Bytes) : Bytes :=
  kmac root "BX4016 KEY" (deriveData cls slot generation unit) 32

/-- The root in force. -/
def State.root? (s : State) : Option Bytes := s.key? .root

/-- A key derived from the root in force; none without a root (R392). -/
def State.derive? (s : State) (cls slot generation : Nat) : Option Bytes :=
  s.root?.map (fun r => deriveKey r cls slot generation s.unitNumber)

/-- The link private key (R163). -/
def State.linkScalar? (s : State) : Option Nat :=
  s.root?.map (fun r => scalarOf (kmac r "BX4016 KEY" (deriveData 5 0 0 s.unitNumber) 48))

/-- A key put in the store when it could be derived, else its slot left empty (R400). -/
def State.load (s : State) (k : KeyId) (v : Option Bytes) : State :=
  match v with
  | some b => s.putKey k b
  | none => s.dropKey k

/-- B6: the root and the keys of classes 0x01–0x04 (R166). -/
def State.unlockKeys (s : State) (life : LifeCycle) (epoch : Nat) : State :=
  let s := s.load .root (rootKey s.otp life epoch s.unitNumber)
  let s := s.load .scheduleSeal (s.derive? 1 0 0)
  let s := s.load .imageSeal (s.derive? 2 0 0)
  let s := s.load .vaultIntegrity (s.derive? 3 0 0)
  s.load .auditSpill (s.derive? 4 0 0)

/-- The vault integrity key (R162). -/
def State.integrityKey (s : State) : Option Bytes := s.key? .vaultIntegrity

/-- KMAC256 under a key-store slot; zero bytes when it is empty (R392). -/
def State.mac (s : State) (k : KeyId) (custom : String) (data : Bytes) (n : Nat) : Bytes :=
  match s.key? k with
  | some b => kmac b custom data n
  | none => zeros n

end Sys2Proof.Machine
end

