-- ==== Sys2Proof/Machine/LedgerOps.lean ====
section
/-!
DEFINITION. The key ledger (R174–R183), the tag-root region (R263) and the parcel and trial state as vault data.
-/
namespace Sys2Proof.Machine

/-- Offsets of the halves and the commit word (R169). -/
def halfAt (b : Bool) : Nat := if b then 0x11000 else 0x10000
def commitWordAt : Nat := 0x12000
def wipeCursorAt : Nat := 0x12004
def challengeAt : Nat := 0x12008
def issueAt : Nat := 0x12018
def requestMarkAt : Nat := 0x12020

/-- A half: false is A, true is B. -/
def State.half (s : State) (b : Bool) : Bytes := s.vaultBytes (halfAt b) 4096

/-- The tag of a half's content (R174). -/
def State.ledgerTag (s : State) (content : Bytes) : Bytes := s.mac .vaultIntegrity "BX4016 LEDGER" (content.take 0xFE0) 32

/-- Whether a half's tag verifies (R171, R174). -/
def State.halfTagOk (s : State) (b : Bool) : Bool :=
  !s.vaultBadIn (halfAt b) 4096 && s.integrityKey.isSome && (s.half b).drop 0xFE0 == s.ledgerTag (s.half b)

/-- The live half (R175), none when the ledger is lost. -/
def State.liveHalf? (s : State) : Option Bool :=
  let seqOf := fun b => field (s.half b) 0 4
  let fits := fun b => s.halfTagOk b && s.vaultValue? commitWordAt == some (seqOf b)
  if fits false then some false
  else if fits true then some true
  else if s.halfTagOk false && s.halfTagOk true then some (decide (seqOf true < seqOf false))
  else if s.halfTagOk false then some false
  else if s.halfTagOk true then some true
  else none

/-- The live half's content, none when the ledger is lost. -/
def State.ledger? (s : State) : Option Bytes := s.liveHalf?.map s.half

/-- The live half's content, zero bytes when the ledger is lost. -/
def State.ledger (s : State) : Bytes := s.ledger?.getD (zeros 4096)

/-- The live `sequence`, 0 when the ledger is lost. -/
def State.ledgerSeq (s : State) : Nat := field s.ledger 0 4

/-- The offset of a tenant entry (R174). -/
def entryAt (t : TSlot) : Nat := 8 + 64 * t.val

/-- Fields of a tenant entry of a half (R174). -/
def entryImageGen (h : Bytes) (t : TSlot) : Nat := field h (entryAt t) 2
def entryDataGen (h : Bytes) (t : TSlot) : Nat := field h (entryAt t + 2) 2
def entryInstalled (h : Bytes) (t : TSlot) : Bool := (byteAt h (entryAt t + 4)).getLsbD 0
def entryUnsigned (h : Bytes) (t : TSlot) : Bool := (byteAt h (entryAt t + 4)).getLsbD 1
def entryDigest (h : Bytes) (t : TSlot) : Bytes := slice h (entryAt t + 8) 16
def entryRoot (h : Bytes) (t : TSlot) : Bytes := slice h (entryAt t + 24) 32

/-- A tenant entry's 64 bytes (R174). -/
def entryBytes (imageGen dataGen flags : Nat) (digest root : Bytes) : Bytes :=
  be 2 imageGen ++ be 2 dataGen ++ be 1 flags ++ zeros 3 ++ fit 16 0 digest ++ fit 32 0 root ++ zeros 8

/-- The schedule entries (R174): 0 flash slot A, 1 flash slot B, 2 vault recovery. -/
def scheduleEntryAt (n : Nat) : Nat := 0x408 + 32 * n
def scheduleEntryDigest (h : Bytes) (n : Nat) : Bytes := slice h (scheduleEntryAt n) 16
def manifestEntryAt : Nat := 0x468
def manifestEntryDigest (h : Bytes) : Bytes := slice h manifestEntryAt 16

/-- Content with bytes put at offsets. -/
def patchBytes (h : Bytes) (patches : List (Nat × Bytes)) : Bytes :=
  patches.foldl (fun h p => h.take p.1 ++ p.2 ++ h.drop (p.1 + p.2.length)) h

/-- The torn-update count (R172). -/
def State.tornCount (s : State) : Nat := min 65535 (s.counter tornCounterAt)

/-- The ledger identifier for a live `sequence` (R183). -/
def State.ledgerIdOf (s : State) (seq : Nat) : Bytes :=
  be 4 seq ++ be 1 s.epoch ++ [if s.update.tornSeen then 1 else 0] ++ be 2 s.tornCount

/-- The ledger identifier (R183). -/
def State.ledgerId (s : State) : Bytes := s.ledgerIdOf s.ledgerSeq

/-- The body of KEY_TORN (R468). -/
def tornBody (stage : Nat) (reason : Byte) (live would : Bytes) : Bytes := [BitVec.ofNat 8 stage, reason, 0, 0] ++ live ++ would

/-- The body of KEY_COMMIT (R468). -/
def commitBody (old new : Bytes) (late : Bool) (cause : Byte) : Bytes := old ++ new ++ [if late then 1 else 0, cause, 0, 0]

/-- KEY_TORN recorded with the live identifier and the one of `would`; stages 1–3 set TORN_SEEN, which both identifiers of the
record carry as the case of R183 writes them. -/
def State.recordTorn (s : State) (stage : Nat) (reason : Byte) (would : Nat) : State :=
  let s := if stage = 4 then s else { s with update := { s.update with tornSeen := true } }
  s.record Code.keyTorn 0xFF (tornBody stage reason s.ledgerId (s.ledgerIdOf would))

/-- KEY_COMMIT recorded; it clears TORN_SEEN (R183). -/
def State.recordCommit (s : State) (old : Bytes) (late : Bool) (cause : Byte) : State :=
  let s := { s with update := { s.update with tornSeen := false } }
  s.record Code.keyCommit 0xFF (commitBody old s.ledgerId late cause)

/-- A half's full content: sequence, epoch, cause, entries and tag (R174). -/
def State.sealHalf (s : State) (content : Bytes) (seq : Nat) (cause : Byte) : Bytes :=
  let body := be 4 seq ++ be 1 s.epoch ++ [cause, 0, 0] ++ (fit 4096 0 content).drop 8
  let body := body.take 0xFE0
  body ++ s.ledgerTag body

/-- A half written. -/
def State.writeHalf (s : State) (b : Bool) (content : Bytes) (seq : Nat) (cause : Byte) : State :=
  s.vaultWrite (halfAt b) (s.sealHalf content seq cause)

/-- How a ledger update ended (R178). -/
inductive LedgerEnd where
  | committed
  | refused (reason : Byte)
  | failed
deriving DecidableEq, Repr

/-- The laps of an update before U6 starts, and in all (R178; the place of U6 is DESIGN CHOICE, log 183). -/
def updateLapsToU6 : Nat := 2
def updateLaps : Nat := 3

/-- The record of U6, or the one that takes its place, at the slot at which U6 starts, and the rest of the update's 3 laps (R178). -/
def State.endUpdate (s : State) (record : State → State) : State :=
  (record (s.pass (updateLapsToU6 * lapSlots))).pass ((updateLaps - updateLapsToU6) * lapSlots)

/-- Steps U1–U6 of R178 on a change of the live content: 3 laps, whatever the outcome. `tripIn` is the step in which the commit monitor trips: a vault write
in progress, of up to 1 KB (R170), runs to its end and no later one starts (R123). How far the step had come is free (log 2). -/
def State.ledgerUpdate (s : State) (patches : List (Nat × Bytes)) (cause : Byte) (tripIn : Option (Fin 4)) : State × LedgerEnd :=
  match s.liveHalf? with
  | none => (s, .failed)
  | some live =>
    let old := s.ledger
    let seq := field old 0 4
    let torn := fun (st : State) (stage : Nat) => (st.endUpdate (fun u => u.recordTorn stage 0 (seq + 1)), LedgerEnd.failed)
    let done := fun (st : State) => (st.endUpdate (fun u => u.recordCommit (s.ledgerIdOf seq) false cause), LedgerEnd.committed)
    let refuse := fun (reason : Byte) => (s.endUpdate (fun u => u.recordTorn 4 reason (seq + 1)), LedgerEnd.refused reason)
    if s.power.commitLow ∨ tripIn = some 0 then refuse Code.lowbat
    else if 0xFFFFFFFE ≤ seq then refuse Code.policy
    else
      let fresh := s.sealHalf (patchBytes old patches) (seq + 1) cause
      let s2 := s.vaultWrite (halfAt !live) (fresh.take 0xFE0)
      let s3 := s.vaultWrite (halfAt !live) fresh
      let s4 := s3.vaultPut commitWordAt (seq + 1)
      if !s3.halfTagOk (!live) then torn s3 1
      else match tripIn with
      | none => done s4
      | some ⟨1, _⟩ =>
        let (k, s) := s.freeBelow 4
        torn (s.vaultWrite (halfAt !live) (fresh.take (min 0xFE0 (1024 * (k + 1))))) 1
      | some ⟨2, _⟩ => if s.freeBit.1 then torn s3.freeBit.2 1 else torn s2.freeBit.2 1
      | some _ => if s.freeBit.1 then done s4.freeBit.2 else torn s3.freeBit.2 2

/-- The ledger initialised (R177). -/
def State.ledgerInit (s : State) : State :=
  let id := s.ledgerId
  let s := s.writeHalf false (zeros 4096) 1 0x05
  let s := s.writeHalf true (zeros 4096) 0 0x05
  let s := s.vaultPut commitWordAt 1
  let s := { s with boot := { s.boot with ledgerLost := false }, update := { s.update with initDue := false } }
  s.recordCommit id false 0x05

/-! ### The ledger at a start (R175, R181, R182) -/

/-- Whether the ring holds a KEY_COMMIT that names a `sequence` as the new one (R181). -/
def State.commitRecorded (s : State) (seq : Nat) : Bool :=
  (List.range ringRecords).any (fun i =>
    match s.ringSlot? i with
    | some r => byteAt r 10 == Code.keyCommit && field r 20 4 == seq && field r 0 4 % ringRecords == i
    | none => false)

/-- A torn update found at a start: the torn-update count advances, below VCOMMIT too (R172), and KEY_TORN is recorded with the
count that it makes (the case of R183). -/
def State.tornFound (s : State) (stage would : Nat) : State := (s.countUpTo tornCounterAt 65535).recordTorn stage 0 would

/-- The inactive half rewritten as a copy of the live half with `sequence` live − 1 while the commit monitor is clear (R182). -/
def State.repairHalf (s : State) (live : Bool) : State :=
  if s.power.commitLow then s
  else
    let seq := field (s.half live) 0 4
    if seq = 0 then (s.ledgerUpdate [] 0x05 none).1
    else s.writeHalf (!live) (s.half live) (seq - 1) (byteAt (s.half live) 5)

/-- Whether the ring shows a KEY_TORN of stage 1, 2 or 3 since the last KEY_COMMIT (R183; log 130). -/
def State.tornInRing (s : State) : Bool :=
  let last := fun (p : Bytes → Bool) => ((List.range ringRecords).filterMap (fun i =>
    match s.ringSlot? i with
    | some r => if field r 0 4 % ringRecords == i && p r then some (field r 0 4 + 1) else none
    | none => none)).foldl max 0
  decide (last (fun r => byteAt r 10 == Code.keyCommit) < last (fun r => byteAt r 10 == Code.keyTorn && byteAt r 12 != 4))

/-- What a start finds of an interrupted update (R181–R183). -/
def State.ledgerStart (s : State) : State :=
  let s := { s with update := { s.update with tornSeen := s.tornInRing } }
  match s.liveHalf? with
  | none =>
    { s with boot := { s.boot with ledgerLost := true, notes := s.boot.notes ||| 1#32 }, update := { s.update with initDue := true } }
  | some live =>
    let seq := field (s.half live) 0 4
    let other := field (s.half !live) 0 4
    let otherOk := s.halfTagOk !live
    if s.vaultValue? commitWordAt ≠ some seq then
      let s := s.tornFound 3 (if otherOk then other else seq + 1)
      let s := if s.power.commitLow then s else s.vaultPut commitWordAt seq
      s.repairHalf live
    else if !otherOk then (s.tornFound 1 (seq + 1)).repairHalf live
    else if other = seq + 1 then (s.tornFound 2 other).repairHalf live
    else if other + 1 ≠ seq then (s.tornFound 1 other).repairHalf live
    else if s.commitRecorded seq then s
    else s.recordCommit (s.ledgerIdOf other) true (byteAt (s.half live) 5)

/-! ### Tag-root records (R260, R263) -/

/-- The offset of record `r` (0 or 1) of a tenant (R263). -/
def rootRecordAt (t : TSlot) (r : Nat) : Nat := 0x12800 + 128 * t.val + 64 * r

/-- The tag of a tag-root record (R263). -/
def State.rootTag (s : State) (t : TSlot) (b : Bytes) : Bytes :=
  s.mac .vaultIntegrity "BX4016 TAGROOT" (slotByte t :: b.take 32) 32

/-- A tag-root record when its tag is valid. -/
def State.rootRecord? (s : State) (t : TSlot) (r : Nat) : Option Bytes :=
  if s.vaultBadIn (rootRecordAt t r) 64 || s.integrityKey.isNone then none
  else
    let b := s.vaultBytes (rootRecordAt t r) 64
    if b.drop 32 = s.rootTag t b then some b else none

/-- The live tag-root record and its place (R263). -/
def State.liveRoot? (s : State) (t : TSlot) : Option (Nat × Bytes) :=
  match s.rootRecord? t 0, s.rootRecord? t 1 with
  | some a, some b => if field a 0 4 < field b 0 4 then some (1, b) else some (0, a)
  | some a, none => some (0, a)
  | none, some b => some (1, b)
  | none, none => none

/-- Fields of a tag-root record (R263). -/
def rootSeq (b : Bytes) : Nat := field b 0 4
def rootCeiling (b : Bytes) : Nat := field b 4 5
def rootSlot (b : Bytes) (i : Nat) : Nat := (byteAt b (9 + i)).toNat
def rootDigest (b : Bytes) : Bytes := slice b 16 16

/-- The next tag-root record written over the inactive one (R264 C6). -/
def State.writeRoot (s : State) (t : TSlot) (ceiling : Nat) (slots : List Nat) (digest : Bytes) : State :=
  let (place, seq) := match s.liveRoot? t with
    | some (r, b) => (1 - r, rootSeq b + 1)
    | none => (0, 1)
  let head := be 4 seq ++ be 5 ceiling ++ fit 5 0xFF (slots.map (fun n => BitVec.ofNat 8 n)) ++ zeros 2 ++ fit 16 0 digest
  s.vaultWrite (rootRecordAt t place) (head ++ s.rootTag t head)

end Sys2Proof.Machine
end

