-- ==== Sys2Proof/Machine/Operands.lean ====
section
/-!
DEFINITION. The operand forms of commands: virtual addresses and their regions (R273), porch pages (R285–R290), pages, sectors
and blocks of programs and erases (R275), leaves of the data region (R257–R259).
-/
namespace Sys2Proof.Machine

/-- The regions of a tenant's virtual addresses (R273). -/
inductive Region where
  | image
  | data
  | confirm
  | nonce
  | note
  | statement
  | fault
  | window
  | none
deriving DecidableEq, Repr

/-- P of R273: the bytes of a partition. -/
def TenantDecl.size (d : TenantDecl) : Nat := 65536 * d.partition

/-- The first address of the data region (R273). -/
def TenantDecl.dataStart (d : TenantDecl) : Nat := 4096 * d.denShare

/-- The address after the data region (R273). -/
def TenantDecl.dataEnd (d : TenantDecl) : Nat := d.size - 20480

/-- The region that holds a virtual address (R273), in the order of its table. -/
def TenantDecl.region (d : TenantDecl) (a : Nat) : Region :=
  if a < d.dataStart then .image
  else if a < d.size - 20480 then .data
  else if a < d.size - 16384 then .confirm
  else if a < d.size - 12288 then .nonce
  else if a < d.size - 8192 then .note
  else if a < d.size - 4096 then .statement
  else if a < d.size then .fault
  else if d.window && decide (a < d.size + 65536) then .window
  else .none

/-- A porch page that takes requests (R285). -/
def Region.isPage (r : Region) : Bool := r == .confirm || r == .nonce || r == .note || r == .statement

/-- The first address of a porch page (R273). -/
def TenantDecl.pageStart (d : TenantDecl) (r : Region) : Nat :=
  match r with
  | .confirm => d.size - 20480
  | .nonce => d.size - 16384
  | .note => d.size - 12288
  | .statement => d.size - 8192
  | _ => d.size - 4096

/-- The address `i` bytes after `a` (R274). -/
def addrAt (a i : Nat) : Nat := (a + i) % 16777216

/-- The addresses that a page program of bytes writes, wrapping within the 256-byte page (R275); a later byte on the same
address wins. -/
def pageWrites (a : Nat) (data : Bytes) : List (Nat × Byte) :=
  let at_ := (data.zipIdx).map (fun p => (a / 256 * 256 + (a + p.2) % 256, p.1))
  (at_.zipIdx).filterMap (fun p =>
    if (at_.drop (p.2 + 1)).any (fun q => q.1 == p.1.1) then none else some p.1)

/-- The first address and the length of an erase (R275). -/
def eraseSpan (op : WriteOp) : Nat × Nat :=
  match op with
  | .program a data => (a, data.length)
  | .erase4k a => (a / 4096 * 4096, 4096)
  | .erase64k a => (a / 65536 * 65536, 65536)

/-- The address a program or erase names. -/
def WriteOp.addr (op : WriteOp) : Nat := match op with | .program a _ => a | .erase4k a => a | .erase64k a => a

/-- Whether a write is a program. -/
def WriteOp.isProgram (op : WriteOp) : Bool := match op with | .program _ _ => true | _ => false

/-- The last byte of a write's span. -/
def WriteOp.last (op : WriteOp) : Nat :=
  match op with
  | .program a _ => a
  | _ => (eraseSpan op).1 + (eraseSpan op).2 - 1

/-- Whether every byte of a program or an erase range lies in the data region (R314). -/
def TenantDecl.writable (d : TenantDecl) (op : WriteOp) : Bool :=
  d.region op.addr == .data && d.region (eraseSpan op).1 == .data && d.region op.last == .data

/-- Whether a program or an erase range touches no region of the tenant (R314). -/
def TenantDecl.foreign (d : TenantDecl) (op : WriteOp) : Bool := d.region op.addr == .none

/-- The virtual sectors that a write covers: first and count. -/
def WriteOp.sectors (op : WriteOp) : Nat × Nat :=
  match op with
  | .program a _ => (a / 4096, 1)
  | .erase4k a => (a / 4096, 1)
  | .erase64k a => (a / 65536 * 16, 16)

/-- The data-region sector of a virtual sector (R257). -/
def TenantDecl.dataSector (d : TenantDecl) (v : Nat) : Nat := v - d.denShare

/-- The data-region leaf of a virtual address (R259). -/
def TenantDecl.dataLeaf (d : TenantDecl) (a : Nat) : Nat := (a - d.dataStart) / 1024

/-- The first virtual address of a data-region leaf. -/
def TenantDecl.leafAddr (d : TenantDecl) (leaf : Nat) : Nat := d.dataStart + 1024 * leaf

/-- The tag-table leaf, map leaf of a data-region sector and the entries in them (R257, R259, R261). -/
def tagLeafOf (sector : Nat) : Nat := sector / 16
def mapLeafOf (sector : Nat) : Nat := sector / 128

/-- The metadata numbers in the order of R261: tag tables, then maps, then index leaves. -/
def TenantDecl.sectorsD (d : TenantDecl) : Nat := 16 * d.partition - 5 - d.denShare
def TenantDecl.leavesT (d : TenantDecl) : Nat := ceilDiv d.sectorsD 16
def TenantDecl.leavesM (d : TenantDecl) : Nat := ceilDiv d.sectorsD 128
def TenantDecl.leavesX (d : TenantDecl) : Nat := ceilDiv (d.leavesT + d.leavesM) 64

/-- The number of a metadata leaf among those the index lists (R261). -/
def TenantDecl.metaNo (d : TenantDecl) (k : LeafKind) (no : Nat) : Nat :=
  match k with
  | .tagTable => no
  | .map => d.leavesT + no
  | _ => d.leavesT + d.leavesM + no

/-- The writable offsets of a porch page (R287–R290). -/
def Region.writableAt (r : Region) (o : Nat) : Bool :=
  match r with
  | .statement => o == 0 || (decide (4 ≤ o) && decide (o < 20))
  | .note => o == 0 || o == 3 || o == 4 || (decide (8 ≤ o) && decide (o < 26))
  | .nonce => o == 0
  | .confirm => o == 0 || o == 4 || o == 5
  | _ => false

/-- Whether a page defines a request byte (R285, R287–R290). -/
def Region.defines (r : Region) (b : Byte) : Bool :=
  match r with
  | .nonce => b == 1 || b == 2 || b == 3
  | .statement => b == 1
  | .note => b == 1
  | .confirm => b == 1
  | _ => false

/-! ### Porch pages as stored (R285) -/

/-- The byte of a porch page at an offset. -/
def Porch.byte (p : Porch) (o : Nat) : Byte :=
  if o = 0 then p.request else if o = 1 then p.status else if o = 2 then p.reason else if o = 3 then p.byte3
  else p.fields.read (fun _ => 0) o

/-- `n` bytes of a porch page from an offset. -/
def Porch.range (p : Porch) (o n : Nat) : Bytes := (List.range n).map (fun i => p.byte (o + i))

/-- One byte stored in a porch page. -/
def Porch.put (p : Porch) (o : Nat) (b : Byte) : Porch :=
  if o = 0 then { p with request := b } else if o = 1 then { p with status := b } else if o = 2 then { p with reason := b }
  else if o = 3 then { p with byte3 := b } else { p with fields := p.fields.write (fun _ => 0) o b }

/-- Bytes stored in a porch page from an offset of 4 or above. -/
def Porch.putRange (p : Porch) (o : Nat) (bs : Bytes) : Porch := { p with fields := p.fields.writeRange (fun _ => 0) o bs }

/-- The porch page of a region. -/
def Tenant.page (t : Tenant) (r : Region) : Porch :=
  match r with
  | .statement => t.statementPage
  | .note => t.notePage
  | .nonce => t.noncePage
  | .confirm => t.confirmPage
  | _ => Porch.blank

/-- A porch page replaced. -/
def Tenant.setPage (t : Tenant) (r : Region) (p : Porch) : Tenant :=
  match r with
  | .statement => { t with statementPage := p }
  | .note => { t with notePage := p }
  | .nonce => { t with noncePage := p }
  | .confirm => { t with confirmPage := p }
  | _ => t

/-- Status values of a porch page (R285). -/
def porchIdle : Byte := 0
def porchPending : Byte := 1
def porchDone : Byte := 2
def porchRefused : Byte := 3

/-! ### Opcode groups (R219, R275) -/

/-- The seven opcode groups (R219). -/
inductive Group where
  | fast
  | dual
  | quad
  | program
  | erase4k
  | erase64k
  | powerDown
deriving DecidableEq, Repr

/-- The bit of a group in `opcode groups` (R219). -/
def Group.bit : Group → Nat
  | .fast => 0
  | .dual => 1
  | .quad => 2
  | .program => 3
  | .erase4k => 4
  | .erase64k => 5
  | .powerDown => 6

/-- Whether a tenant's set holds a group (R275). -/
def Tenant.hasGroup (t : Tenant) (g : Group) : Bool := t.groups.testBit g.bit

end Sys2Proof.Machine
end

