-- ==== Sys2Proof/Machine/Flags.lean ====
section
/-!
DEFINITION. Flags and what reports them: status byte (R279), flag byte (R280), fault page (R286), refusals and their records
(R276, R291, R335), TAMPERED (R310), publication with ALERT# and NOTICE (R282, R283, R362).
-/
namespace Sys2Proof.Machine

/-- The status byte (R279). -/
def PortSt.statusByte (p : PortSt) : Byte := BitVec.ofNat 8 ((if p.wip then 1 else 0) + (if p.wel then 2 else 0))

/-- No fetch of the tenant is pending or deferred (R280). -/
def Tenant.settled (t : Tenant) : Bool := t.chains.isEmpty && t.awaited.isEmpty && !t.miss && !t.defer

/-- The flag byte (R280). -/
def Tenant.flagByte (t : Tenant) (wip : Bool) : Byte :=
  BitVec.ofNat 8 ((if !wip && t.settled then 128 else 0) + (if t.miss then 64 else 0) + (if t.defer then 32 else 0) +
    (if t.refuse then 16 else 0) + (if t.late then 8 else 0) + (if t.tampered then 4 else 0) + (if t.lost then 2 else 0) +
    (if t.confirmed then 1 else 0))

/-- Bits 4–1 of a flag byte: the alert summary (R283). -/
def alertBits (f : Byte) : Byte := f &&& 0x1E

/-- 50h at the lane's poll: bits 6–1 and the cleared fields of the fault page (R281, R286). -/
def Tenant.clearFlags (t : Tenant) : Tenant :=
  { t with miss := false, defer := false, refuse := false, late := false, tampered := false, lost := false
           lastReason := 0, lastOpcode := 0, lastAddr := 0xFFFFFFFF, firstLate := 0xFFFFFFFF, firstTampered := 0xFFFFFFFF }

/-- A refusal's flag and fault-page fields (R280, R286). -/
def Tenant.refused (t : Tenant) (reason opcode : Byte) (addr : Nat) : Tenant :=
  { t with refuse := true, lastReason := reason, lastOpcode := opcode, lastAddr := BitVec.ofNat 32 addr
           refusals := sat16 (t.refusals + 1) }

/-- TAMPERED with its fields (R286, R310). -/
def Tenant.tamperedAt (t : Tenant) (addr : Nat) : Tenant :=
  { t with tampered := true, tamperedCount := sat16 (t.tamperedCount + 1)
           firstTampered := if t.firstTampered = 0xFFFFFFFF then BitVec.ofNat 32 addr else t.firstTampered }

/-- LATE with its fields (R322). -/
def Tenant.lateAt (t : Tenant) (addr : Nat) : Tenant :=
  { t with late := true, lateCount := sat16 (t.lateCount + 1)
           firstLate := if t.firstLate = 0xFFFFFFFF then BitVec.ofNat 32 addr else t.firstLate }

/-- The state code of the fault page (R286). -/
def TenantLife.code (l : TenantLife) : Byte := match l with | .released => 1 | .degraded => 2 | _ => 0

/-- Whether a tenant is attached to a port. -/
def State.onPort (s : State) (t : TSlot) : Bool := match s.decl? t with | some d => d.attach != .link | none => false

/-- A refusal of tenant `t` (R280, R286); a SPOOF refusal of a port tenant also appends its record, at most one in any 1,024
laps (R291, R468). `attempt` is the row of R291. -/
def State.refuse (s : State) (t : TSlot) (reason opcode : Byte) (addr attempt : Nat) : State :=
  let s := s.modTenant t (fun x => x.refused reason opcode addr)
  if reason = Code.spoof ∧ s.onPort t then
    s.recordLimited Code.spoofRecord (slotByte t) (fun n => [BitVec.ofNat 8 attempt, opcode] ++ be 4 addr ++ be 2 n)
  else s

/-- WIP of the port that a tenant is bound to; a link tenant has none. -/
def State.wipOf (s : State) (t : TSlot) : Bool :=
  match (s.decl? t).bind TenantDecl.port? with
  | some p => (s.port p).wip
  | none => false

/-- WIP and WEL of a tenant's port cleared together (R320). -/
def State.clearWip (s : State) (t : TSlot) : State :=
  match (s.decl? t).bind TenantDecl.port? with
  | some p => s.modPort p (fun x => { x with wip := false, wel := false })
  | none => s

/-- The fault page content at offsets 0x000–0x03F (R286). -/
def State.faultBytes (s : State) (t : TSlot) : Bytes :=
  let x := s.tenant t
  [x.flagByte (s.wipOf t), x.life.code, x.lastReason, x.lastOpcode] ++ be 4 x.lastAddr.toNat ++ be 2 x.refusals ++
    be 2 x.deferrals ++ be 4 x.firstLate.toNat ++ be 2 x.lateCount ++ be 2 x.lostCount ++ be 4 x.firstTampered.toNat ++
    be 2 x.tamperedCount ++ be 2 x.preRelease ++ be 4 s.boot.counter ++ be 2 x.generation ++
    be 2 (entryDataGen s.ledger t) ++ [if x.life = .degraded then x.reason else 0, 0, 0, 0] ++ s.ledgerId ++ zeros 16

/-- The counts of a fault page, in its order (R286). -/
def faultCounts (b : Bytes) : List Nat := [8, 10, 16, 18, 24, 26].map (fun o => field b o 2)

/-- Whether a publication sets a bit of bits 4–1 that was clear, or raises a count (R283). -/
def raises (oldFlag newFlag : Byte) (oldFault newFault : Bytes) : Bool :=
  (alertBits newFlag &&& ~~~ alertBits oldFlag) != 0 ||
    ((faultCounts oldFault).zip (faultCounts newFault)).any (fun p => decide (p.1 < p.2))

/-- The content of a cached porch leaf follows the page as published (R274, R285). -/
def Tenant.refreshPorch (d : TenantDecl) (t : Tenant) : Tenant :=
  let leafNow := fun (l : CacheLeaf) =>
    if l.kind = .porch then
      let a := 1024 * l.no
      let r := d.region a
      { l with content := (t.page r).range (a - d.pageStart r) 1024 }
    else l
  { t with cache := t.cache.map leafNow, inserts := t.inserts.map leafNow }

/-- A frame queued to be sent; nothing is queued while the link is not open (R237, R346). -/
def State.send (s : State) (f : OutFrame) : State :=
  if s.link.opened then { s with link := { s.link with outbox := s.link.outbox ++ [f] } } else s

/-- An unsolicited frame from the unit. -/
def outFrame (dest : Dest) (kind : Nat) (request : Byte) (sealed : Bool) (payload : Bytes) : OutFrame :=
  ⟨dest, kind, request, false, sealed, payload, 0⟩

/-- The session with a peer (R352, R360). -/
def State.session? (s : State) (p : Peer) : Option Session := s.sessions.find? (fun x => x.peer == p)

/-- The link identity of a tenant. -/
def TenantDecl.peer (d : TenantDecl) : Peer := .module d.linkNode

/-- NOTICE queued to a link tenant with the content current, in place of an older one not yet sent (R362). -/
def State.queueNotice (s : State) (t : TSlot) (d : TenantDecl) : State :=
  let others := s.link.outbox.filter (fun f => !(f.kind == Code.fNotice && f.dest == .peer d.peer))
  { s with link := { s.link with outbox := others } }.send (outFrame (.peer d.peer) Code.fNotice 0 true (s.tenant t).pubFault)

/-- NOTICE to a link tenant that holds a session (R362). -/
def State.sendNotice (s : State) (t : TSlot) (d : TenantDecl) : State :=
  match s.session? d.peer with
  | some _ =>
    let s := s.queueNotice t d
    s.modTenant t (fun x => { x with notice := some (0, s.clock.boundaries) })
  | none => s

/-- The level of a port tenant's ALERT# pad after a publication (R72, R283): one that falls during a platform wake takes effect at its
end (R450); a new fault while the pin is low lets it go high for 128 slots. -/
def State.setAlert (s : State) (d : TenantDecl) (low again : Bool) : State :=
  match d.port? with
  | some p =>
    if s.pulsing p then s
    else if low && again then (s.driveAlert p false).modPort p (fun x => { x with alertPulse := s.now + 128 })
    else s.driveAlert p low
  | none => s

/-- The publication of a tenant's flag byte, fault page and pages as one value, with ALERT# or NOTICE after it (R282, R283,
R362). -/
def State.publish (s : State) (t : TSlot) : State :=
  match s.decl? t with
  | none => s
  | some d =>
    let x := s.tenant t
    let flag := x.flagByte (s.wipOf t)
    let fault := s.faultBytes t
    let told := raises x.pubFlag flag (fit 64 0 x.pubFault) fault
    let live := x.life == .released || x.life == .degraded
    let s := s.setTenant t { (x.refreshPorch d) with pubFlag := flag, pubFault := fault, alert := live && alertBits flag != 0 }
    let s := if live then s.setAlert d (alertBits flag != 0) (x.alert && told) else s
    if d.attach = .link ∧ live ∧ told ∧ alertBits flag ≠ 0 then s.sendNotice t d else s

end Sys2Proof.Machine
end

