-- ==== Sys2Proof/Machine/BadgerForm.lean ====
section
/-!
DEFINITION. The Badger program: its bytes (R439–R442) and the form that manifest check M11 asks for (R444).
-/
namespace Sys2Proof.Machine

/-- Remaining ticks that `ms` milliseconds take at `k` BDG periods a tick: ⌈ms × 32.768 ÷ k⌉ (R441, R453, R454). -/
def ticksOf (ms k : Nat) : Nat := ceilDiv (ms * 32768) (1000 * k)

/-- BDG periods per tick of a tick code (R439). -/
def tickPeriods (c : Nat) : Nat := 2 ^ (c + 5)

/-- A channel entry (R440). -/
def channelOf (bs : Bytes) : BChanCfg :=
  let b := byteAt bs 0
  { enable := b.getLsbD 0, lowActive := b.getLsbD 1, pull := b.getLsbD 2, glitch := b.getLsbD 3
    threshold := (byteAt bs 1).toNat, mode := (byteAt bs 2).toNat, d := (byteAt bs 3).toNat }

/-- The d that a channel's level filter acts with (R438, R456). -/
def BChanCfg.depth (c : BChanCfg) : Nat :=
  if c.mode = 0 then 1 else if c.mode = 1 then c.d else if c.mode = 2 then 3 else 5

/-- A rule (R442). -/
def ruleOf (bs : Bytes) : BRule :=
  { source := (byteAt bs 0).toNat / 16, index := (byteAt bs 0).toNat % 16, qualifier := (byteAt bs 1).toNat
    mask := BitVec.ofNat 16 (field bs 2 2), value := BitVec.ofNat 16 (field bs 4 2), actions := byteAt bs 6
    wakeBit := (byteAt bs 7).toNat % 16, timer := (byteAt bs 7).toNat / 16 % 8, eventCode := (byteAt bs 8).toNat
    targets := byteAt bs 9 }

/-- A program read from its bytes (R439). -/
def programOf (bs : Bytes) : BProgram :=
  { tickCode := (byteAt bs 4).toNat
    logChannel := if byteAt bs 5 = 0xFF then none else some (byteAt bs 5).toNat
    initialLatch := byteAt bs 6 == 1
    channels := (List.range 4).map (fun i => channelOf (slice bs (16 + 8 * i) 8))
    timers := (List.range 8).map (fun i => field bs (48 + 2 * i) 2)
    rules := (List.range (byteAt bs 3).toNat).map (fun i => ruleOf (slice bs (64 + 16 * i) 16)) }

/-- Whether a channel entry's bytes lie in their ranges (R440). -/
def channelForm (bs : Bytes) : Bool :=
  decide ((byteAt bs 0).toNat < 16) && decide ((byteAt bs 1).toNat ≤ 3) && decide ((byteAt bs 2).toNat ≤ 3) &&
    (if byteAt bs 2 = 1 then decide (1 ≤ (byteAt bs 3).toNat) else byteAt bs 3 == 0) && allBytes 0 (slice bs 4 4)

/-- Whether a rule's trigger fields lie in their ranges (R442). -/
def triggerForm (r : BRule) : Bool :=
  match r.source with
  | 0 => decide (r.index ≤ 3) && decide (1 ≤ r.qualifier) && decide (r.qualifier ≤ 3)
  | 1 => decide (r.index ≤ 7) && decide (r.qualifier = 0)
  | 2 => decide (r.index = 0) && decide (r.qualifier = 0)
  | 3 => decide (r.index = 0) && (decide (r.qualifier ≤ 0x7F) || decide (r.qualifier = 0xFF))
  | 4 => decide (r.index ≤ 2) && decide (1 ≤ r.qualifier) && decide (r.qualifier ≤ 3)
  | 15 => decide (r.index = 0) && decide (r.qualifier = 0)
  | _ => false

/-- What the manifest and straps fix for a program (R444): channels, whether key 8 is present and what it names, which ports
are bound to a tenant, whether pad 30 is ALERTB#. -/
structure BadgerEnv where
  channels : List ChannelDecl
  policy : Option ActuatorPolicy
  portABound : Bool
  portBBound : Bool
  alertB : Bool

/-- Whether a rule's bytes meet their form (R442, R444). -/
def ruleForm (env : BadgerEnv) (timers : List Nat) (bs : Bytes) : Bool :=
  let r := ruleOf bs
  triggerForm r && !r.actions.getLsbD 7 && !(r.actions.getLsbD 2 && r.actions.getLsbD 3) &&
    decide ((byteAt bs 7).toNat < 128) && decide (r.eventCode ≤ 0x7F) && decide (r.targets.toNat ≤ 3) && allBytes 0 (slice bs 10 6) &&
    (!(r.actions.getLsbD 5 || r.actions.getLsbD 6) || decide (timers.getD r.timer 0 ≠ 0)) &&
    (!r.targets.getLsbD 0 || env.portABound) && (!r.targets.getLsbD 1 || (env.portBBound && env.alertB))

/-- Whether a channel of key 11 can be the log channel (R444): Badger sends in 2 units or more, Ledger receives with wake. -/
def logChannelForm (c : ChannelDecl) : Bool :=
  (c.sideA.identity == 5 && decide (2 ≤ c.sideA.len) && c.sideB.identity == 2 && c.sideB.wake) ||
    (c.shared && c.sideB.identity == 5 && decide (2 ≤ c.sideB.len) && c.sideA.identity == 2 && c.sideA.wake)

/-- The form of R444. -/
def badgerForm (env : BadgerEnv) (bs : Bytes) : Bool :=
  let p := programOf bs
  decide (bs.length = 64 + 16 * (byteAt bs 3).toNat) && decide (field bs 0 2 = 0x4247) && byteAt bs 2 == 1 &&
    decide ((byteAt bs 3).toNat ≤ 64) && decide (p.tickCode ≤ 4) &&
    (byteAt bs 5 == 0xFF || decide ((byteAt bs 5).toNat ≤ 11)) && decide ((byteAt bs 6).toNat ≤ 1) &&
    allBytes 0 (slice bs 7 9) && (List.range 4).all (fun i => channelForm (slice bs (16 + 8 * i) 8)) &&
    (List.range (byteAt bs 3).toNat).all (fun i => ruleForm env p.timers (slice bs (64 + 16 * i) 16)) &&
    (match p.logChannel with
     | some l => env.channels.any (fun c => c.channel == l && logChannelForm c)
     | none => !p.rules.any (fun r => r.actions.getLsbD 1) && env.policy.isNone) &&
    (match env.policy with
     | some a =>
       (match a.egress with | some c => (p.channels.getD c.val ⟨false, false, false, false, 0, 0, 0⟩).enable | none => true) &&
         (match a.tamper with | some c => (p.channels.getD c.val ⟨false, false, false, false, 0, 0, 0⟩).enable | none => true)
     | none => true)

end Sys2Proof.Machine
end

