-- ==== Sys2Proof/Machine/Cbor.lean ====
section
/-!
DEFINITION. CBOR items as the block reads and writes them (R147, R211, R215, R471, R474; RFC 8949, RFC 9052, PRESUMED,
log 9), and the COSE_Sign1 structures built on them.
-/
namespace Sys2Proof.Machine

/-- A CBOR data item. `other` stands for a float, a simple value that is not
false, true or null, or a byte string of indefinite length. -/
inductive Cbor where
  | uint (n : Nat)
  | nint (n : Nat)
  | bytes (b : Bytes)
  | text (b : Bytes)
  | arr (xs : List Cbor)
  | map (xs : List (Cbor × Cbor))
  | tag (n : Nat) (x : Cbor)
  | bool (b : Bool)
  | null
  | other
deriving Repr

/-- What the encoding of an item keeps to: shortest heads, definite lengths, no tag, no float or other simple value, no text,
keys in rising order of their encoded bytes without a duplicate (R147, R215). -/
structure CborForm where
  shortest : Bool
  definite : Bool
  untagged : Bool
  plain : Bool
  noText : Bool
  sorted : Bool
  noDup : Bool
deriving DecidableEq, Repr

/-- The form that keeps to everything. -/
def CborForm.good : CborForm := ⟨true, true, true, true, true, true, true⟩

/-- Both forms at once. -/
def CborForm.both (a b : CborForm) : CborForm :=
  ⟨a.shortest && b.shortest, a.definite && b.definite, a.untagged && b.untagged, a.plain && b.plain, a.noText && b.noText,
   a.sorted && b.sorted, a.noDup && b.noDup⟩

/-- The deterministic encoding of R215 without the rejected items. -/
def CborForm.strict (f : CborForm) : Bool :=
  f.shortest && f.definite && f.untagged && f.plain && f.noText && f.sorted && f.noDup

/-- The form of R147: definite lengths, no tag, no float, no duplicate key. -/
def CborForm.request (f : CborForm) : Bool := f.definite && f.untagged && f.plain && f.noDup

/-- The head of an item: major type, argument (`none` for indefinite or break), shortest form, rest. -/
def cborHead (bs : Bytes) : Option (Nat × Option Nat × Bool × Bytes) :=
  match bs with
  | [] => none
  | b :: rest =>
    let major := b.toNat / 32
    let ai := b.toNat % 32
    let wide := fun (w low : Nat) =>
      if rest.length < w then none
      else let n := beNat (rest.take w); some (major, some n, decide (low ≤ n), rest.drop w)
    if ai < 24 then some (major, some ai, true, rest)
    else if ai = 24 then wide 1 24
    else if ai = 25 then wide 2 256
    else if ai = 26 then wide 4 65536
    else if ai = 27 then wide 8 4294967296
    else if ai = 31 then some (major, none, true, rest)
    else none

/-- Lexicographic order of encoded keys. -/
def bytesLt : Bytes → Bytes → Bool
  | [], [] => false
  | [], _ :: _ => true
  | _ :: _, [] => false
  | a :: as, b :: bs => if a = b then bytesLt as bs else decide (a.toNat < b.toNat)

/-- Whether encoded keys rise strictly. -/
def keysRise : List Bytes → Bool
  | a :: b :: rest => bytesLt a b && keysRise (b :: rest)
  | _ => true

/-- A list without repeated elements. -/
def noRepeat [DecidableEq α] : List α → Bool
  | [] => true
  | a :: rest => !(rest.contains a) && noRepeat rest

/-- Keys and values in pairs. -/
def cborPairs (xs : List Cbor) : List (Cbor × Cbor) :=
  match xs with
  | k :: v :: rest => (k, v) :: cborPairs rest
  | _ => []

/-- Whether the keys that are unsigned integers have distinct values, whatever their encodings. -/
def cborDistinct (xs : List ((Cbor × Bytes) × Nat)) : Bool :=
  noRepeat (xs.filterMap (fun p => match p.1.1 with | .uint n => some n | _ => none))

/-- The order and distinctness of the keys of a map. -/
def cborKeys (xs : List (Cbor × Bytes)) : CborForm :=
  let ks := (xs.zipIdx.filter (fun p => p.2 % 2 == 0)).map (fun p => p.1.2)
  { CborForm.good with sorted := keysRise ks, noDup := noRepeat ks && cborDistinct (xs.zipIdx.filter (fun p => p.2 % 2 == 0)) }

mutual
/-- One item and the rest of the bytes; `fuel` bounds the depth of calls. -/
def cborItem (fuel : Nat) (bs : Bytes) : Option (Cbor × CborForm × Bytes) :=
  match fuel with
  | 0 => none
  | fuel + 1 =>
    match cborHead bs with
    | none => none
    | some (major, arg, short, rest) =>
      let f := { CborForm.good with shortest := short }
      match major, arg with
      | 0, some n => some (.uint n, f, rest)
      | 1, some n => some (.nint n, f, rest)
      | 2, some n => if rest.length < n then none else some (.bytes (rest.take n), f, rest.drop n)
      | 3, some n => if rest.length < n then none else some (.text (rest.take n), { f with noText := false }, rest.drop n)
      | 4, some n => (cborSeq fuel n rest).map (fun r => (.arr (r.1.map (·.1)), f.both r.2.1, r.2.2))
      | 5, some n => (cborSeq fuel (2 * n) rest).map (fun r => (.map (cborPairs (r.1.map (·.1))), (f.both r.2.1).both (cborKeys r.1), r.2.2))
      | 6, some n => (cborItem fuel rest).map (fun r => (.tag n r.1, { f.both r.2.1 with untagged := false }, r.2.2))
      | 7, some n =>
        if bs.head?.map (·.toNat % 32) == some 24 && decide (n < 32) then none
        else if bs.head?.map (·.toNat % 32) == some 20 then some (.bool false, f, rest)
        else if bs.head?.map (·.toNat % 32) == some 21 then some (.bool true, f, rest)
        else if bs.head?.map (·.toNat % 32) == some 22 then some (.null, f, rest)
        else some (.other, { f with plain := false, shortest := true }, rest)
      | 2, none => (cborUntil fuel rest).map (fun r => (.other, { f with definite := false }, r.2.2))
      | 3, none => (cborUntil fuel rest).map (fun r => (.text [], { f with definite := false, noText := false }, r.2.2))
      | 4, none => (cborUntil fuel rest).map (fun r => (.arr (r.1.map (·.1)), { f.both r.2.1 with definite := false }, r.2.2))
      | 5, none => (cborUntil fuel rest).map (fun r =>
          (.map (cborPairs (r.1.map (·.1))), { (f.both r.2.1).both (cborKeys r.1) with definite := false }, r.2.2))
      | _, _ => none

/-- `n` items, each with its encoded bytes. -/
def cborSeq (fuel n : Nat) (bs : Bytes) : Option (List (Cbor × Bytes) × CborForm × Bytes) :=
  match fuel with
  | 0 => none
  | fuel + 1 =>
    match n with
    | 0 => some ([], CborForm.good, bs)
    | n + 1 =>
      match cborItem fuel bs with
      | none => none
      | some (x, f, rest) =>
        match cborSeq fuel n rest with
        | none => none
        | some (xs, g, rest2) => some ((x, bs.take (bs.length - rest.length)) :: xs, f.both g, rest2)

/-- Items up to a break, each with its encoded bytes. -/
def cborUntil (fuel : Nat) (bs : Bytes) : Option (List (Cbor × Bytes) × CborForm × Bytes) :=
  match fuel with
  | 0 => none
  | fuel + 1 =>
    if bs.head? = some 0xFF then some ([], CborForm.good, bs.drop 1)
    else
      match cborItem fuel bs with
      | none => none
      | some (x, f, rest) =>
        match cborUntil fuel rest with
        | none => none
        | some (xs, g, rest2) => some ((x, bs.take (bs.length - rest.length)) :: xs, f.both g, rest2)

end

/-- The item that a byte string encodes whole. -/
def cborDecode (bs : Bytes) : Option (Cbor × CborForm) :=
  match cborItem (3 * bs.length + 4) bs with
  | some (x, f, []) => some (x, f)
  | _ => none

mutual
/-- Levels of arrays and maps of an item (R215). -/
def cborDepth : Cbor → Nat
  | .arr xs => 1 + cborDepthList xs
  | .map xs => 1 + cborDepthMap xs
  | .tag _ x => cborDepth x
  | _ => 0

/-- The deepest of a list. -/
def cborDepthList : List Cbor → Nat
  | [] => 0
  | x :: xs => max (cborDepth x) (cborDepthList xs)

/-- The deepest of a map's keys and values. -/
def cborDepthMap : List (Cbor × Cbor) → Nat
  | [] => 0
  | (k, v) :: xs => max (max (cborDepth k) (cborDepth v)) (cborDepthMap xs)
end

/-- The value under an unsigned key of a map. -/
def Cbor.get? (c : Cbor) (k : Nat) : Option Cbor :=
  match c with
  | .map xs => (xs.find? (fun p => match p.1 with | .uint n => n == k | _ => false)).map (·.2)
  | _ => none

/-- An unsigned integer. -/
def Cbor.nat? (c : Cbor) : Option Nat := match c with | .uint n => some n | _ => none

/-- A byte string. -/
def Cbor.bytes? (c : Cbor) : Option Bytes := match c with | .bytes b => some b | _ => none

/-- The unsigned integer under a key. -/
def Cbor.natAt (c : Cbor) (k : Nat) : Option Nat := (c.get? k).bind Cbor.nat?

/-- The byte string under a key. -/
def Cbor.bytesAt (c : Cbor) (k : Nat) : Option Bytes := (c.get? k).bind Cbor.bytes?

/-- The elements of an array. -/
def Cbor.items (c : Cbor) : List Cbor := match c with | .arr xs => xs | _ => []

/-- The entries of a map. -/
def Cbor.entries (c : Cbor) : List (Cbor × Cbor) := match c with | .map xs => xs | _ => []

/-- Whether a map's keys are exactly unsigned integers out of a list. -/
def Cbor.keysIn (c : Cbor) (ks : List Nat) : Bool :=
  match c with
  | .map xs => xs.all (fun p => match p.1 with | .uint n => ks.contains n | _ => false)
  | _ => false

/-- A head of the deterministic encoding (R215). -/
def cborEncHead (major n : Nat) : Bytes :=
  if n < 24 then [BitVec.ofNat 8 (32 * major + n)]
  else if n < 256 then [BitVec.ofNat 8 (32 * major + 24)] ++ be 1 n
  else if n < 65536 then [BitVec.ofNat 8 (32 * major + 25)] ++ be 2 n
  else if n < 4294967296 then [BitVec.ofNat 8 (32 * major + 26)] ++ be 4 n
  else [BitVec.ofNat 8 (32 * major + 27)] ++ be 8 n

/-- Encoded items of the deterministic encoding (R215). -/
def encUint (n : Nat) : Bytes := cborEncHead 0 n
def encBytes (b : Bytes) : Bytes := cborEncHead 2 b.length ++ b
def encText (s : String) : Bytes := cborEncHead 3 (ascii s).length ++ ascii s
def encArr (xs : List Bytes) : Bytes := cborEncHead 4 xs.length ++ xs.flatten
def encMap (xs : List (Bytes × Bytes)) : Bytes := cborEncHead 5 xs.length ++ (xs.map (fun p => p.1 ++ p.2)).flatten
def encBool (b : Bool) : Bytes := [if b then 0xF5 else 0xF4]
def encNull : Bytes := [0xF6]

/-- The protected header {1: −7} (R147, R211, R471). -/
def es256Header : Bytes := [0xA1, 0x01, 0x26]

/-- The Sig_structure that is signed (R212). -/
def sigStructure (hdr payload : Bytes) : Bytes :=
  encArr [encText "Signature1", encBytes hdr, encBytes [], encBytes payload]

/-- The four elements of a COSE_Sign1 array. -/
structure Sign1 where
  hdr : Bytes
  unprotected : Cbor
  payload : Bytes
  signature : Bytes

/-- The elements of an item that is an array of four whose first, third and fourth are byte strings. -/
def Sign1.of? (c : Cbor) : Option Sign1 :=
  match c with
  | .arr [.bytes a, u, .bytes p, .bytes g] => some ⟨a, u, p, g⟩
  | _ => none

/-- An item under its leading tags. -/
def cborUntag : Nat → Cbor → Cbor
  | 0, c => c
  | n + 1, .tag _ c => cborUntag n c
  | _, c => c

/-- ES256 over a Sig_structure (R212, R393). -/
def es256Verify (key hdr payload sig : Bytes) : Bool :=
  decide (sig.length = 64) && ecdsaVerify key (sha256 (sigStructure hdr payload)) sig == .ok

end Sys2Proof.Machine
end

