-- ==== Sys2Proof/Machine/ManifestForm.lean ====
section
/-!
DEFINITION. The manifest: envelope and signature stage (R211, R212), checks M1–M11 (R215–R228), its decoding, and the flash
layout computed from it (R256, R257).
-/
namespace Sys2Proof.Machine

/-- What a manifest is checked against: state, unit number, link role of CFG1, widths and functions of the straps, and the
sectors of the supported chips. -/
structure FormEnv where
  life : LifeCycle
  unit : Bytes
  linkOff : Bool
  member : Bool
  quadA : Bool
  alertB : Bool
  sectors0 : Nat
  sectors1 : Nat

/-! ### Flash layout (R256–R258) -/

/-- The quantities of R257 for partition p and Den share S. -/
def dataSectors (p share : Nat) : Nat := 16 * p - 5 - share
def tagLeaves (d : Nat) : Nat := ceilDiv d 16
def mapLeaves (d : Nat) : Nat := ceilDiv d 128
def indexLeaves (d : Nat) : Nat := ceilDiv (tagLeaves d + mapLeaves d) 64
def metaLeaves (d : Nat) : Nat := tagLeaves d + mapLeaves d + indexLeaves d
def copySectors (share : Nat) : Nat := share + ceilDiv share 64

/-- The sectors of a tenant area (R257). -/
def areaSectors (p share : Nat) : Nat := 2 * copySectors share + 2 * metaLeaves (dataSectors p share)

/-- The sectors of the spill region (R256). -/
def spillSectors (records : Nat) : Nat := if records = 0 then 0 else records / 64 + 16

/-- The physical reference of sector `k` after the fixed regions, which continues from chip 0 onto chip 1 (R253, R256). -/
def sectorRef (n0 k : Nat) : Nat := if k < n0 - 112 then 112 + k else 2 ^ 23 + 64 + (k - (n0 - 112))

/-- The sectors after the fixed regions. -/
def usableSectors (n0 n1 : Nat) : Nat := (n0 - 112) + (n1 - 64)

/-- The sectors that R257's sum asks for. -/
def sectorsNeeded (n1 spill : Nat) (tenants : List TenantDecl) : Nat :=
  112 + (if n1 = 0 then 0 else 64) + spillSectors spill + 64 +
    (tenants.map (fun t => areaSectors t.partition t.denShare + dataSectors t.partition t.denShare)).sum

/-! ### Fields of the map -/

/-- An unsigned integer in a range. -/
def Cbor.inRange (c : Cbor) (lo hi : Nat) : Bool := match c with | .uint n => decide (lo ≤ n) && decide (n ≤ hi) | _ => false

/-- A byte string with a length in a range. -/
def Cbor.bytesIn (c : Cbor) (lo hi : Nat) : Bool :=
  match c with | .bytes b => decide (lo ≤ b.length) && decide (b.length ≤ hi) | _ => false

/-- true or false. -/
def Cbor.isBool (c : Cbor) : Bool := match c with | .bool _ => true | _ => false

/-- An array whose length lies in a range and whose elements pass. -/
def Cbor.arrOf (c : Cbor) (lo hi : Nat) (f : Cbor → Bool) : Bool :=
  match c with | .arr xs => decide (lo ≤ xs.length) && decide (xs.length ≤ hi) && xs.all f | _ => false

/-- A map whose keys are listed and whose values pass their key's check. -/
def Cbor.fields (c : Cbor) (fs : List (Nat × (Cbor → Bool))) : Bool :=
  match c with
  | .map xs => xs.all (fun p => match p.1 with
    | .uint n => match fs.find? (fun f => f.1 == n) with | some f => f.2 p.2 | none => false
    | _ => false)
  | _ => false

/-- Whether a map holds every key of a list. -/
def Cbor.hasAll (c : Cbor) (ks : List Nat) : Bool := ks.all (fun k => (c.get? k).isSome)

/-- Types and ranges of a tenant map (R218, R219). -/
def tenantFields (c : Cbor) : Bool :=
  c.fields [(1, fun x => x.inRange 0 15), (2, fun x => x.inRange 0 2), (3, fun x => x.inRange 1 0xFE),
    (4, fun x => x.bytesIn 65 65 && (match x with | .bytes (b :: _) => b == 0x04 | _ => false)), (5, fun x => x.inRange 1 256),
    (6, fun x => x.inRange 0 80), (7, fun x => x.inRange 0 24), (8, fun x => x.inRange 1 255), (9, fun x => x.inRange 0 2),
    (10, fun x => x.inRange 0 127), (11, fun x => x.inRange 0 1), (12, fun x => x.inRange 0 3), (13, fun x => x.bytesIn 3 6),
    (14, Cbor.isBool)] && c.hasAll [1, 2, 5, 6, 7, 8, 9, 11]

/-- Types and ranges of a side map (R226). -/
def sideFields (c : Cbor) : Bool :=
  c.fields [(1, fun x => x.inRange 1 6),
    (2, fun x => match x with | .arr [a, b] => a.inRange 0 255 && b.inRange 0 31 | _ => false), (3, Cbor.isBool),
    (4, fun x => x.inRange 0 7)] && c.hasAll [1]

/-- Types and ranges of a channel map (R226). -/
def channelFields (c : Cbor) : Bool :=
  c.fields [(1, fun x => x.inRange 0 11), (2, fun x => x.inRange 0 1), (3, fun x => x.inRange 1 4), (4, sideFields), (5, sideFields)] &&
    c.hasAll [1, 2, 3, 4, 5]

/-- `spill records` (R224). -/
def spillRange (c : Cbor) : Bool :=
  match c with | .uint n => n == 0 || (decide (1024 ≤ n) && decide (n ≤ 65536) && n % 1024 == 0) | _ => false

/-- Whether any tenant map has fail policy HOLD. -/
def anyHold (c : Cbor) : Bool :=
  ((c.get? 4).map Cbor.items).getD [] |>.any (fun t => t.natAt 11 == some 0)

/-- M3: keys, types, ranges and required keys (R216–R226). -/
def keysForm (env : FormEnv) (c : Cbor) : Bool :=
  c.fields [(1, fun x => x.inRange 0 (2 ^ 64)),
    (2, fun x => x.bytesIn 16 16 || x.arrOf 1 64 (fun u => u.bytesIn 16 16) || (match x with | .null => true | _ => false)),
    (3, fun x => x.bytesIn 32 32), (4, fun x => x.arrOf 1 16 tenantFields),
    (5, fun x => env.linkOff || (x.fields [(1, fun g => g.bytesIn 8 8), (2, fun ps => ps.arrOf 0 15 (fun u => u.bytesIn 16 16)),
      (3, fun r => r.inRange 0 15)])),
    (6, fun x => x.bytesIn 16 8192),
    (7, fun x => x.fields [(1, spillRange), (2, fun b => (b.nat?.map (fun n => [0, 50, 100, 200].contains n)).getD false),
      (3, fun s => s.inRange 0 16)]),
    (8, fun x => x.fields [(1, fun g => g.arrOf 0 65535 (fun t => t.inRange 0 15)), (2, fun s => s.inRange 0 3),
      (3, fun h => h.inRange 100 30000), (4, fun s => s.inRange 0 3)]),
    (9, fun x => x.arrOf 0 16 (fun t => t.inRange 0 15)),
    (10, fun x => match x with
      | .map es => es.all (fun p => p.1.inRange 0 15 && p.2.fields [(1, fun s => s.inRange 0 17), (2, fun w => w.inRange 1 65535)])
      | _ => false),
    (11, fun x => x.arrOf 0 12 channelFields)] &&
    c.hasAll [1, 2, 3, 4, 9] && (!env.member || (c.get? 5).isSome) && (!anyHold c || (c.get? 10).isSome)

/-! ### Decoding after M3 -/

/-- A slot number as a tenant slot. -/
def slotOfNat (n : Nat) : TSlot := ⟨n % 16, Nat.mod_lt _ (by decide)⟩

/-- A tenant map decoded (R218). -/
def tenantOf (c : Cbor) : TenantDecl :=
  { slot := slotOfNat ((c.natAt 1).getD 0)
    attach := match (c.natAt 2).getD 0 with | 0 => .portA | 1 => .portB | _ => .link
    linkNode := BitVec.ofNat 8 ((c.natAt 3).getD 0), linkKey := (c.bytesAt 4).getD [], partition := (c.natAt 5).getD 1
    denShare := (c.natAt 6).getD 0, quota := (c.natAt 7).getD 0, deferral := (c.natAt 8).getD 1
    writeMode := match (c.natAt 9).getD 0 with | 0 => .readOnly | 1 => .synchronous | _ => .posted
    groups := (c.natAt 10).getD 0, failPolicy := if c.natAt 11 = some 1 then .degrade else .hold
    resetLine := (c.natAt 12).map (fun n => ⟨n % 4, Nat.mod_lt _ (by decide)⟩), idBytes := (c.bytesAt 13).getD []
    window := match c.get? 14 with | some (.bool b) => b | _ => false }

/-- A side map decoded (R226). -/
def sideOf (c : Cbor) : SideDecl :=
  let r := ((c.get? 2).map Cbor.items).getD []
  { identity := (c.natAt 1).getD 0, base := ((r.head?).bind Cbor.nat?).getD 0, len := (((r.drop 1).head?).bind Cbor.nat?).getD 0
    wake := match c.get? 3 with | some (.bool b) => b | _ => false, event := c.natAt 4 }

/-- A channel map decoded (R226). -/
def channelDeclOf (c : Cbor) : ChannelDecl :=
  { channel := (c.natAt 1).getD 0, shared := c.natAt 2 == some 1, depth := (c.natAt 3).getD 1
    sideA := sideOf ((c.get? 4).getD .null), sideB := sideOf ((c.get? 5).getD .null) }

/-- A SENSE channel number. -/
def senseOf (n : Nat) : Fin 4 := ⟨n % 4, Nat.mod_lt _ (by decide)⟩

/-- A recovery entry decoded (R225). -/
def recoveryOf (p : Cbor × Cbor) : RecoveryEntry :=
  { slot := slotOfNat (p.1.nat?.getD 0)
    source := (p.2.natAt 1).map (fun n => if n = 16 then .peer else if n = 17 then .portA else .intake (slotOfNat n))
    window := (p.2.natAt 2).getD 120 }

/-- The payload decoded (R216). -/
def manifestOf (c : Cbor) : Manifest :=
  { binding := match c.get? 2 with
      | some (.bytes u) => .one u
      | some (.arr us) => .list (us.filterMap Cbor.bytes?)
      | _ => .any
    scheduleDigest := (c.bytesAt 3).getD [], tenants := (((c.get? 4).map Cbor.items).getD []).map tenantOf
    link := (c.get? 5).map (fun l => ⟨(l.bytesAt 1).getD [], (((l.get? 2).map Cbor.items).getD []).filterMap Cbor.bytes?, (l.natAt 3).getD 0⟩)
    badger := c.bytesAt 6
    spillRecords := ((c.get? 7).bind (fun a => a.natAt 1)).getD 0
    batteryStep := ((c.get? 7).bind (fun a => a.natAt 2)).getD 100
    counterShift := ((c.get? 7).bind (fun a => a.natAt 3)).getD 4
    actuator := (c.get? 8).map (fun a =>
      ⟨((((a.get? 1).map Cbor.items).getD []).filterMap Cbor.nat?).map slotOfNat, (a.natAt 2).map senseOf, (a.natAt 3).getD 3000,
       (a.natAt 4).map senseOf⟩)
    order := ((((c.get? 9).map Cbor.items).getD []).filterMap Cbor.nat?).map slotOfNat
    recovery := (((c.get? 10).map Cbor.entries).getD []).map recoveryOf
    mailbox := (((c.get? 11).map Cbor.items).getD []).map channelDeclOf }

/-! ### Checks M5–M11 on a decoded manifest -/

/-- M5: the binding admits the unit (R217). -/
def bindingForm (unit : Bytes) (m : Manifest) : Bool :=
  match m.binding with
  | .one u => u == unit
  | .list us => us.contains unit
  | .any => true

/-- The binding form in START (R468): 0 one, 1 list, 2 null. -/
def bindingCode (m : Manifest) : Nat := match m.binding with | .one _ => 0 | .list _ => 1 | .any => 2

/-- The presence rules of R218 and the conditions of R219 for one tenant map and its decoding. -/
def tenantForm (env : FormEnv) (c : Cbor) (t : TenantDecl) : Bool :=
  let port := t.attach != .link
  let bit := fun (i : Nat) => t.groups.testBit i
  ((c.get? 3).isSome == !port) && ((c.get? 4).isSome == !port) && ((c.get? 10).isSome == port) && ((c.get? 13).isSome == port) &&
    (!port || (c.get? 12).isSome) && (port || !env.linkOff) &&
    (!port ||
      ((!bit 2 || (t.attach == .portA && env.quadA)) && (!bit 3 || t.writeMode != .readOnly) && (!bit 4 || bit 3) && (!bit 5 || bit 3) &&
        (t.writeMode == .readOnly || bit 3)))

/-- M6 (R218, R219, R222). -/
def tenantsForm (env : FormEnv) (c : Cbor) (m : Manifest) : Bool :=
  noRepeat (m.tenants.map (·.slot)) &&
    ((((c.get? 4).map Cbor.items).getD []).zip m.tenants).all (fun p => tenantForm env p.1 p.2)

/-- M7 (R220, R257). -/
def poolForm (env : FormEnv) (m : Manifest) : Bool :=
  let ts := m.tenants
  decide ((ts.map (·.denShare)).sum ≤ 80) && decide ((ts.map (·.quota)).sum ≤ 24) &&
    decide ((ts.filter (fun t => t.attach == .portA)).length ≤ 1) && decide ((ts.filter (fun t => t.attach == .portB)).length ≤ 1) &&
    noRepeat (ts.filterMap (·.resetLine)) && noRepeat ((ts.filter (fun t => t.attach == .link)).map (·.linkNode)) &&
    decide ((ts.filter (·.window)).length ≤ 1) && ts.all (fun t => decide (t.denShare + 5 ≤ 16 * t.partition)) &&
    decide (sectorsNeeded env.sectors1 m.spillRecords ts ≤ env.sectors0 + env.sectors1)

/-- M8: the order lists every declared slot once. -/
def orderForm (m : Manifest) : Bool :=
  noRepeat m.order && m.order.all (fun t => m.tenants.any (fun d => d.slot == t)) && decide (m.order.length = m.tenants.length)

/-- The `source` of one recovery entry (R225). -/
def recoveryForm (env : FormEnv) (m : Manifest) (r : RecoveryEntry) : Bool :=
  match m.tenants.find? (fun t => t.slot == r.slot) with
  | none => false
  | some d =>
    match r.source with
    | none => d.failPolicy != .hold
    | some src => d.failPolicy == .hold &&
      (match src with
       | .intake n => n != r.slot && m.tenants.any (fun t => t.slot == n && t.writeMode != .readOnly)
       | .peer => env.member
       | .portA => d.attach == .portA)

/-- M9 (R223–R225). -/
def policiesForm (env : FormEnv) (m : Manifest) : Bool :=
  (!env.member || (match m.link with | some l => l.group != [] | none => false)) &&
    (match m.actuator with
     | some a => a.guards.all (fun t => m.tenants.any (fun d => d.slot == t)) &&
       (match a.egress, a.tamper with | some e, some t => e != t | _, _ => true)
     | none => true) &&
    m.recovery.all (recoveryForm env m) &&
    m.tenants.all (fun t => t.failPolicy != .hold || m.recovery.any (fun r => r.slot == t.slot && r.source.isSome))

/-- The clock domain of a master identity (R51): 0 FAB, 1 BDG, 2 PMU. -/
def identityDomain (i : Nat) : Nat := if i ≤ 4 then 0 else if i = 5 then 1 else 2

/-- Whether a side receives on its channel (R53). -/
def receives (c : ChannelDecl) (sideA : Bool) : Bool := c.shared || !sideA

/-- Presence of the sub-keys of one side: a region for a sender, wake for a receiver, an event for a fabric receiver (R54,
R226). -/
def sideForm (raw : Cbor) (sends gets : Bool) (d : SideDecl) : Bool :=
  ((raw.get? 2).isSome == sends) && ((raw.get? 3).isSome == gets) && (d.event.isSome == (gets && decide (d.identity ≤ 4)))

/-- M10 (R53, R54, R226). -/
def mailboxForm (c : Cbor) (m : Manifest) : Bool :=
  let raws := ((c.get? 11).map Cbor.items).getD []
  let regions := m.mailbox.flatMap (fun d =>
    [(d.sideA.base, d.sideA.len)] ++ (if d.shared then [(d.sideB.base, d.sideB.len)] else []))
  let used := regions.filter (fun r => decide (0 < r.2))
  let events := m.mailbox.flatMap (fun d =>
    (if d.shared then d.sideA.event.toList else []) ++ d.sideB.event.toList)
  noRepeat (m.mailbox.map (·.channel)) &&
    (raws.zip m.mailbox).all (fun p =>
      identityDomain p.2.sideA.identity != identityDomain p.2.sideB.identity &&
        (if p.2.shared then p.2.depth == 1 else decide (p.2.depth ≤ 4)) &&
        sideForm ((p.1.get? 4).getD .null) true p.2.shared p.2.sideA &&
        sideForm ((p.1.get? 5).getD .null) p.2.shared true p.2.sideB) &&
    regions.all (fun r => decide (r.1 + r.2 ≤ 256)) && noRepeat events &&
    (used.zipIdx).all (fun p => (used.zipIdx).all (fun q =>
      p.2 == q.2 || decide (p.1.1 + p.1.2 ≤ q.1.1) || decide (q.1.1 + q.1.2 ≤ p.1.1)))

/-- M11 (R444). -/
def programForm (env : FormEnv) (m : Manifest) : Bool :=
  match m.badger with
  | none => true
  | some bs =>
    badgerForm { channels := m.mailbox, policy := m.actuator, portABound := m.tenants.any (fun t => t.attach == .portA)
                 portBBound := m.tenants.any (fun t => t.attach == .portB), alertB := env.alertB } bs

/-! ### Envelope and stages -/

/-- The four elements, when they can be located (R212). -/
def locate (bs : Bytes) : Option Sign1 :=
  match cborItem (3 * bs.length + 4) bs with
  | some (c, _, _) => Sign1.of? (cborUntag bs.length c)
  | none => none

/-- The `kid` of the unprotected header, whatever stands beside it (R212). -/
def Sign1.kid? (x : Sign1) : Option Bytes := x.unprotected.bytesAt 4

/-- An uncompressed P-256 key of 65 bytes (R212). -/
def isPointBytes (k : Bytes) : Bool := decide (k.length = 65) && byteAt k 0 == 0x04

/-- The signer's key of an unprotected header that is exactly the map of label 4 (R212). -/
def Sign1.key? (x : Sign1) : Option Bytes :=
  match x.unprotected with
  | .map [(.uint 4, .bytes k)] => if isPointBytes k then some k else none
  | _ => none

/-- M1: R211, with the header and signature that R212 permits in a state. -/
def envelopeForm (life : LifeCycle) (bs : Bytes) : Bool :=
  match cborItem (3 * bs.length + 4) bs with
  | some (c, _, rest) =>
    match Sign1.of? c with
    | some x =>
      rest == [] && decide (bs.length ≤ 16348) && x.hdr == es256Header &&
        (if life = .fielded then x.key?.isSome && decide (x.signature.length = 64)
         else (x.key?.isSome || (match x.unprotected with | .map [] => true | _ => false)) &&
           (decide (x.signature.length = 0) || decide (x.signature.length = 64)))
    | none => false
  | none => false

/-- M2: R215 on the envelope and the payload, at most 6 levels. -/
def encodingForm (bs : Bytes) : Bool :=
  match cborDecode bs with
  | some (c, f) =>
    f.strict && decide (cborDepth c ≤ 6) &&
      (match Sign1.of? c with
       | some x => match cborDecode x.payload with
         | some (p, g) => g.strict && decide (cborDepth p ≤ 5)
         | none => false
       | none => false)
  | none => false

/-- The payload item of an encoded manifest. -/
def payloadOf (bs : Bytes) : Option Cbor := ((locate bs).bind (fun x => cborDecode x.payload)).map (·.1)

/-- The lowest-numbered failed check of M1–M11, 0 when all pass (R227, R228). -/
def manifestCheck (env : FormEnv) (bs : Bytes) : Nat :=
  if !envelopeForm env.life bs then 1
  else if !encodingForm bs then 2
  else match payloadOf bs with
    | none => 2
    | some c =>
      let m := manifestOf c
      if !keysForm env c then 3
      else if c.natAt 1 ≠ some 1 then 4
      else if !bindingForm env.unit m then 5
      else if !tenantsForm env c m then 6
      else if !poolForm env m then 7
      else if !orderForm m then 8
      else if !policiesForm env m then 9
      else if !mailboxForm c m then 10
      else if !programForm env m then 11
      else 0

/-- The decoded manifest of an encoding that passes. -/
def decodeManifest (bs : Bytes) : Option Manifest := (payloadOf bs).map manifestOf

/-- The manifest digest's first 16 bytes (R213). -/
def manifestPrefix (bs : Bytes) : Bytes := (sha3 bs).take 16

/-- A signature that verifies under the header's key, which hashes to the operator root where one is given (R195, R212). -/
def signatureGood (root : Option Bytes) (bs : Bytes) : Bool :=
  match locate bs with
  | none => false
  | some x => match x.kid? with
    | none => false
    | some k => isPointBytes k && es256Verify k x.hdr x.payload x.signature &&
      (match root with | some h => sha3 k == h | none => true)

/-- The encoded length that a structure states, none when its heads cannot be read (R228). -/
def statedLength (bs : Bytes) : Option Nat := (cborItem (3 * bs.length + 4) bs).map (fun r => bs.length - r.2.2.length)

/-- The bytes that the Manifest form stage charges for a stated length (R228). -/
def chargedManifest (n : Option Nat) : Nat := match n with | some k => if k ≤ 16348 then k else 16348 | none => 16348

/-- The slots of the Manifest form stage (R228). -/
def formSlots (n : Option Nat) : Nat := 2 * chargedManifest n

/-! ### Quota windows (R328) -/

/-- The order of release with each tenant's declaration. -/
def Manifest.inOrder (m : Manifest) : List TenantDecl :=
  m.order.filterMap (fun t => m.tenants.find? (fun d => d.slot == t))

/-- The order in which quota windows are taken (R328). -/
def evenFirst : List Nat := (List.range 14).map (fun i => 2 * i) ++ (List.range 14).map (fun i => 2 * i + 1)

/-- The owners of the quota windows, in the order taken: pass k gives one to every tenant whose quota exceeds k (R328). -/
def quotaTakers (ds : List TenantDecl) : List TSlot :=
  (List.range 24).flatMap (fun k => (ds.filter (fun d => decide (k < d.quota))).map (·.slot))

/-- The tenant that a tenant window serves by quota (R328). -/
def quotaOwner (ds : List TenantDecl) (k : Nat) : Option TSlot :=
  ((evenFirst.zip (quotaTakers ds)).find? (fun p => p.1 == k)).map (·.2)

end Sys2Proof.Machine
end

