-- ==== Sys2Proof/Machine/FlashOps.lean ====
section
/-!
DEFINITION. The external flash side: support and discovery (R247–R249), sector references and reads (R253–R256), the
directory (R255), programs and erases (R251, R266, R269), failures and retirement (R269, R270, R517).
-/
namespace Sys2Proof.Machine

/-! ### Chips -/

/-- The first row of R247 that a chip fails, 0 when it meets all (R249). -/
def Chip.failedRow (c : Chip) : Nat :=
  let p := c.sfdp
  if !(c.fitted && p.signature && decide (0x0106 ≤ p.revision) && decide (16 ≤ p.dwords)) then 1
  else if !(decide (2 ^ 23 ≤ p.densityBits) && decide (p.densityBits ≤ 2 ^ 29)) then 2
  else if !(p.erase4k && p.erase64k) then 3
  else if !((p.read144 || p.read114) && decide (p.readClocks ≤ 10)) then 4
  else if !decide (256 ≤ p.pageSize) then 5
  else if !(decide (p.programMaxUs ≤ 3000) && decide (p.erase4kMaxMs ≤ 400) && decide (p.erase64kMaxMs ≤ 2000)) then 6
  else if !(p.suspend && decide (p.suspendLatencyUs ≤ 64)) then 7
  else if !(p.deepPowerDown && decide (p.exitDelayUs ≤ 64)) then 8
  else if !p.busyPoll then 9
  else if !(decide (p.quadMethod ≤ 5) && (p.quadMethod == 0 || p.quadVolatile)) then 10
  else if !(decide (p.densityBits ≤ 2 ^ 27) || p.fourByte) then 11
  else 0

/-- Chip `c` as the board fits it. -/
def State.chip (s : State) (c : Fin 2) : Chip := s.flash.chips[c]

/-- A chip's content changed. -/
def State.setCells (s : State) (c : Fin 2) (m : Cells) : State :=
  { s with flash := { s.flash with chips := s.flash.chips.set c { s.chip c with cells := m } } }

/-! ### Opcodes (R248, R251) -/

/-- A sequence of opcodes sent to a chip (R251). -/
def State.order (s : State) (c : Fin 2) (ops : Bytes) : State := { s with flash := { s.flash with sent := s.flash.sent.set c ops } }

/-- A chip above 16 MB, which needs 4-byte addresses (R247). -/
def Sfdp.big (p : Sfdp) : Bool := decide (2 ^ 27 < p.densityBits)

/-- The opcode for a purpose by the form of the chip's addresses: the 4-byte one where its instruction table is used (R251). -/
def Sfdp.form (p : Sfdp) (three four : Byte) : Byte := if p.big && p.table4 then four else three

/-- The quad read: EBh when the chip offers it, 6Bh otherwise (R251). -/
def Sfdp.readOp (p : Sfdp) : Byte := if p.read144 then p.form 0xEB 0xEC else p.form 0x6B 0x6C

/-- The opcode of a program or erase (R251). -/
def Sfdp.taskOp (p : Sfdp) (k : FlashOpKind) : Byte :=
  match k with
  | .program => p.form 0x02 0x12
  | .erase4k => p.form 0x20 0x21
  | .erase64k => p.form 0xD8 0xDC

/-- The busy poll that SFDP reports (R251). -/
def Sfdp.pollOp (p : Sfdp) : Byte := if p.flagPoll then 0x70 else 0x05

/-- What discovery sends: reset, identification, SFDP; for a supported chip the volatile quad enable where its method needs one, and B7h
unless the 4-byte instruction table is used (R248). -/
def Chip.discoveryOps (c : Chip) : Bytes :=
  let p := c.sfdp
  [0x66, 0x99, 0x9F, 0x5A] ++ (if c.failedRow ≠ 0 then [] else
    (if p.quadMethod = 0 then [] else p.quadOps) ++ (if p.big && !p.table4 then [0xB7] else []))

/-- Discovery of one chip (R248, R249): its result is the first failed row given. -/
def State.discoverAs (s : State) (c : Fin 2) (row : Nat) : State :=
  let p := (s.chip c).sfdp
  let good := row == 0
  { ((s.latch Ev.discovered).order c (s.chip c).discoveryOps) with flash := { ((s.latch Ev.discovered).order c (s.chip c).discoveryOps).flash with
      found := s.flash.found.set c ⟨true, row, good && p.big && !p.table4, good && p.quadMethod != 0⟩ } }

/-- Discovery of one chip as the board fits it (R248, R249). -/
def State.discover (s : State) (c : Fin 2) : State := s.discoverAs c (s.chip c).failedRow

/-- The 4 KB sectors that a chip contributes: its capacity when discovered and supported, else 0 (R249); chip 1 only when
FSTRAP in force reads two chips. -/
def State.sectorsOf (s : State) (c : Fin 2) : Nat :=
  if s.flash.found[c].ran && s.flash.found[c].row == 0 && (c == 0 || s.boot.fstrap) then (s.chip c).sfdp.densityBits / 32768 else 0

/-- A chip that takes commands now (R267–R269). -/
def State.chipServes (s : State) (c : Fin 2) : Bool :=
  decide (0 < s.sectorsOf c) && !s.flash.dead[c] && s.flash.cutAt.isNone

/-- The chip and address of a physical sector reference (R253). -/
def refChip (r : Nat) : Fin 2 := if r < 2 ^ 23 then 0 else 1
def refAddr (r : Nat) : Nat := r % 2 ^ 14 * 4096

/-- The reference of a sector that holds an address (R253). -/
def refOf (c : Fin 2) (addr : Nat) : Nat := c.val * 2 ^ 23 + addr / 4096

/-- Bytes of a chip as it stores them; a chip that is not fitted reads erased (log 7). -/
def State.raw (s : State) (c : Fin 2) (addr n : Nat) : Bytes := (s.chip c).cells.readRange erased addr n

/-- Bytes of a sector by reference. -/
def State.sectorBytes (s : State) (ref off n : Nat) : Bytes := s.raw (refChip ref) (refAddr ref + off) n

/-- Bytes of a sector, `none` when its chip does not serve. -/
def State.fetch? (s : State) (ref off n : Nat) : Option Bytes :=
  if s.chipServes (refChip ref) then some (s.sectorBytes ref off n) else none

/-- The digest prefix of the manifest in force (R213); that of the built-in recovery manifest is open (R196, log 31). -/
def State.manifestDigest (s : State) : Bytes :=
  if s.running.manifestBytes = [] then (List.range 16).map Config.recoveryDigest else manifestPrefix s.running.manifestBytes

/-! ### Layout (R256) -/

/-- Sector `k` of the usable space after the fixed regions. -/
def State.usableRef (s : State) (k : Nat) : Nat := sectorRef (s.sectorsOf 0) k

/-- The index of the first sector of a tenant's area among the usable sectors (R256). -/
def areaStart (m : Manifest) (t : TSlot) : Nat :=
  spillSectors m.spillRecords +
    ((m.inOrder.takeWhile (fun d => d.slot != t)).map (fun d => areaSectors d.partition d.denShare)).sum

/-- The index of the first pool sector (R256). -/
def poolStart (m : Manifest) : Nat :=
  spillSectors m.spillRecords + (m.inOrder.map (fun d => areaSectors d.partition d.denShare)).sum

/-- The reference of sector `k` of image copy `copy` of a tenant (R258). -/
def State.copyRef (s : State) (m : Manifest) (d : TenantDecl) (copy k : Nat) : Nat :=
  s.usableRef (areaStart m d.slot + copy * copySectors d.denShare + k)

/-- The reference of sector `k` (0 or 1) of the pair of metadata leaf `e` of a tenant (R262); the pairs lie in the order tag
tables, maps, index leaves (R261). -/
def State.pairRef (s : State) (m : Manifest) (d : TenantDecl) (e k : Nat) : Nat :=
  s.usableRef (areaStart m d.slot + 2 * copySectors d.denShare + 2 * e + k)

/-- The pool sectors of a layout (R256). -/
def State.poolRefs (s : State) (m : Manifest) : List Nat :=
  (List.range (usableSectors (s.sectorsOf 0) (s.sectorsOf 1) - poolStart m)).map (fun k => s.usableRef (poolStart m + k))

/-- The spill sectors of a layout (R256). -/
def State.spillRefs (s : State) (m : Manifest) : List Nat :=
  (List.range (spillSectors m.spillRecords)).map s.usableRef

/-! ### Directory (R255) -/

/-- The tag of a directory copy (R255). -/
def State.directoryTag (s : State) (b : Bytes) : Bytes := s.mac .vaultIntegrity "BX4016 FLASHDIR" (b.take 0xFE0) 32

/-- A directory copy when it is valid. -/
def State.directoryCopy? (s : State) (sector : Nat) : Option Bytes :=
  let b := s.sectorBytes sector 0 4096
  if s.chipServes 0 && s.integrityKey.isSome && decide (field b 0 4 = 0x42584644) && decide (b.drop 0xFE0 = s.directoryTag b) then some b
  else none

/-- The live directory copy: sector and content (R255). -/
def State.liveDirectory? (s : State) : Option (Nat × Bytes) :=
  match s.directoryCopy? 2, s.directoryCopy? 3 with
  | some a, some b => if field a 4 4 < field b 4 4 then some (3, b) else some (2, a)
  | some a, none => some (2, a)
  | none, some b => some (3, b)
  | none, none => none

/-- The retired references of a directory copy (R255). -/
def directoryRetired (b : Bytes) : List Nat := (List.range (min 1000 (field b 14 2))).map (fun i => field b (0x31 + 4 * i) 3)

/-- The JEDEC ID and the SFDP digest of a chip as a directory holds them (R255). -/
def State.jedecOf (s : State) (c : Fin 2) : Bytes :=
  if s.flash.found[c].ran && (s.chip c).fitted then fit 3 0xFF (s.chip c).jedec else [0xFF, 0xFF, 0xFF]
def State.sfdpDigest (s : State) (c : Fin 2) : Bytes :=
  if s.flash.found[c].ran && (s.chip c).fitted then (sha3 (s.chip c).sfdp.tables).take 16 else zeros 16

/-- A directory copy with a sequence (R255). -/
def State.directoryImage (s : State) (seq : Nat) : Bytes :=
  let r := s.flash.retired.take 1000
  let body := be 4 0x42584644 ++ be 4 seq ++ s.jedecOf 0 ++ s.jedecOf 1 ++ be 2 r.length ++ s.sfdpDigest 0 ++ s.sfdpDigest 1 ++
    fit 4000 0 ((r.map (fun x => be 4 x)).flatten) ++ zeros 16
  body ++ s.directoryTag body

/-! ### Programs and erases -/

/-- Whether any chip has an operation in progress. -/
def State.flashBusy (s : State) : Bool := s.flash.op[(0 : Fin 2)].isSome || s.flash.op[(1 : Fin 2)].isSome

/-- A program or erase started: write enable, then its opcode (R122, R251, R266). -/
def State.startTask (s : State) (owner : OpOwner) (t : FlashTask) : State :=
  let s := s.order t.chip [0x06, (s.chip t.chip).sfdp.taskOp t.kind]
  { s with flash := { s.flash with op := s.flash.op.set t.chip (some ⟨t, owner, false⟩) } }

/-- The fetch of a leaf from a chip: an operation still running there is suspended before it and resumed after it (R251, R266). -/
def State.fetchOrder (s : State) (c : Fin 2) : State :=
  let p := (s.chip c).sfdp
  match s.flash.op[c] with
  | some o =>
    if o.suspended then s.order c [p.readOp]
    else (s.order c [p.suspendOps.1, p.readOp, p.suspendOps.2]).latch (Ev.suspendDone c.val)
  | none => s.order c [p.readOp]

/-- The operation on a chip ended. -/
def State.endOp (s : State) (c : Fin 2) : State := { s with flash := { s.flash with op := s.flash.op.set c none } }

/-- The bytes that an operation changes: address and length (R251). -/
def FlashTask.span (t : FlashTask) : Nat × Nat :=
  match t.kind with
  | .program => (t.addr, t.data.length)
  | .erase4k => (t.addr / 4096 * 4096, 4096)
  | .erase64k => (t.addr / 65536 * 65536, 65536)

/-- The chip after an operation that ended without an error: a sector in which the chip ignores it keeps its content (R252). -/
def State.applyTask (s : State) (t : FlashTask) : State :=
  let c := s.chip t.chip
  match t.kind with
  | .program => if c.ignores.contains (t.addr / 4096) then s else s.setCells t.chip (c.cells.program t.addr t.data)
  | .erase4k =>
    let s := if c.ignores.contains (t.addr / 4096) then s else s.setCells t.chip (c.cells.clearRange t.span.1 4096)
    { s with flash := { s.flash with erasedHere := refOf t.chip t.addr :: s.flash.erasedHere } }
  | .erase64k =>
    let sectors := ((List.range 16).map (fun i => t.span.1 / 4096 + i)).filter (fun k => !c.ignores.contains k)
    s.setCells t.chip (sectors.foldl (fun m k => m.clearRange (4096 * k) 4096) c.cells)

/-- The chip after an operation that failed or was abandoned: its bytes are free (R124, log 2). -/
def State.spoilTask (s : State) (t : FlashTask) : State :=
  let (bs, s) := s.freeBytes t.span.2
  s.setCells t.chip ((s.chip t.chip).cells.writeRange erased t.span.1 bs)

/-- A page program task. -/
def pageTask (c : Fin 2) (addr : Nat) (data : Bytes) : FlashTask := ⟨.program, c, addr, data⟩

/-- The page programs of bytes at an address on a page boundary. -/
def pageTasks (c : Fin 2) (addr : Nat) (data : Bytes) : List FlashTask :=
  ((pieces 256 data).zipIdx).map (fun p => pageTask c (addr + 256 * p.2) p.1)

/-- A 4 KB erase task of a sector. -/
def eraseTask (ref : Nat) : FlashTask := ⟨.erase4k, refChip ref, refAddr ref, []⟩

/-- The values of R513 for the operation field of FLASH_FAULT. -/
def FlashOpKind.code : FlashOpKind → Byte
  | .program => 0x01
  | .erase4k => 0x02
  | .erase64k => 0x03

/-- FLASH_FAULT recorded (R269, R468). -/
def State.flashFault (s : State) (ref : Nat) (cause op : Byte) (retired : Bool) : State :=
  s.record Code.flashFault 0xFF (be 3 ref ++ [cause, op, if retired then 1 else 0] ++ be 2 (sat16 s.flash.retired.length))

/-- A pool or spill sector retired (R270). -/
def State.retire (s : State) (ref : Nat) : State :=
  let full := decide (1000 ≤ s.flash.retired.length)
  let s := s.latchIf full Ev.directoryFull
  let s := { s with flash := { s.flash with
      retired := if s.flash.retired.contains ref then s.flash.retired else s.flash.retired ++ [ref]
      free := s.flash.free.filter (fun r => !(r == ref)), eraseQueue := s.flash.eraseQueue.filter (fun r => !(r == ref))
      directoryDue := s.flash.directoryDue || !full } }
  s.latchIf (s.flash.free.isEmpty && s.flash.eraseQueue.isEmpty) Ev.poolEmpty

/-- A sector queued for erase, unless it is retired (R262, R264, R270). -/
def State.queueErase (s : State) (ref : Nat) : State :=
  if ref = 0xFFFFFF ∨ s.flash.eraseQueue.contains ref ∨ s.flash.retired.contains ref then s
  else { s with flash := { s.flash with eraseQueue := s.flash.eraseQueue ++ [ref] } }

/-- The commit monitor trips (R122, R123): erases in progress are suspended, programs run to their end. -/
def State.commitTrip (s : State) : State :=
  let hold := fun (o : Option FlashOp) =>
    match o with
    | some x => match x.task.kind with
      | .program => some { x with suspended := false }
      | _ => some { x with suspended := true }
    | none => none
  let erasing := [s.flash.op[(0 : Fin 2)], s.flash.op[(1 : Fin 2)]].any (fun o => match o with
    | some x => x.task.kind != .program
    | none => false)
  let stop := fun (st : State) (c : Fin 2) => match s.flash.op[c] with
    | some x => if x.task.kind != .program && !x.suspended then st.order c [(s.chip c).sfdp.suspendOps.1] else st
    | none => st
  let s := { stop (stop s 0) 1 with power := { s.power with commitLow := true }
                                    flash := { (stop (stop s 0) 1).flash with op := s.flash.op.map hold } }
  s.latchIf erasing Ev.eraseHeld

end Sys2Proof.Machine
end

