-- ==== Sys2Proof/Machine/LaneOps.lean ====
section
/-!
DEFINITION. The leaf cache and what fills it: shares (R301–R305), metadata leaves and their checks (R258–R263, R307), fetch
chains (R307–R312), staging into the Den (R295–R298), ticket windows (R328–R332), Cipher intervals (R294).
-/
namespace Sys2Proof.Machine

/-! ### Leaves and their checks -/

/-- Entry `i` of a map leaf: sector reference and write serial (R259). -/
def mapEntry (leaf : Bytes) (i : Nat) : Nat × Nat := (field leaf (8 * i) 3, field leaf (8 * i + 3) 5)

/-- The reference of an unwritten sector (R259). -/
def unwritten : Nat := 0xFFFFFF

/-- Entry `i` of a tag-table leaf (R258, R259). -/
def tagEntry (leaf : Bytes) (i : Nat) : Bytes := slice leaf (16 * i) 16

/-- Entry `i` of an index leaf: a 15-byte tag and a slot (R261). -/
def indexEntry (leaf : Bytes) (i : Nat) : Bytes × Nat := (slice leaf (16 * i) 15, (byteAt leaf (16 * i + 15)).toNat)

/-- The kind byte of a metadata tag (R261). -/
def LeafKind.metaCode (k : LeafKind) : Byte := if k = .tagTable then 1 else 2

/-- The 15-byte tag of a tag-table or map leaf (R261). -/
def State.metaTag (s : State) (t : TSlot) (k : LeafKind) (no : Nat) (leaf : Bytes) : Bytes :=
  (s.mac (.dataLeaf t) "BX4016 META" (slotByte t :: k.metaCode :: be 2 no ++ leaf) 32).take 15

/-- The nonce and additional data of a data leaf (R259). -/
def dataNonce (leaf serial : Nat) : Bytes := be 4 leaf ++ be 5 serial ++ zeros 3
def dataAad (t : TSlot) (leaf : Nat) : Bytes := slotByte t :: 0x02 :: be 4 leaf

/-- A data leaf opened; none when its tag does not match or the key slot is empty (R259, R392). -/
def State.openData (s : State) (t : TSlot) (leaf serial : Nat) (cipher tag : Bytes) : Option Bytes :=
  match s.key? (.dataLeaf t) with
  | some k => gcmOpen k (dataNonce leaf serial) (dataAad t leaf) cipher tag
  | none => none

/-- A data leaf sealed; zero bytes under an empty key slot (R392). -/
def State.sealData (s : State) (t : TSlot) (leaf serial : Nat) (plain : Bytes) : Bytes × Bytes :=
  match s.key? (.dataLeaf t) with
  | some k => gcmSeal k (dataNonce leaf serial) (dataAad t leaf) plain
  | none => (zeros plain.length, zeros 16)

/-- An image leaf opened under the image leaf key of a generation (R258). -/
def State.openImage (s : State) (t : TSlot) (generation leaf : Nat) (digest cipher tag : Bytes) : Option Bytes :=
  match s.key? (.imageLeaf t generation) with
  | some k => gcmOpen k (be 4 leaf ++ digest.take 8) (slotByte t :: 0x01 :: be 4 leaf) cipher tag
  | none => none

/-- An image leaf sealed (R258). -/
def State.sealImage (s : State) (t : TSlot) (generation leaf : Nat) (digest plain : Bytes) : Bytes × Bytes :=
  match s.key? (.imageLeaf t generation) with
  | some k => gcmSeal k (be 4 leaf ++ digest.take 8) (slotByte t :: 0x01 :: be 4 leaf) plain
  | none => (zeros plain.length, zeros 16)

/-- The image tag root of a generation over its tag-table leaves (R258). -/
def State.imageRoot (s : State) (t : TSlot) (generation : Nat) (tables : List Bytes) : Bytes :=
  s.mac (.imageLeaf t generation) "BX4016 IMAGE ROOT" (slotByte t :: be 2 generation ++ tables.flatten) 32

/-- Whether tag-table leaves give an image tag root; an empty key slot matches none (R258, R392). -/
def State.imageRootGood (s : State) (t : TSlot) (generation : Nat) (tables : List Bytes) (root : Bytes) : Bool :=
  (s.key? (.imageLeaf t generation)).isSome && s.imageRoot t generation tables == root

/-- The physical sector and offset of slot `n` of a metadata pair (R262). -/
def State.metaPlace (s : State) (m : Manifest) (d : TenantDecl) (e n : Nat) : Nat × Nat := (s.pairRef m d e (n / 4), n % 4 * 1024)

/-- A leaf of the share by kind and number, valid in the published validity. -/
def Tenant.cached? (t : Tenant) (k : LeafKind) (no : Nat) : Option CacheLeaf :=
  t.cache.find? (fun l => l.valid && l.kind == k && l.no == no)

/-- A leaf that the engines hold: waiting for its publication, or published and not superseded by a commit (R313). -/
def Tenant.have? (t : Tenant) (k : LeafKind) (no : Nat) : Option Bytes :=
  match t.inserts.find? (fun l => l.kind == k && l.no == no) with
  | some l => some l.content
  | none => if t.drops.contains (k, no) then none else (t.cached? k no).map (·.content)

/-- Whether a metadata leaf's content carries the tag its index entry names, or an index leaf's digest is the one kept (R261,
R305); an empty key slot matches no tag (R392). -/
def State.metaGood (s : State) (t : TSlot) (d : TenantDecl) (k : LeafKind) (no : Nat) (index content : Bytes) : Bool :=
  match k with
  | .index => (s.tenant t).indexDigests[no]? == some ((sha3 content).take 16)
  | _ => (s.key? (.dataLeaf t)).isSome && (indexEntry index (d.metaNo k no % 64)).1 == s.metaTag t k no content

/-- Where an index leaf lies by the live tag-root record, none without one (R263, R309). -/
def State.indexPlace? (s : State) (m : Manifest) (t : TSlot) (d : TenantDecl) (x : Nat) : Option (Nat × Nat) :=
  match s.liveRoot? t with
  | some (_, b) => if rootSlot b x < 8 then some (s.metaPlace m d (d.metaNo .index x) (rootSlot b x)) else none
  | none => none

/-- The descriptor of a data leaf (R305). -/
def Tenant.descriptor? (t : Tenant) (leaf : Nat) : Option Descriptor := t.descriptors.find? (fun x => x.leaf == leaf)

/-- The next leaf that a chain to a data leaf fetches (R307); none when nothing is left to fetch. -/
def chainNeed (t : Tenant) (d : TenantDecl) (leaf : Nat) : Option (LeafKind × Nat) :=
  let sector := leaf / 4
  let viaIndex := fun (k : LeafKind) (no : Nat) =>
    if (t.have? .index (d.metaNo k no / 64)).isSome then (k, no) else (LeafKind.index, d.metaNo k no / 64)
  if (t.have? .data leaf).isSome then none
  else if (t.descriptor? leaf).isSome then some (.data, leaf)
  else match t.have? .map (mapLeafOf sector) with
    | none => some (viaIndex .map (mapLeafOf sector))
    | some mp =>
      if (mapEntry mp (sector % 128)).1 = unwritten then none
      else match t.have? .tagTable (tagLeafOf sector) with
        | none => some (viaIndex .tagTable (tagLeafOf sector))
        | some _ => some (.data, leaf)

/-- Where a leaf of a chain lies, with the write serial and tag of a data leaf; none when nothing tells its place. -/
def State.leafPlace? (s : State) (m : Manifest) (t : TSlot) (d : TenantDecl) (k : LeafKind) (no : Nat) :
    Option (Nat × Nat × Nat × Bytes) :=
  let x := s.tenant t
  match k with
  | .index => (s.indexPlace? m t d no).map (fun p => (p.1, p.2, 0, []))
  | .data =>
    match x.descriptor? no with
    | some e => some (e.sector, no % 4 * 1024, e.serial, e.tag)
    | none =>
      match x.have? .map (mapLeafOf (no / 4)), x.have? .tagTable (tagLeafOf (no / 4)) with
      | some mp, some tt =>
        let e := mapEntry mp (no / 4 % 128)
        some (e.1, no % 4 * 1024, e.2, tagEntry tt (no % 64))
      | _, _ => none
  | _ =>
    match x.have? .index (d.metaNo k no / 64) with
    | some ix =>
      let n := (indexEntry ix (d.metaNo k no % 64)).2
      if n < 8 then let p := s.metaPlace m d (d.metaNo k no) n; some (p.1, p.2, 0, []) else none
    | none => none

/-! ### Verified reads by the device itself (R413, R265) -/

/-- An index leaf read from flash and checked (R305). -/
def State.indexLeaf? (s : State) (m : Manifest) (t : TSlot) (d : TenantDecl) (x : Nat) : Option Bytes :=
  (s.indexPlace? m t d x).bind (fun p => (s.fetch? p.1 p.2 1024).bind (fun c =>
    if s.metaGood t d .index x [] c then some c else none))

/-- A tag-table or map leaf read from flash and checked through its index leaf (R261, R307). -/
def State.metaLeaf? (s : State) (m : Manifest) (t : TSlot) (d : TenantDecl) (k : LeafKind) (no : Nat) : Option Bytes :=
  (s.indexLeaf? m t d (d.metaNo k no / 64)).bind (fun ix =>
    let n := (indexEntry ix (d.metaNo k no % 64)).2
    if n < 8 then
      let p := s.metaPlace m d (d.metaNo k no) n
      (s.fetch? p.1 p.2 1024).bind (fun c => if s.metaGood t d k no ix c then some c else none)
    else none)

/-- A data-region leaf read from flash and checked through the whole chain; an unwritten sector reads 0xFF (R259, R306). -/
def State.dataLeaf? (s : State) (m : Manifest) (t : TSlot) (d : TenantDecl) (leaf : Nat) : Option Bytes :=
  let sector := leaf / 4
  (s.metaLeaf? m t d .map (mapLeafOf sector)).bind (fun mp =>
    let e := mapEntry mp (sector % 128)
    if e.1 = unwritten then some (List.replicate 1024 0xFF)
    else (s.metaLeaf? m t d .tagTable (tagLeafOf sector)).bind (fun tt =>
      (s.fetch? e.1 (leaf % 4 * 1024) 1024).bind (fun c => s.openData t leaf e.2 c (tagEntry tt (leaf % 64)))))

/-- `n` bytes of a tenant's data region from a virtual address, 0x5A for every byte of a leaf that fails (R306, R413). -/
def State.checkedRead (s : State) (t : TSlot) (d : TenantDecl) (a n : Nat) : Bytes :=
  match s.running.manifest with
  | none => List.replicate n 0x5A
  | some m =>
    let first := d.dataLeaf a
    let leaves := (List.range ((d.dataLeaf (a + n - 1)) + 1 - first)).map (fun i =>
      (s.dataLeaf? m t d (first + i)).getD (List.replicate 1024 0x5A))
    slice leaves.flatten (a - d.leafAddr first) n

/-- Where a metadata leaf's own chain and the leaf itself lie: its index leaf, then the leaf when the index leaf names a slot. -/
def State.metaRefs (s : State) (m : Manifest) (t : TSlot) (d : TenantDecl) (k : LeafKind) (no : Nat) : List Nat :=
  let e := d.metaNo k no
  let own := match s.indexLeaf? m t d (e / 64) with
    | some ix => if (indexEntry ix (e % 64)).2 < 8 then [(s.metaPlace m d e (indexEntry ix (e % 64)).2).1] else []
    | none => []
  (s.indexPlace? m t d (e / 64)).toList.map (·.1) ++ own

/-- The sectors that a checked read of a data leaf touches: its metadata leaves and its own sector (R306). -/
def State.leafRefs (s : State) (m : Manifest) (t : TSlot) (d : TenantDecl) (leaf : Nat) : List Nat :=
  let own := match s.metaLeaf? m t d .map (mapLeafOf (leaf / 4)) with
    | some mp => [(mapEntry mp (leaf / 4 % 128)).1].filter (fun r => r != unwritten)
    | none => []
  s.metaRefs m t d .map (mapLeafOf (leaf / 4)) ++ s.metaRefs m t d .tagTable (tagLeafOf (leaf / 4)) ++ own

/-! ### Inserts and publication (R303, R304) -/

/-- A leaf put into the share, to become valid at the next publication (R303). -/
def Tenant.insert (t : Tenant) (k : LeafKind) (no : Nat) (content : Bytes) : Tenant :=
  { t with inserts := t.inserts.filter (fun l => !(l.kind == k && l.no == no)) ++ [CacheLeaf.mk k no content true] }

/-- Whether a leaf is held by a pending chain (R307). -/
def Tenant.heldLeaf (t : Tenant) (l : CacheLeaf) : Bool := t.chains.any (fun c => c.held.contains (l.kind, l.no))

/-- The victim: the first leaf from the pointer on that is neither the spare nor held (R303). -/
def Tenant.victim (t : Tenant) : Nat :=
  let order := (List.range t.cacheSize).map (fun i => (t.cachePtr + i) % t.cacheSize)
  let free := fun i => i != t.spare && (match t.cache[i]? with | some l => !(l.valid && t.heldLeaf l) | none => true)
  match order.find? free with
  | some i => i
  | none => (t.spare + 1) % t.cacheSize

/-- The data leaf whose descriptor ends when the spare is reused: the one the spare held last, unless another leaf of the share holds it
or it is written again (R305). -/
def Tenant.reused (t : Tenant) (l : CacheLeaf) : List Nat :=
  match t.cache[t.spare]? with
  | some o =>
    if o.kind == LeafKind.data && !o.content.isEmpty && !(l.kind == LeafKind.data && l.no == o.no) && (t.cached? .data o.no).isNone then [o.no]
    else []
  | none => []

/-- One leaf published: it becomes valid in the spare, the victim becomes invalid and the next spare (R303); the descriptor of the data
leaf that the spare held ends (R305). -/
def Tenant.publishLeaf (t : Tenant) (l : CacheLeaf) : Tenant :=
  if t.cacheSize = 0 then t
  else
    let v := t.victim
    let dropped := t.reused l
    let cache := t.cache.map (fun o => if o.kind == l.kind && o.no == l.no then { o with valid := false } else o)
    let cache := cache.set t.spare { l with valid := true }
    let cache := cache.modify v (fun o => { o with valid := false })
    { t with cache := cache, spare := v, cachePtr := (v + 1) % t.cacheSize
             descriptors := t.descriptors.filter (fun x => !(dropped.contains x.leaf)) }

/-- Leaves made invalid at a publication (R313). -/
def Tenant.applyDrops (t : Tenant) : Tenant :=
  { t with cache := t.cache.map (fun l => if t.drops.contains (l.kind, l.no) then { l with valid := false } else l), drops := [] }

/-- The validity publication of a share (R303, R304, R313). -/
def Tenant.publishCache (t : Tenant) : Tenant :=
  let u := t.applyDrops
  { u.inserts.foldl Tenant.publishLeaf u with inserts := [], awaited := [] }

/-- MISS and DEFER clear when nothing is pending that they stand for (R280, R304, R335). -/
def Tenant.liveBits (t : Tenant) : Tenant :=
  { t with miss := t.miss && !(t.chains.isEmpty && t.awaited.isEmpty && t.flightMiss.isEmpty)
           defer := t.defer && (t.chains.any (·.deferred) || (match t.write with | some w => w.deferred | none => false) ||
             t.writes.any (·.deferred)) }

/-- The most chains that a tenant has pending (R308). -/
def Tenant.chainLimit (t : Tenant) : Nat := min 4 ((t.cacheSize - 2) / 2)

/-! ### Windows (R328–R332) -/

/-- The tenants of the manifest in `boot order`. -/
def State.inOrder (s : State) : List TenantDecl := match s.running.manifest with | some m => m.inOrder | none => []

/-- The pool windows in order (R329). -/
def poolWindows (ds : List TenantDecl) : List Nat := (List.range 28).filter (fun k => (quotaOwner ds k).isNone)

/-- The tenant that owns a tenant window in a lap (R328, R329). -/
def windowOwner (ds : List TenantDecl) (lap k : Nat) : Option TSlot :=
  match quotaOwner ds k with
  | some t => some t
  | none =>
    let ps := poolWindows ds
    match ps.findIdx? (fun x => x == k) with
    | some j => (ds[(lap * ps.length + j) % ds.length]?).map (·.slot)
    | none => none

/-- The start slot and class of window `w`, in the order of start slot (R42). -/
def State.window? (s : State) (w : Fin 30) : Option (Nat × Nat) :=
  match s.running.schedule with
  | some sc => (sc.windows.mergeSort (fun a b => decide (a.1 ≤ b.1)))[w.val]?
  | none => none

/-- The number of window `w` among the tenant windows (R328). -/
def State.tenantWindow (s : State) (w : Fin 30) : Nat :=
  match s.running.schedule with
  | some sc => (((sc.windows.mergeSort (fun a b => decide (a.1 ≤ b.1))).take w.val).filter (fun p => p.2 == 3)).length
  | none => 0

/-- The Cipher lane whose interval starts with a window (A8): lane 1 when resource 0x3 does, else lane 0. -/
def State.cipherLane (s : State) (start : Nat) : Fin 2 :=
  match s.running.schedule with
  | some sc => if sc.occupancy.any (fun e => e.resource == 3 && e.start % lapSlots == start && e.activity != 0) then 1 else 0
  | none => 0

/-! ### Staging (R232, R233, R295) -/

/-- Tag-table leaves of an image copy and the leaves that staging takes (R233, R258). -/
def stagingTables (share : Nat) : Nat := ceilDiv share 16
def stagingLeaves (share : Nat) : Nat := if share = 0 then 0 else 4 * share + stagingTables share

/-- The reference and offset of staging leaf `i` in an image copy (R258, R295): tag tables first. -/
def State.stagingAt (s : State) (m : Manifest) (d : TenantDecl) (generation i : Nat) : Nat × Nat :=
  let n := stagingTables d.denShare
  if i < n then (s.copyRef m d (generation % 2) (d.denShare + i / 4), i % 4 * 1024)
  else (s.copyRef m d (generation % 2) ((i - n) / 4), (i - n) % 4 * 1024)

/-- The bytes fetched for a staging leaf; a chip that does not serve gives none, and the leaf then fails (R204, log 17). -/
def State.stagingFetch (s : State) (m : Manifest) (d : TenantDecl) (generation i : Nat) : Bytes :=
  let p := s.stagingAt m d generation i
  (s.fetch? p.1 p.2 1024).getD []

/-- A staging leaf at the end of its Cipher interval (R294–R297): a tag table is held, an image leaf goes to the Den as plaintext
or as 0x5A bytes, with its validity bit. -/
def State.stageLeaf (s : State) (t : TSlot) (d : TenantDecl) (i : Nat) (content : Bytes) : State :=
  let x := s.tenant t
  match x.staging with
  | none => s
  | some g =>
    let n := stagingTables d.denShare
    if i < n then
      s.setTenant t { x with staging := some { g with tagTables := g.tagTables ++ [fit 1024 0xFF content], verified := g.verified + 1 } }
    else
      let leaf := i - n
      let tag := tagEntry (g.tagTables.getD (leaf / 64) []) (leaf % 64)
      let plain := s.openImage t g.generation leaf (entryDigest s.ledger t) content tag
      let ok := plain.isSome && decide (content.length = 1024)
      let bytes := if ok then plain.getD [] else List.replicate 1024 0x5A
      let s := s.denWrite (4096 * x.denBase + 1024 * leaf) bytes
      s.setTenant t { x with denStaged := x.denStaged.set leaf ok
                             staging := some { g with verified := g.verified + 1, failed := g.failed || !ok } }

/-- The leaves of a staging that have not ended by now, fetched and verified in order (R204). -/
def State.stageRest (s : State) (t : TSlot) (d : TenantDecl) (m : Manifest) : Nat → State
  | 0 => s
  | fuel + 1 =>
    match (s.tenant t).staging with
    | none => s
    | some g =>
      if g.verified < stagingLeaves d.denShare then
        (s.stageLeaf t d g.verified (s.stagingFetch m d g.generation g.verified)).stageRest t d m fuel
      else s

/-! ### Ticket windows and Cipher intervals -/

/-- A chain changed by a function. -/
def Tenant.modChain (t : Tenant) (leaf : Nat) (f : Chain → Chain) : Tenant :=
  { t with chains := t.chains.map (fun c => if c.leaf = leaf then f c else c) }

/-- A chain ended: its held leaves are released (R307, R310). -/
def Tenant.endChain (t : Tenant) (leaf : Nat) : Tenant := { t with chains := t.chains.filter (fun c => !(c.leaf == leaf)) }

/-- A frame of refusal to a link tenant (R337, R351). -/
def State.sendRefuse (s : State) (dest : Dest) (request kind : Nat) (reason : Byte) (addr retry : Nat) (sealed : Bool) : State :=
  s.send (outFrame dest Code.fRefuse (BitVec.ofNat 8 request) sealed ([reason, BitVec.ofNat 8 kind] ++ be 3 addr ++ be 2 retry))

/-- Whether a pending READ touches the leaf of an address. -/
def LinkRequest.touches (r : LinkRequest) (kind addr : Nat) : Bool :=
  kind == Code.fRead && r.outcome.isNone && r.kind == kind && decide (r.addr / 1024 ≤ addr / 1024) && decide (addr / 1024 ≤ (r.addr + r.count - 1) / 1024)

/-- A request of a tenant answered with an outcome, kept for its repeats (R337). -/
def Tenant.answer (x : Tenant) (r : LinkRequest) (outcome : Byte) : Tenant :=
  { x with linkReq := x.linkReq.map (fun q => if q = r then { q with outcome := some outcome } else q) }

/-- A pending request of a link tenant answered: REFUSE is sent unprompted, a write's ACK at its moment (R320, R337, R361). -/
def State.answerLink (s : State) (t : TSlot) (d : TenantDecl) (r : LinkRequest) (outcome : Byte) : State :=
  let s := s.modTenant t (fun x => x.answer r outcome)
  if outcome ≠ 0 then s.sendRefuse (.peer d.peer) r.request.toNat r.kind outcome r.addr 0 true
  else if r.kind = Code.fWrite then s.send (outFrame (.peer d.peer) Code.fAck r.request true [(s.tenant t).flagByte false])
  else s

/-- The READs of a link tenant that wait and touch the leaf of an address get their outcome (R337, R340). -/
def State.endReads (s : State) (t : TSlot) (kind addr : Nat) (outcome : Byte) : State :=
  match s.decl? t with
  | some d => ((s.tenant t).linkReq.filter (fun r => r.touches kind addr)).foldl (fun st r => st.answerLink t d r outcome) s
  | none => s

/-- A chain refused (R333, R336): REFUSE with the address that missed. -/
def State.refuseChain (s : State) (t : TSlot) (c : Chain) (reason : Byte) : State :=
  s.modTenant t (fun x => { (x.endChain c.leaf) with outcomes := x.outcomes ++ [TOutcome.refused reason c.opcode c.addr] })

/-- LEAF_FAIL, at most one per tenant in any 1,024 laps (R311, R468). -/
def State.leafFail (s : State) (t : TSlot) (leaf sector : Nat) (link : Byte) : State :=
  s.recordLimited Code.leafFail (slotByte t) (fun n => be 4 leaf ++ be 3 sector ++ [link] ++ be 2 n)

/-- The link of a chain for LEAF_FAIL (R513). -/
def LeafKind.link : LeafKind → Byte
  | .map => 1
  | .tagTable => 2
  | .index => 3
  | .window => 4
  | _ => 0

/-- A fetch of a chain that failed its check (R310, R311). -/
def State.chainFailed (s : State) (t : TSlot) (d : TenantDecl) (leaf : Nat) (k : LeafKind) (sector : Nat) : State :=
  let s := s.modTenant t (fun x =>
    let y := (x.endChain leaf).insert .failed leaf []
    { y with outcomes := y.outcomes ++ [TOutcome.tampered (d.leafAddr leaf)], awaited := y.awaited ++ [(.failed, leaf)] })
  s.leafFail t (4 * d.denShare + leaf) sector k.link

/-- The leaves held against replacement for a chain to a data leaf: its map and tag-table leaves, and the index leaf of the metadata leaf
it needs next (R307). -/
def Tenant.heldFor (x : Tenant) (d : TenantDecl) (leaf : Nat) : List (LeafKind × Nat) :=
  let vouches := match chainNeed x d leaf with
    | some (.map, no) => [(LeafKind.index, d.metaNo .map no / 64)]
    | some (.tagTable, no) => [(LeafKind.index, d.metaNo .tagTable no / 64)]
    | _ => []
  ([(LeafKind.map, mapLeafOf (leaf / 4)), (LeafKind.tagTable, tagLeafOf (leaf / 4))] ++ vouches).filter (fun k => (x.have? k.1 k.2).isSome)

/-- The chains after a leaf has been inserted: those with nothing left to fetch end, the others hold what they need (R307). -/
def Tenant.settleChains (x : Tenant) (d : TenantDecl) (by_ : LeafKind × Nat) : Tenant :=
  let done := x.chains.any (fun c => (chainNeed x d c.leaf).isNone)
  { x with awaited := if done then x.awaited ++ [by_] else x.awaited
           chains := (x.chains.filter (fun c => (chainNeed x d c.leaf).isSome)).map (fun c => { c with held := x.heldFor d c.leaf }) }

/-- A fetch of a chain that passed: the leaf is inserted, and every chain that it completes ends: with its data leaf, or with the map
leaf of an unwritten sector (R307). -/
def State.chainPassed (s : State) (t : TSlot) (d : TenantDecl) (j : LaneJob) (plain : Bytes) : State :=
  s.modTenant t (fun x =>
    let x := x.insert j.kind j.no plain
    let x := if j.kind = .data then
        { x with descriptors := x.descriptors.filter (fun e => !(e.leaf == j.no)) ++ [Descriptor.mk j.no j.sector j.serial j.tag] }
      else x
    x.settleChains d (j.kind, j.no))

/-- Whether a fetched leaf passes its check: its plaintext, or none (R294, R307). -/
def State.verifyJob (s : State) (t : TSlot) (d : TenantDecl) (j : LaneJob) : Option Bytes :=
  match j.kind with
  | .data => s.openData t j.no j.serial j.content j.tag
  | .index => if s.metaGood t d .index j.no [] j.content then some j.content else none
  | k => match (s.tenant t).have? .index (d.metaNo k j.no / 64) with
    | some ix => if s.metaGood t d k j.no ix j.content then some j.content else none
    | none => none

/-- A Cipher lane set or freed. -/
def State.setLane (s : State) (l : Fin 2) (j : Option LaneJob) : State := { s with lanes := s.lanes.set l j }

/-- Slots of a Cipher interval (A8). -/
def cipherSlots : Nat := 4096

/-- A fetch of a ticket window put on a Cipher lane (R251, R266, R294). -/
def State.takeLane (s : State) (l : Fin 2) (j : LaneJob) : State :=
  (if j.content.isEmpty then s else s.fetchOrder (refChip j.sector)).setLane l (some { j with until_ := s.now + cipherSlots })

/-- The next fetch of a tenant's chains: the oldest chain that has one (R332). -/
def Tenant.nextChain? (t : Tenant) (d : TenantDecl) : Option (Chain × LeafKind × Nat) :=
  (t.chains.filter (fun c => !c.busy)).findSome? (fun c => (chainNeed t d c.leaf).map (fun n => (c, n.1, n.2)))

/-- Whether a window of a chip stays idle: a page program runs there in the commit-low state (R266, R336), or its exit delay from deep
power-down has not passed (R267). -/
def State.programHolds (s : State) (c : Fin 2) : Bool :=
  (s.power.commitLow && (match s.flash.op[c] with | some o => o.task.kind == .program | none => false)) || decide (s.now < s.flash.readyAt[c])

/-- The fetch of a ticket window: none while its chip does not serve or a program holds it (R266, R336). -/
def State.windowFetch? (s : State) (ref off : Nat) : Option Bytes :=
  if s.programHolds (refChip ref) then none else s.fetch? ref off 1024

/-- Whether the next fetch of a chain needs a chip that has failed (R269, R336). -/
def State.needsDead (s : State) (m : Manifest) (t : TSlot) (d : TenantDecl) (c : Chain) : Bool :=
  match (chainNeed (s.tenant t) d c.leaf).bind (fun n => s.leafPlace? m t d n.1 n.2) with
  | some (ref, _) => s.flash.dead[refChip ref]
  | none => false

/-- Chains whose next fetch needs a failed chip refused at once (R336). -/
def State.refuseDead (s : State) (m : Manifest) (t : TSlot) (d : TenantDecl) : State :=
  ((s.tenant t).chains.filter (fun c => !c.busy && s.needsDead m t d c)).foldl (fun st c => st.refuseChain t c Code.flashFailed) s

/-- The same for every tenant, when a chip fails (R336). -/
def State.refuseAllDead (s : State) : State :=
  match s.running.manifest with
  | some m => m.tenants.foldl (fun st d => st.refuseDead m d.slot d) s
  | none => s

/-- A window that serves a chain of its owner (R332, R333, R336): a data leaf whose window starts within the deferral limit is served. -/
def State.serveChain (s : State) (m : Manifest) (t : TSlot) (d : TenantDecl) (lane : Fin 2) : State :=
  let s := s.refuseDead m t d
  match (s.tenant t).nextChain? d with
  | none => s
  | some (c, k, no) =>
    let inTime := k == .data && decide (s.clock.boundaries ≤ c.lap + d.deferral)
    let mark := fun (st : State) => st.modTenant t (fun x => x.modChain c.leaf (fun y => { y with busy := true, served := inTime }))
    match s.leafPlace? m t d k no with
    | none => mark (s.takeLane lane ⟨.chain t c.leaf, k, no, unwritten, [], [], 0, 0⟩)
    | some (ref, off, serial, tag) =>
      match s.windowFetch? ref off with
      | none => s
      | some bytes => mark (s.takeLane lane ⟨.chain t c.leaf, k, no, ref, bytes, tag, serial, 0⟩)

end Sys2Proof.Machine
end

