-- ==== Sys2Proof/Machine/CommitOps.lean ====
section
/-!
DEFINITION. Writes of tenants: posted marks (R324), acceptance (R314), the bounce buffer (R315, R316), copy-on-write commits
step by step (R260, R262, R264, R317, R318), their failures (R269, R321, R322, R517).
-/
namespace Sys2Proof.Machine

/-! ### Posted marks (R324) -/

/-- The vault offset of a tenant's posted mark. -/
def markAt (t : TSlot) : Nat := 0x14E00 + 32 * t.val

/-- Whether a posted mark reads open. -/
def State.markOpen (s : State) (t : TSlot) : Bool :=
  !s.vaultBadIn (markAt t) 4 && decide (s.vaultBytes (markAt t) 1 = [0x01])

/-- Whether the mark is closed and no write of it waits (R419, R430). -/
def State.markClosed (s : State) (t : TSlot) : Bool :=
  !s.markOpen t && !s.update.vaultWrite.any (fun j => j.words.any (fun w => decide (markAt t ≤ w.1) && decide (w.1 < markAt t + 32)))

/-- A vault write operation started (R170). -/
def State.queueVault (s : State) (words : List (Nat × Bytes)) (wip : Option TSlot) : State :=
  { s with update := { s.update with vaultWrite := s.update.vaultWrite ++ [VaultJob.mk words wip] } }

/-- The write that closes a mark (R324). -/
def State.clearMark (s : State) (t : TSlot) : State := s.queueVault [(markAt t, zeros 4)] none

/-- The words that a merge writes: all of an opening mark, or the two that change (R324). -/
def markWords (t : TSlot) (b : Bounce) (vsector seq : Nat) (opens : Bool) : List (Nat × Bytes) :=
  let tail := [(markAt t + 0x0C, be 4 b.firstAddr), (markAt t + 0x10, be 2 b.merged ++ zeros 2)]
  if opens then [(markAt t + 0x04, be 2 vsector ++ zeros 2), (markAt t + 0x08, be 4 seq)] ++ tail ++ [(markAt t, [0x01, 0, 0, 0])]
  else tail

/-! ### Acceptance (R314) -/

/-- What the poll decides of a waiting program or erase. -/
inductive Decision where
  | accept
  | wait
  | refuse (reason : Byte)
deriving DecidableEq, Repr

/-- The free pool is 0, the erase queue counted in (R270); the sectors of a chip that failed are not in it (R269). -/
def State.poolEmpty (s : State) : Bool :=
  let lives := fun (r : Nat) => !s.flash.dead[refChip r]
  s.flash.poolReady && !s.flash.free.any lives &&
    (match s.running.manifest with
     | some m => !s.flash.eraseQueue.any (fun r => lives r && (s.poolRefs m).contains r)
     | none => true)

/-- Warden holds the header of the tenant's intake as taken (R413). -/
def State.headerTaken (s : State) (t : TSlot) : Bool :=
  match s.update.install with
  | some i => i.intake == some t
  | none => false

/-- Whether a write covers a virtual sector. -/
def WriteOp.covers (op : WriteOp) (v : Nat) : Bool := decide (op.sectors.1 ≤ v) && decide (v < op.sectors.1 + op.sectors.2)

/-- Whether the bounce buffer or a commit of the tenant makes a write wait (R314). -/
def State.writeBlocked (s : State) (t : TSlot) (d : TenantDecl) (op : WriteOp) : Bool :=
  let x := s.tenant t
  x.eraseWait.isSome || (match s.commit with
    | some c => c.tenant == t && (match c.kind with | .erase _ _ => true | _ => false)
    | none => false) ||
    (match x.bounce.state with
     | .empty => false
     | .opened => !op.covers (x.bounce.sector + d.denShare)
     | _ => true)

/-- The table of R314, rows in order; the header sector is refused while an object of it is taken (R413). -/
def State.decideWrite (s : State) (t : TSlot) (d : TenantDecl) (op : WriteOp) : Decision :=
  let x := s.tenant t
  if x.life = .degraded then .refuse Code.policy
  else if !d.writable op then .refuse (if d.foreign op then Code.spoof else Code.policy)
  else if d.writeMode = .readOnly then .refuse Code.policy
  else if x.frozen then .refuse Code.frozen
  else if s.power.commitLow then .refuse Code.lowbat
  else if op.isProgram && s.poolEmpty then .refuse Code.full
  else if s.headerTaken t && op.covers d.denShare then .refuse Code.notReady
  else if s.writeBlocked t d op then .wait
  else .accept

/-! ### The bounce buffer (R315, R316) -/

/-- One byte ANDed into the written bytes, listed by offset (R315). -/
def bounceByte (m : Cells) (o : Nat) (b : Byte) : Cells :=
  match m with
  | [] => [(o, b)]
  | (k, c) :: rest => if o < k then (o, b) :: (k, c) :: rest else if o = k then (k, c &&& b) :: rest else (k, c) :: bounceByte rest o b

/-- The cache leaves of a data-region sector, to become invalid at the next publication (R313, R316). -/
def dataDrops (sector : Nat) : List (LeafKind × Nat) :=
  (List.range 4).flatMap (fun i => [(LeafKind.data, 4 * sector + i), (LeafKind.failed, 4 * sector + i)])

/-- A sector in flight: its reads miss, its cache leaves become invalid, its chains end (R316). -/
def Tenant.putInFlight (t : Tenant) (sector : Nat) : Tenant :=
  let gone := t.chains.any (fun c => decide (c.leaf / 4 = sector)) || t.awaited.any (fun k => (dataDrops sector).contains k)
  { t with inFlight := if t.inFlight.contains sector then t.inFlight else t.inFlight ++ [sector]
           drops := t.drops ++ dataDrops sector
           inserts := t.inserts.filter (fun l => !((dataDrops sector).contains (l.kind, l.no)))
           awaited := t.awaited.filter (fun k => !((dataDrops sector).contains k))
           chains := t.chains.filter (fun c => !(decide (c.leaf / 4 = sector)))
           flightMiss := if gone && t.miss && !t.flightMiss.contains sector then t.flightMiss ++ [sector] else t.flightMiss }

/-- A program merged into the buffer (R315). -/
def Tenant.merge (t : Tenant) (d : TenantDecl) (addr : Nat) (data : Bytes) (lap : Nat) : Tenant :=
  let ws := pageWrites addr data
  let low := (ws.map (·.1)).foldl min (ws.headD (addr, 0)).1
  let old := t.bounce
  let fresh := old.state == .empty
  let posted := d.writeMode == .posted
  let b : Bounce :=
    { state := if posted then .opened else .closed, sector := d.dataSector (addr / 4096)
      written := ws.foldl (fun m w => bounceByte m (w.1 % 4096) w.2) (if fresh then [] else old.written)
      lastMerge := lap, firstAddr := if fresh then low else min low old.firstAddr
      merged := if fresh then 1 else sat16 (old.merged + 1), posted := posted }
  ({ t with bounce := b }).putInFlight b.sector

/-- The live tag-root record written again with its ceiling raised by 256 (R260). -/
def State.pushCeiling (s : State) (t : TSlot) (b : Bytes) : State :=
  s.writeRoot t (rootCeiling b + 256) ((List.range 5).map (rootSlot b)) (rootDigest b)

/-- The serial ceiling committed above the next serial: at the tenant's first data write of a start, whose next serial is the stored
ceiling, and whenever the serials handed out have reached it (R260). -/
def State.raiseCeiling (s : State) (t : TSlot) : State :=
  let x := s.tenant t
  match s.liveRoot? t with
  | none => s
  | some (_, b) =>
    if !x.ceilingSet then (s.pushCeiling t b).setTenant t { x with ceilingSet := true, serial := rootCeiling b }
    else if rootCeiling b ≤ x.serial then s.pushCeiling t b
    else s

/-- A program accepted (R314–R316, R324). -/
def State.acceptProgram (s : State) (t : TSlot) (d : TenantDecl) (w : PendingWrite) (addr : Nat) (data : Bytes) : State :=
  let opens := (s.tenant t).bounce.state == .empty
  let s := s.raiseCeiling t
  let s := s.modTenant t (fun x => { (x.merge d addr data s.clock.boundaries) with write := none, accepted := some w })
  let seq := match s.liveRoot? t with | some (_, b) => rootSeq b | none => 0
  if d.writeMode = .posted then s.queueVault (markWords t (s.tenant t).bounce (addr / 4096) seq opens) (some t) else s

/-- An erase accepted: a buffer open within its range is discarded (R315). -/
def State.acceptErase (s : State) (t : TSlot) (d : TenantDecl) (w : PendingWrite) : State :=
  s.modTenant t (fun x => { x with
    bounce := if x.bounce.state = .opened then Bounce.none else x.bounce
    eraseWait := some (d.dataSector w.op.sectors.1, w.op.sectors.2), write := none, accepted := some w })

/-- A buffer open for another sector closes when a write to this one is decided (R315). -/
def Tenant.closeBuffer (t : Tenant) : Tenant :=
  if t.bounce.state = .opened then { t with bounce := { t.bounce with state := .closed } } else t

/-! ### Commits (R264, R317) -/

/-- A leaf that the commit holds. -/
def Commit.leaf? (c : Commit) (k : LeafKind) (no : Nat) : Option Bytes :=
  (c.leaves.find? (fun l => l.1 == k && l.2.1 == no)).map (·.2.2)

/-- The next merge fetch of a commit (R317): the chain of R307 to each leaf of its sector, then the other index leaves that C6
needs. -/
def commitNeed (c : Commit) (d : TenantDecl) : Option (LeafKind × Nat) :=
  let mp := mapLeafOf c.sector
  let tg := tagLeafOf c.sector
  let missing := fun (ks : List (LeafKind × Nat)) => ks.find? (fun k => (c.leaf? k.1 k.2).isNone)
  let chain := [(LeafKind.index, d.metaNo .map mp / 64), (LeafKind.map, mp), (LeafKind.index, d.metaNo .tagTable tg / 64), (LeafKind.tagTable, tg)]
  match missing chain with
  | some k => some k
  | none =>
    let written := match c.leaf? .map mp with
      | some b => (mapEntry b (c.sector % 128)).1 != unwritten
      | none => false
    missing ((if written then (List.range 4).map (fun i => (LeafKind.data, 4 * c.sector + i)) else []) ++
      (List.range d.leavesX).map (fun x => (LeafKind.index, x)))

/-- Where a merge fetch lies, with the serial and tag of a data leaf. -/
def State.commitPlace? (s : State) (m : Manifest) (d : TenantDecl) (c : Commit) (k : LeafKind) (no : Nat) :
    Option (Nat × Nat × Nat × Bytes) :=
  match k with
  | .index => (s.indexPlace? m c.tenant d no).map (fun p => (p.1, p.2, 0, []))
  | .data =>
    match c.leaf? .map (mapLeafOf (no / 4)), c.leaf? .tagTable (tagLeafOf (no / 4)) with
    | some mp, some tt =>
      let e := mapEntry mp (no / 4 % 128)
      some (e.1, no % 4 * 1024, e.2, tagEntry tt (no % 64))
    | _, _ => none
  | _ =>
    match c.leaf? .index (d.metaNo k no / 64) with
    | some ix =>
      let n := (indexEntry ix (d.metaNo k no % 64)).2
      if n < 8 then
        let p := s.metaPlace m d (d.metaNo k no) n
        some (p.1, p.2, 0, [])
      else none
    | none => none

/-- Whether a merge fetch passes its check: its plaintext. -/
def State.commitVerify (s : State) (d : TenantDecl) (c : Commit) (j : LaneJob) : Option Bytes :=
  match j.kind with
  | .data => s.openData c.tenant j.no j.serial j.content j.tag
  | .index => if s.metaGood c.tenant d .index j.no [] j.content then some j.content else none
  | k => match c.leaf? .index (d.metaNo k j.no / 64) with
    | some ix => if s.metaGood c.tenant d k j.no ix j.content then some j.content else none
    | none => none

/-- The outcome of WRITE_LATE's mode field (R513). -/
def Commit.mode (c : Commit) (x : Tenant) : Byte :=
  match c.kind with
  | .erase _ _ => 3
  | .program => if x.bounce.posted then 1 else 2
  | .header _ => 2

/-- The data-region sectors that a commit changes. -/
def Commit.sectors (c : Commit) : List Nat :=
  match c.kind with
  | .erase f n => (List.range n).map (fun i => f + i)
  | _ => [c.sector]

/-- The sectors whose flight the end of a commit ends: none for Warden's own header write (R316). -/
def Commit.landing (c : Commit) : List Nat := match c.kind with | .header _ => [] | _ => c.sectors

/-- The reference of the pool sector that a commit holds; that of an unwritten sector when it holds none (R259, log 176). -/
def Commit.held (c : Commit) : Nat := if c.target = 0 then unwritten else c.target

/-- The commit ends without C6 (R321, R322): the old content stays live, the buffer is emptied, WRITE_LATE is appended with the
physical sector at fault. -/
def State.failCommit (s : State) (cause : Byte) (fault : Nat) : State :=
  match s.commit with
  | none => s
  | some c =>
    let t := c.tenant
    match s.decl? t with
    | none => { s with commit := none }
    | some d =>
      let x := s.tenant t
      let posted := c.kind == .program && x.bounce.posted
      let first := if c.kind = .program then x.bounce.firstAddr else d.dataStart + 4096 * c.sector
      let (opcode, addr) := match x.accepted with
        | some w => (w.opcode, w.op.addr)
        | none => (0, first)
      let reason := if cause = 0x0A then Code.full else Code.flashFailed
      let out := match c.kind with
        | .header _ => []
        | _ => if posted then [TOutcome.late first] else [TOutcome.refused reason opcode addr]
      let s := if c.target = 0 then s else s.queueErase c.target
      let s := { s with commit := none, lastLane := t.val }
      let s := s.setTenant t { x with
        bounce := if c.kind = .program then Bounce.none else x.bounce
        eraseWait := (match c.kind with | .erase _ _ => none | _ => x.eraseWait)
        outcomes := x.outcomes ++ out, landed := x.landed ++ c.landing
        wipDone := x.wipDone || (!posted && (match c.kind with | .header _ => false | _ => true)) }
      s.recordThen Code.writeLate (slotByte t)
        (be 2 (c.sector + d.denShare) ++ be 4 first ++ [cause] ++ be 3 fault ++ [c.mode x])
        (if posted ∨ (c.landing ≠ [] ∧ s.markOpen t) then .lateMark t else .nothing)

/-- A merge leaf failed its check (R310, R321). -/
def State.mergeFailed (s : State) (d : TenantDecl) (c : Commit) (k : LeafKind) (no sector : Nat) : State :=
  let leaf := if k = .data then no else 4 * c.sector
  (s.chainFailed c.tenant d leaf k sector).failCommit 0x09 unwritten

/-! C1–C3 -/

/-- The old content of a commit's sector (R317, R259). -/
def Commit.oldPlain (c : Commit) : Bytes :=
  (List.range 4).flatMap (fun i => (c.leaf? .data (4 * c.sector + i)).getD (List.replicate 1024 0xFF))

/-- The new content of a commit's sector: the old ANDed with the written bytes, or the header put over it (R315, R413). -/
def Commit.newPlain (c : Commit) (x : Tenant) : Bytes :=
  match c.kind with
  | .header h => h ++ c.oldPlain.drop h.length
  | _ => (c.oldPlain.zipIdx).map (fun p => match x.bounce.written.find? (fun w => w.1 == p.2) with
    | some w => p.1 &&& w.2
    | none => p.1)

/-- The pool sector that C1 takes: the first free one after the last taken, wrapping round (log 18). -/
def State.nextPool (s : State) : Option Nat :=
  let ok := s.flash.free.filter (fun r => s.chipServes (refChip r))
  match ok.find? (fun r => decide (s.flash.lastTaken < r)) with
  | some r => some r
  | none => ok.head?

/-- A sector put back in the free pool, in order. -/
def insertSorted (l : List Nat) (r : Nat) : List Nat :=
  match l with
  | [] => [r]
  | a :: rest => if r < a then r :: a :: rest else if r = a then a :: rest else a :: insertSorted rest r

/-- C2 begins: the four leaves sealed under the next write serial and programmed (R259, R260, R264). -/
def State.commitC2 (s : State) (c : Commit) : State :=
  let s := s.raiseCeiling c.tenant
  let x := s.tenant c.tenant
  let plain := c.newPlain x
  let sealed := (List.range 4).map (fun i => s.sealData c.tenant (4 * c.sector + i) x.serial (slice plain (1024 * i) 1024))
  let cipher := (sealed.map (·.1)).flatten
  { (s.setTenant c.tenant { x with serial := x.serial + 1 }) with
    commit := some { c with stage := .c2, serial := x.serial, plain := plain, cipher := cipher, tags := sealed.map (·.2)
                            tasks := pageTasks (refChip c.target) (refAddr c.target) cipher, begun := false } }

/-- The blank check of C1 and what follows it (R265, R269). -/
def State.commitBlank (s : State) (c : Commit) : State :=
  if allBytes 0xFF (s.sectorBytes c.target 0 4096) then s.commitC2 c
  else
    let s := s.latch Ev.blankCheck
    let s := if s.flash.erasedHere.contains c.target then s.flashFault c.target 0x06 0x02 false else s
    { s with commit := some { c with stage := .c1, tasks := [eraseTask c.target], begun := false } }

/-- C1: a free pool sector is taken, once the bitmap is complete and the commit monitor is clear (R264, R265, R318). -/
def State.commitC1 (s : State) (c : Commit) : State :=
  let waits := { s with commit := some { c with stage := .c1, tasks := [], begun := false, target := 0 } }
  if s.power.commitLow ∨ !s.flash.poolReady then waits
  else match s.nextPool with
    | none => if s.poolEmpty then ({ waits with commit := some { c with target := 0 } }.latch Ev.poolEmpty).failCommit 0x0A unwritten else waits
    | some r =>
      ({ s with flash := { s.flash with free := s.flash.free.filter (fun q => !(q == r)), lastTaken := r } }).commitBlank
        { c with stage := .c1, target := r, tasks := [], metas := [], todo := [], begun := false }

/-! C4–C7 -/

/-- The slot in use of a metadata leaf (R261–R263). -/
def State.liveSlot (s : State) (d : TenantDecl) (c : Commit) (e : Nat) : Nat :=
  if e < d.leavesT + d.leavesM then
    match c.leaf? .index (e / 64) with
    | some ix => (indexEntry ix (e % 64)).2
    | none => 0
  else match s.liveRoot? c.tenant with
    | some (_, b) => rootSlot b (e - d.leavesT - d.leavesM)
    | none => 0

/-- Where the next write of a metadata leaf goes (R262, R517). -/
inductive SlotPick where
  | use (slot : Nat)
  | wait
  | nowhere
deriving DecidableEq, Repr

/-- The first usable slot after the one tried last and before the live one: a slot that does not read erased is skipped (log 19),
a sector that waits for its erase is waited for (R262, R517). -/
def State.pickSlot (s : State) (m : Manifest) (d : TenantDecl) (e live last : Nat) : SlotPick :=
  let steps := (live + 8 - last - 1) % 8
  let slots := (List.range steps).map (fun i => (last + 1 + i) % 8)
  let slots := if last = live then (List.range 7).map (fun i => (live + 1 + i) % 8) else slots
  let usable := slots.filter (fun n =>
    let ref := (s.metaPlace m d e n).1
    decide (s.flash.badMeta.count ref < 2) &&
      (s.flash.eraseQueue.contains ref || allBytes 0xFF (s.sectorBytes ref ((s.metaPlace m d e n).2) 1024)))
  match usable.head? with
  | none => .nowhere
  | some n => if s.flash.eraseQueue.contains (s.metaPlace m d e n).1 then .wait else .use n

/-- The next metadata leaf of C4 or C5 put to its slot (R264). -/
def State.commitWrite (s : State) (m : Manifest) (d : TenantDecl) (c : Commit) : State :=
  match c.todo with
  | [] => { s with commit := some c }
  | (e, content, last) :: rest =>
    match s.pickSlot m d e (s.liveSlot d c e) last with
    | .nowhere => { s with commit := some c }.failCommit 0x01 c.held
    | .wait => { s with commit := some { c with tasks := [], begun := false } }
    | .use n =>
      let p := s.metaPlace m d e n
      { s with commit := some { c with todo := (e, content, n) :: rest, tasks := pageTasks (refChip p.1) (refAddr p.1 + p.2) content } }

/-- A byte string with bytes replaced at an offset. -/
def putBytes (b : Bytes) (off : Nat) (new : Bytes) : Bytes := b.take off ++ new ++ b.drop (off + new.length)

/-- The changed tag-table and map leaves of a commit (R259, R264). -/
def Commit.newMetas (c : Commit) (d : TenantDecl) : List (Nat × Bytes) :=
  match c.kind with
  | .erase f n =>
    let maps := ((List.range n).map (fun i => mapLeafOf (f + i))).dedup
    maps.filterMap (fun k => (c.leaf? .map k).map (fun b =>
      (d.metaNo .map k, (List.range n).foldl (fun b i =>
        if mapLeafOf (f + i) = k then putBytes b (8 * ((f + i) % 128)) [0xFF, 0xFF, 0xFF] else b) b)))
  | _ =>
    let tg := tagLeafOf c.sector
    let mp := mapLeafOf c.sector
    ((c.leaf? .tagTable tg).map (fun b => (d.metaNo .tagTable tg, putBytes b (64 * (c.sector % 16)) c.tags.flatten))).toList ++
      ((c.leaf? .map mp).map (fun b => (d.metaNo .map mp, putBytes b (8 * (c.sector % 128)) (be 3 c.target ++ be 5 c.serial)))).toList

/-- C4 begins (R264). -/
def State.commitC4 (s : State) (m : Manifest) (d : TenantDecl) (c : Commit) : State :=
  let todo := (c.newMetas d).map (fun p => (p.1, p.2, s.liveSlot d c p.1))
  s.commitWrite m d { c with stage := .c4, todo := todo, tasks := [], metas := [], begun := false }

/-- The kind and number of a metadata leaf by its place in the order of R261. -/
def TenantDecl.metaKind (d : TenantDecl) (e : Nat) : LeafKind × Nat :=
  if e < d.leavesT then (.tagTable, e) else if e < d.leavesT + d.leavesM then (.map, e - d.leavesT)
  else (.index, e - d.leavesT - d.leavesM)

/-- The index leaves with the entries of the written leaves changed (R261, R264). -/
def State.newIndexes (s : State) (d : TenantDecl) (c : Commit) : List (Nat × Bytes) :=
  ((c.metas.map (fun w => w.1 / 64)).dedup).filterMap (fun x => (c.leaf? .index x).map (fun b =>
    (x, c.metas.foldl (fun b w =>
      if w.1 / 64 = x then
        let k := d.metaKind w.1
        putBytes b (16 * (w.1 % 64)) (s.metaTag c.tenant k.1 k.2 w.2.1 ++ [BitVec.ofNat 8 w.2.2])
      else b) b)))

/-- C5 begins (R264). -/
def State.commitC5 (s : State) (m : Manifest) (d : TenantDecl) (c : Commit) : State :=
  let todo := (s.newIndexes d c).map (fun p => (d.metaNo .index p.1, p.2, s.liveSlot d c (d.metaNo .index p.1)))
  s.commitWrite m d { c with stage := .c5, todo := todo, tasks := [], begun := false }

/-- The magic and state with which an object is submitted (R409, R413). -/
def objectSubmitted (h : Bytes) : Bool := decide (field h 0 4 = 0x42584958) && byteAt h 5 == 1

/-- A header with its state, reason, generation and check number (R409). -/
def headerWith (h : Bytes) (state reason : Byte) (generation check : Nat) : Bytes :=
  let h := fit 64 0 h
  putBytes (putBytes (putBytes h 5 [state, reason]) 0x0C (be 2 generation)) 0x0E (be 2 check)

/-- Whether an install or a parcel is in work besides a sequential intake (R408). -/
def State.objectBusy (s : State) : Bool :=
  s.update.install.isSome || s.update.exporting.isSome || s.update.importing.isSome || s.link.receiving.isSome

/-- Whether a sequential intake has taken the first page of an object and not its last (R408, R414; log 116). -/
def State.intakeOpen (s : State) : Bool :=
  match s.update.intake with
  | some (next, _, ended) => next != 0 && !ended
  | none => false

/-- Whether an install or a parcel is in work (R408). -/
def State.installBusy (s : State) : Bool := s.objectBusy || s.intakeOpen

/-- INSTALL_REFUSED recorded with its target slot, 0xFF when it has none: kind 0x02 has none (R415, R417, R468). -/
def State.installRefused (s : State) (kind slot carrier reason : Byte) (check version : Nat) (digest : Bytes) : State :=
  let who := if kind ≠ 2 ∧ slot.toNat < 16 then slot else 0xFF
  s.recordThen Code.installRefused who ([kind, carrier, reason, BitVec.ofNat 8 check] ++ be 4 version ++ fit 12 0 digest) .closeInstall

/-- Warden takes a submitted object, or refuses it while another is in work or a tenant is frozen (R408, R413). -/
def State.takeObject (s : State) (t : TSlot) (h : Bytes) : State :=
  let refuse := fun (st : State) (reason : Byte) =>
    (st.modTenant t (fun x => { x with headerWait := some (headerWith h 0x04 reason 0 0) })).installRefused (byteAt h 4) (byteAt h 7) 1
      reason 0 0 []
  if s.installBusy then refuse s Code.notReady
  else if (byteAt h 4 = 1 ∨ byteAt h 4 = 2) ∧ allSlots.any (fun k => (s.tenant k).frozen) then refuse s Code.frozen
  else
    let i : Install :=
      { carrier := 1, intake := some t, kind := byteAt h 4, slot := byteAt h 7, bodyLen := field h 8 4, object := h, nextLeaf := 0
        checked := false, version := 0, digest := [], generation := 0 }
    let s := { s with update := { s.update with install := some i } }
    s.modTenant t (fun x => { x with headerWait := some (headerWith h 0x02 0 0 0) })

/-- Fetches under way of leaves that a commit superseded are dropped; their chains fetch again (R313). -/
def State.dropJobs (s : State) (t : TSlot) (drops : List (LeafKind × Nat)) : State :=
  let stale := fun (j : LaneJob) => (match j.purpose with | .chain u _ => u == t | _ => false) && drops.contains (j.kind, j.no)
  { s with lanes := s.lanes.map (fun o => o.filter (fun j => !stale j)) }

/-- C6 and C7 (R264): the record with `sequence` + 1 makes the write live; the superseded sectors are queued for erase; the cache
leaves that the write superseded become invalid; the submitted header of an intake is taken (R313, R320, R324, R413). -/
def State.commitC6 (s : State) (m : Manifest) (d : TenantDecl) (c : Commit) : State :=
  let t := c.tenant
  let x := s.tenant t
  let root := match s.liveRoot? t with | some (_, b) => b | none => zeros 64
  let indexes := (List.range d.leavesX).map (fun i =>
    match c.metas.find? (fun w => w.1 == d.metaNo .index i) with
    | some w => (w.2.1, w.2.2)
    | none => ((c.leaf? .index i).getD [], rootSlot root i))
  let ceiling := match c.kind with
    | .erase _ _ => rootCeiling root
    | _ => if rootCeiling root ≤ x.serial then rootCeiling root + 256 else rootCeiling root
  let posted := c.kind == .program && x.bounce.posted
  let hadMark := s.markOpen t
  let oldRefs := c.sectors.filterMap (fun k => (c.leaf? .map (mapLeafOf k)).map (fun b => (mapEntry b (k % 128)).1))
  let vacated := c.metas.filterMap (fun w =>
    let live := s.liveSlot d c w.1
    if live / 4 = w.2.2 / 4 then none else some (s.metaPlace m d w.1 live).1)
  let s := s.writeRoot t ceiling (indexes.map (·.2)) ((sha3 (indexes.map (·.1)).flatten).take 16)
  let s := (oldRefs ++ vacated).foldl State.queueErase { s with commit := none, lastLane := t.val }
  let header := match c.kind with | .header _ => true | _ => false
  let drops := c.sectors.flatMap dataDrops ++ c.metas.map (fun w => d.metaKind w.1)
  let s := s.setTenant t { x with
    bounce := if c.kind = .program then Bounce.none else x.bounce
    eraseWait := (match c.kind with | .erase _ _ => none | _ => x.eraseWait)
    indexDigests := indexes.map (fun p => (sha3 p.1).take 16), drops := x.drops ++ drops
    inserts := x.inserts.filter (fun l => !(drops.contains (l.kind, l.no)))
    descriptors := x.descriptors.filter (fun e => !(c.sectors.contains (e.leaf / 4)))
    awaited := x.awaited.filter (fun k => !(drops.contains k)), landed := x.landed ++ c.landing, wipDone := x.wipDone || (!posted && !header) }
  let s := if hadMark ∧ !header then s.clearMark t else s
  let s := s.dropJobs t drops
  if c.kind = .program ∧ c.sector = 0 ∧ objectSubmitted (c.plain.take 64) then s.takeObject t (c.plain.take 64) else s

/-! Starting and driving a commit -/

/-- The metadata leaves that a commit finds valid in the cache and not superseded (R313, R317). -/
def Tenant.cachedMeta (x : Tenant) : List (LeafKind × Nat × Bytes) :=
  x.cache.filterMap (fun l =>
    if l.valid && !x.drops.contains (l.kind, l.no) && (l.kind == .index || l.kind == .tagTable || l.kind == .map) then some (l.kind, l.no, l.content) else none)

/-- A commit before its first step. -/
def Commit.fresh (t : TSlot) (kind : CommitKind) (sector : Nat) (leaves : List (LeafKind × Nat × Bytes)) : Commit :=
  { tenant := t, kind := kind, sector := sector, stage := .merge, target := 0, serial := 0, plain := [], cipher := [], tags := []
    leaves := leaves, tasks := [], metas := [], todo := [], retried := false, begun := false, asked := false }

/-- The metadata leaves that an erase needs, from the cache or read and checked; none when one fails (R317; log 20). -/
def State.eraseLeaves (s : State) (m : Manifest) (t : TSlot) (d : TenantDecl) (first count : Nat) :
    Option (List (LeafKind × Nat × Bytes)) :=
  let maps := ((List.range count).map (fun i => (LeafKind.map, mapLeafOf (first + i)))).dedup
  let idx := (List.range d.leavesX).map (fun i => (LeafKind.index, i))
  (idx ++ maps).mapM (fun k =>
    let found := match (s.tenant t).have? k.1 k.2 with
      | some b => some b
      | none => if k.1 = LeafKind.index then s.indexLeaf? m t d k.2 else s.metaLeaf? m t d k.1 k.2
    found.map (fun b => (k.1, k.2, b)))

/-- What a lane has to commit: a closed buffer, an erase, Warden's own header write (R317, R413). -/
def Tenant.commitKind? (x : Tenant) : Option (CommitKind × Nat) :=
  if x.bounce.state = .closed then some (.program, x.bounce.sector)
  else match x.eraseWait with
    | some (f, n) => some (.erase f n, f)
    | none => x.headerWait.map (fun h => (.header h, 0))

/-- The lane whose turn it is: in lane order after the lane served last (R317). -/
def State.commitTurn (s : State) : Option TSlot :=
  ((List.range 16).map (fun i => (⟨(s.lastLane + 1 + i) % 16, Nat.mod_lt _ (by decide)⟩ : TSlot))).find?
    (fun t => (s.tenant t).commitKind?.isSome)

/-- The index and metadata leaves that an erase reads: the chips they lie on (R317). -/
def State.areaChips (s : State) (m : Manifest) (d : TenantDecl) : List (Fin 2) :=
  ((List.range (2 * (d.leavesT + d.leavesM + d.leavesX))).map (fun k => refChip (s.pairRef m d 0 k))).dedup

/-- An erase goes to C4 with the leaves it needs: it ends on a failed chip (R269, R321), waits out a flash power cycle (R268), and ends
when a leaf fails its check (log 20). -/
def State.commitErase (s : State) (m : Manifest) (d : TenantDecl) (c : Commit) (first count : Nat) : State :=
  match s.eraseLeaves m c.tenant d first count with
  | some ls => s.commitC4 m d { c with leaves := ls }
  | none =>
    let chips := s.areaChips m d
    if chips.any (fun k => s.flash.dead[k]) then { s with commit := some c }.failCommit 0x08 unwritten
    else if s.flash.cutAt.isSome then { s with commit := some { c with stage := .c1 } }
    else { s with commit := some c }.failCommit 0x09 unwritten

/-- A commit started (R317): an erase goes to C4, a write to its merge fetches or at once to C1. -/
def State.startCommit (s : State) (m : Manifest) (t : TSlot) (d : TenantDecl) : State :=
  let x := s.tenant t
  match x.commitKind? with
  | none => s
  | some (kind, sector) =>
    let c := Commit.fresh t kind sector x.cachedMeta
    match kind with
    | .erase f n =>
      s.commitErase m d c f n
    | .program =>
      let b := x.bounce
      let s := s.setTenant t { x with bounce := { b with state := .committing } }
      if (commitNeed c d).isNone then s.commitC1 c else { s with commit := some c }
    | .header _ =>
      let s := s.setTenant t { x with headerWait := none }
      if (commitNeed c d).isNone then s.commitC1 c else { s with commit := some c }

/-- A merge fetch that ended: the leaf joins the commit, which goes to C1 when it needs no other (R317). -/
def State.mergePassed (s : State) (d : TenantDecl) (c : Commit) (j : LaneJob) (plain : Bytes) : State :=
  let c := { c with leaves := c.leaves ++ [(j.kind, j.no, plain)], asked := false }
  if (commitNeed c d).isNone then s.commitC1 c else { s with commit := some c }

/-- The sector of C1–C3 fails (R269, R270): it is retired, the write is retried once from C1, then the commit fails. -/
def State.commitSectorFailed (s : State) (c : Commit) (cause op : Byte) : State :=
  let s := (s.retire c.target).flashFault c.target cause op true
  if c.retried then { s with commit := some { c with target := 0 } }.failCommit cause c.target
  else s.commitC1 { c with retried := true, target := 0 }

/-- A commit begun again: an erase at C4, any other at C1 (R317, R318). -/
def State.commitBegin (s : State) (m : Manifest) (d : TenantDecl) (c : Commit) : State :=
  match c.kind with
  | .erase f n => s.commitErase m d c f n
  | _ => s.commitC1 c

/-- The step of a commit whose last program or erase has ended well (R264). -/
def State.commitAdvance (s : State) (m : Manifest) (d : TenantDecl) (c : Commit) : State :=
  match c.stage with
  | .merge => s
  | .c1 =>
    if c.target = 0 then s.commitBegin m d c
    else if allBytes 0xFF (s.sectorBytes c.target 0 4096) then s.commitC2 c
    else
      let s := ((s.latch Ev.blankCheck).retire c.target).flashFault c.target 0x06 0x02 true
      s.commitC1 { c with target := 0 }
  | .c2 =>
    if s.sectorBytes c.target 0 4096 = c.cipher then s.commitC4 m d c
    else (s.latch Ev.readBack).commitSectorFailed c 0x02 0x01
  | .c4 =>
    let c := { c with metas := c.metas ++ c.todo.take 1, todo := c.todo.drop 1 }
    if c.todo.isEmpty then s.commitC5 m d c else s.commitWrite m d c
  | .c5 =>
    let c := { c with metas := c.metas ++ c.todo.take 1, todo := c.todo.drop 1 }
    if c.todo.isEmpty then s.commitC6 m d c else s.commitWrite m d c

/-- A program or erase of a commit failed with a cause (R269, R517). -/
def State.commitTaskFailed (s : State) (m : Manifest) (d : TenantDecl) (c : Commit) (task : FlashTask) (cause : Byte) : State :=
  match c.stage with
  | .merge => s
  | .c1 =>
    if c.target = 0 then s.commitBegin m d c
    else ((s.retire c.target).flashFault c.target cause 0x02 true).commitC1 { c with target := 0 }
  | .c2 => s.commitSectorFailed c cause 0x01
  | _ => (s.flashFault (refOf task.chip task.addr) cause 0x01 false).commitWrite m d { c with tasks := [] }

/-- The commit put back before C1, or before C4 for an erase, once the monitor releases (R318): the next write activity takes it up. -/
def State.commitRestart (s : State) (c : Commit) : State :=
  if c.stage = .merge then s
  else
    let s := if c.target = 0 then s else s.queueErase c.target
    { s with commit := some { c with target := 0, tasks := [], todo := [], metas := [], stage := .c1, begun := false } }

end Sys2Proof.Machine
end

