-- ==== Sys2Proof/Machine/ScheduleForm.lean ====
section
/-!
DEFINITION. The schedule image: its bytes (R36–R45, R518), seal and digest (R39), and the admission checks A1–A13 (R46, R47).
-/
namespace Sys2Proof.Machine

/-- The stated `image length` (R36). -/
def imageLength (img : Bytes) : Nat := field img 8 4

/-- Whether the stated length lies in the range of R36. -/
def imageLengthOk (img : Bytes) : Bool :=
  decide (512 ≤ imageLength img) && decide (imageLength img ≤ 131072) && imageLength img % 4 == 0

/-- The length that admission charges (R47). -/
def chargedLength (img : Bytes) : Nat := if imageLengthOk img then imageLength img else 131072

/-- The schedule digest over the image without its seal (R39). -/
def scheduleDigest (img : Bytes) : Bytes := sha3 (img.take (imageLength img - 32))

/-- The seal of an image under a key (R39). -/
def scheduleSeal (key img : Bytes) : Bytes := kmac key "BX4016 SCHED" (img.take (imageLength img - 32)) 32

/-- The seal that an image carries. -/
def carriedSeal (img : Bytes) : Bytes := slice img (imageLength img - 32) 32

/-- Section `n` of the directory: offset and length (R37). -/
def sectionAt (img : Bytes) (n : Nat) : Nat × Nat := (field img (64 + 8 * n) 4, field img (68 + 8 * n) 4)

/-- The bytes of section `n`. -/
def sectionBytes (img : Bytes) (n : Nat) : Bytes := slice img (sectionAt img n).1 (sectionAt img n).2

/-- The occupancy entries (R40). -/
def occupancyOf (img : Bytes) : List OccEntry :=
  (pieces 12 (sectionBytes img 0)).map (fun e => ⟨(byteAt e 0).toNat, (byteAt e 1).toNat, field e 4 4, field e 8 4⟩)

/-- The ticket windows: start slot and class (R42). -/
def windowsOf (img : Bytes) : List (Nat × Nat) :=
  (pieces 4 (sectionBytes img 2)).map (fun e => (field e 0 2, (byteAt e 2).toNat))

/-- The poll table (R43). -/
def pollsOf (img : Bytes) : List PollEntry :=
  (pieces 4 (sectionBytes img 3)).map (fun e => ⟨(byteAt e 0).toNat, (byteAt e 1).toNat / 16, (byteAt e 1).toNat % 8, field e 2 2⟩)

/-- The latency table: service, qualifier, bound (R44). -/
def latencyOf (img : Bytes) : List (Nat × Nat × Nat) :=
  (pieces 8 (sectionBytes img 4)).map (fun e => (field e 0 2, field e 2 2, field e 4 4))

/-- The counts of section 5 (R45). -/
def declCount (img : Bytes) : Nat := field (sectionBytes img 5) 0 2
def mapCount (img : Bytes) : Nat := field (sectionBytes img 5) 2 2

/-- The state declarations (R45). -/
def declsOf (img : Bytes) : List StateDecl :=
  (pieces 12 (slice (sectionBytes img 5) 4 (12 * declCount img))).map (fun e =>
    ⟨(byteAt e 0).toNat, byteAt e 1 == 1, field e 4 4, field e 8 4⟩)

/-- The handover map (R45). -/
def mapsOf (img : Bytes) : List MapEntry :=
  (pieces 16 (slice (sectionBytes img 5) (4 + 12 * declCount img) (16 * mapCount img))).map (fun e =>
    ⟨(byteAt e 0).toNat, field e 4 4, field e 8 4, field e 12 4⟩)

/-- An image decoded (R36–R45). -/
def scheduleOf (img : Bytes) : Schedule :=
  { version := field img 16 4, compiler := field img 20 4, recovery := (byteAt img 15).getLsbD 0
    handover := (byteAt img 15).getLsbD 1, lanes := (byteAt img 27).toNat, frameLaps := (byteAt img 31).toNat
    idleThreshold := field img 32 2, predecessor := slice img 36 16, digest := scheduleDigest img, occupancy := occupancyOf img
    windows := windowsOf img, polls := pollsOf img, latency := latencyOf img, decls := declsOf img, maps := mapsOf img }

/-! ### Programs (R41, R518) -/

/-- The engine identifiers of the six blocks (R41). -/
def blockEngines : List Nat := [0, 1, 2, 4, 5, 6]

/-- The block position that serves a resource, `none` for a resource without a program (R29, R41). -/
def blockOfResource (r : Nat) : Option Nat :=
  match r with | 0 => some 0 | 1 => some 1 | 2 => some 2 | 3 => some 2 | 4 => some 3 | 5 => some 4 | 6 => some 5 | _ => none

/-- Engine cycles per slot (R29). -/
def cyclesPerSlot (r : Nat) : Nat := if r = 2 ∨ r = 3 then 2 else 1

/-- The blocks of the program section, `none` when they do not fill it exactly as six (R41; DEDUCED, log 176). -/
def blocksAux : Nat → Bytes → Option (List Bytes)
  | 0, [] => some []
  | 0, _ :: _ => none
  | n + 1, bs =>
    let len := field bs 4 4
    if 8 ≤ len ∧ len ≤ bs.length then (blocksAux n (bs.drop len)).map (fun r => bs.take len :: r) else none

/-- The cycle count of a word sequence (R518): open loops with their counts, open costs and sums; `none` on any fault. -/
def countCycles (fuel : Nat) (ws : List Nat) (stack : List (Nat × Nat × Nat)) (sum : Nat) : Option Nat :=
  match fuel, ws with
  | _, [] => if stack = [] then some sum else none
  | 0, _ :: _ => none
  | fuel + 1, w :: rest =>
    let cls := w / 2 ^ 29
    let cost := w / 2 ^ 24 % 32
    if cost = 0 then none
    else match cls with
      | 0 => countCycles fuel rest stack (sum + cost)
      | 1 =>
        let n := w % 65536
        if n = 0 ∨ 8 ≤ stack.length then none else countCycles fuel rest ((n, cost, sum) :: stack) 0
      | 2 => match stack with
        | [] => none
        | (n, openCost, outer) :: more => countCycles fuel rest more (outer + openCost + n * (sum + cost))
      | _ => none

/-- The fixed cycle counts of a block's entries, `none` when the block fails A7 by itself (R41, R518). -/
def blockEntries (engine : Nat) (b : Bytes) : Option (List Nat) :=
  let n := (byteAt b 1).toNat
  if (byteAt b 0).toNat = engine ∧ field b 2 2 = 0 ∧ 8 + 12 * n ≤ b.length then
    ((List.range n).map (fun i =>
      let e := slice b (8 + 12 * i) 12
      let off := field e 0 4
      let len := field e 4 4
      if len % 4 = 0 ∧ 8 + 12 * n ≤ off ∧ off + len ≤ b.length then
        match countCycles (len / 4 + 1) ((pieces 4 (slice b off len)).map beNat) [] 0 with
        | some c => if c = field e 8 4 then some c else none
        | none => none
      else none)).foldr (fun x acc => match x, acc with | some c, some cs => some (c :: cs) | _, _ => none) (some [])
  else none

/-- The entries of the six blocks, `none` when A7 fails on them. -/
def programsOf (img : Bytes) : Option (List (List Nat)) :=
  match blocksAux 6 (sectionBytes img 1) with
  | none => none
  | some bs => (bs.zip blockEngines).foldr (fun p acc =>
      match blockEntries p.2 p.1, acc with | some e, some es => some (e :: es) | _, _ => none) (some [])

/-! ### The checks -/

/-- Slots of a frame. -/
def frameSlots (img : Bytes) : Nat := (byteAt img 31).toNat * 65536

/-- A1 Header form. -/
def checkA1 (img : Bytes) : Bool :=
  decide (128 ≤ img.length) && decide (field img 0 4 = 0x42585343) && decide (field img 4 2 = 1) && decide (field img 6 2 = 0x80) &&
    decide ((byteAt img 15).toNat < 4) && decide (field img 34 2 = 0) && allBytes 0 (slice img 52 12)

/-- A2 Layout. -/
def checkA2 (img : Bytes) : Bool :=
  let len := imageLength img
  let s := fun n => sectionAt img n
  imageLengthOk img && decide (img.length = len) &&
    (List.range 6).all (fun n => decide (0 < (s n).2) && (s n).1 % 4 == 0 && decide (0x80 ≤ (s n).1) && decide ((s n).1 + (s n).2 ≤ len - 32)) &&
    (List.range 5).all (fun n => decide ((s n).1 + (s n).2 ≤ (s (n + 1)).1)) && decide ((s 2).2 = 120) && decide ((s 3).2 = 1024) &&
    decide (s 6 = (0, 0)) && decide (s 7 = (0, 0))

/-- A3 Target. -/
def checkA3 (img : Bytes) : Bool := decide (field img 12 2 = 0x4016) && byteAt img 14 == 2

/-- A4 Constants. -/
def checkA4 (img : Bytes) : Bool :=
  decide (field img 24 2 = 4096) && byteAt img 26 == 16 && byteAt img 28 == 30 && byteAt img 29 == 2 && byteAt img 30 == 24 &&
    (byteAt img 31 == 1 || byteAt img 31 == 2 || byteAt img 31 == 4) && decide (1 ≤ (byteAt img 27).toNat) &&
    decide ((byteAt img 27).toNat ≤ 16) && decide (field img 32 2 ≠ 0)

/-- Whether consecutive occupancy entries are sorted and do not overlap (R40). -/
def occupancySorted : List OccEntry → Bool
  | a :: b :: rest =>
    (decide (a.resource < b.resource) || (a.resource == b.resource && decide (a.start + a.len ≤ b.start))) && occupancySorted (b :: rest)
  | _ => true

/-- A6 Occupancy. -/
def checkA6 (img : Bytes) : Bool :=
  let es := occupancyOf img
  (sectionBytes img 0).length % 12 == 0 && occupancySorted es &&
    es.all (fun e => decide (e.resource ≤ 0xB) && decide (1 ≤ e.len) && decide (e.start + e.len ≤ frameSlots img)) &&
    (pieces 12 (sectionBytes img 0)).all (fun e => decide (field e 2 2 = 0))

/-- A7 Programs: activity n is entry n of the block, counted from 1; a resource without a block has every activity (DEDUCED, log 172, 173). -/
def checkA7 (img : Bytes) : Bool :=
  match programsOf img with
  | none => false
  | some ps => (occupancyOf img).all (fun e =>
    e.activity == 0 || (match blockOfResource e.resource with
      | none => true
      | some b => match (ps.getD b []).drop (e.activity - 1) with
        | c :: _ => decide (c ≤ e.len * cyclesPerSlot e.resource)
        | [] => false))

/-- Whether a non-idle activity of a resource covers `n` slots from `at`. -/
def busyFor (es : List OccEntry) (r start n : Nat) : Bool :=
  es.any (fun e => e.resource == r && e.activity != 0 && decide (e.start ≤ start) && decide (start + n ≤ e.start + e.len))

/-- Slots that one leaf fetch takes at most (R250): 64 and 2,048 clocks at 64 MHz. -/
def fetchSlots : Nat := 2112

/-- A8 Windows: a fetch activity is any non-idle Sequencer interval that covers a leaf fetch from the window's start (DEDUCED, log 174). -/
def checkA8 (img : Bytes) : Bool :=
  let ws := windowsOf img
  let es := occupancyOf img
  decide ((ws.filter (fun w => w.2 == 1)).length = 1) && decide ((ws.filter (fun w => w.2 == 2)).length = 1) &&
    decide ((ws.filter (fun w => w.2 == 3)).length = 28) && (pieces 4 (sectionBytes img 2)).all (fun e => byteAt e 3 == 0) &&
    ws.all (fun w => (List.range (byteAt img 31).toNat).all (fun lap =>
      busyFor es 1 (lap * 65536 + w.1) fetchSlots &&
        es.any (fun e => (e.resource == 2 || e.resource == 3) && e.activity != 0 && e.start == lap * 65536 + w.1 && e.len == 4096)))

/-- The longest period code of an event's class (R35, R510). -/
def longestPeriod (e : Nat) : Nat := if e < 8 then 0 else if e < 208 then 3 else 7

/-- A9 Polls. -/
def checkA9 (img : Bytes) : Bool :=
  let es := occupancyOf img
  (pieces 4 (sectionBytes img 3)).all (fun e => !(byteAt e 1).getLsbD 3) &&
    ((pollsOf img).zipIdx).all (fun p =>
      let period := 2 ^ (p.1.code + 9)
      p.1.event == p.2 && decide (p.1.code ≤ longestPeriod p.2) && decide (p.1.offset < period) &&
        (decide (p.1.consumer ≤ 6) || p.1.consumer == 0xA) &&
        (List.range (frameSlots img / period)).all (fun k => busyFor es p.1.consumer (p.1.offset + k * period) 1))

/-- The fixed durations of the crypto services (R44). -/
def cryptoBound (service : Nat) : Option Nat :=
  match service with
  | 0x0010 => some 4096 | 0x0011 => some 65536 | 0x0012 => some 131072 | 0x0013 => some 131072 | 0x0014 => some 65536
  | 0x0015 => some 16384 | _ => none

/-- The ceilings of R44. -/
def latencyCeiling (service : Nat) : Option Nat :=
  match service with
  | 0x0001 => some 131072 | 0x0002 => some 65536 | 0x0003 => some 4096 | 0x0004 => some 4096 | 0x0005 => some 65536
  | 0x0006 => some 131072 | 0x0007 => some 524288 | _ => none

/-- The period of an event's polls (R43). -/
def pollPeriod (img : Bytes) (e : Nat) : Nat := match (pollsOf img)[e]? with | some p => 2 ^ (p.code + 9) | none => 0

/-- The computed bound of notice delivery on a channel: two BDG periods to Badger, 512 slots to the PMU (R65); to a fabric master the
longest wait for a poll of the side's event, which reads the notice (R46, R64). -/
def noticeBound (m : Manifest) (img : Bytes) (ch : Nat) : Nat :=
  match m.mailbox.find? (fun c => c.channel == ch) with
  | none => 0
  | some c =>
    let side := fun (d : SideDecl) =>
      if d.identity = 5 then 3907 else if d.identity = 6 then 512 else match d.event with | some n => pollPeriod img (200 + n) | none => 0
    if c.shared then max (side c.sideA) (side c.sideB) else side c.sideB

/-- The tenant windows in order of start slot (R328): their start slots. -/
def tenantStarts (img : Bytes) : List Nat := (((windowsOf img).filter (fun w => w.2 == 3)).map (·.1)).mergeSort

/-- The computed bound of a guaranteed leaf fetch of a lane (R46): from the poll of its requests before the first window assigned to it,
that window one lap later, its Cipher interval, and 64 slots for the cache insert and the publication; 0 for a lane without a window. -/
def fetchBound (m : Manifest) (img : Bytes) (lane : Nat) : Nat :=
  match evenFirst.find? (fun k => (quotaOwner m.inOrder k).map (·.val) == some lane) with
  | none => 0
  | some k =>
    match (tenantStarts img)[k]?, (pollsOf img)[8 + 8 * lane]? with
    | some start, some p => (start + 65536 - p.offset) % 2 ^ (p.code + 9) + 65536 + 4096 + 64
    | _, _ => 0

/-- The computed bound of a flag publication of a lane (R46, R282): the longest wait for a poll of the lane's sources, in whose slot the
flag byte is published. -/
def publishBound (img : Bytes) (lane : Nat) : Nat :=
  ((List.range 8).map (fun e => pollPeriod img (8 + 8 * lane + e))).foldl max 0

/-- The bound that check A10 computes for a service (R46); the services whose programs decide it are left open (log 12). -/
def computedBound (m : Manifest) (img : Bytes) (service qualifier : Nat) : Nat :=
  match service with
  | 1 => fetchBound m img qualifier
  | 3 => publishBound img qualifier
  | 4 => noticeBound m img qualifier
  | _ => Config.latencyBound img service qualifier

/-- A10 Latency: an entry of a service outside the table fails (DEDUCED, log 177). -/
def checkA10 (m : Manifest) (img : Bytes) : Bool :=
  let ls := latencyOf img
  let lanes := (byteAt img 27).toNat
  let one := fun (svc q : Nat) => decide ((ls.filter (fun l => l.1 == svc && l.2.1 == q)).length = 1)
  (sectionBytes img 4).length % 8 == 0 &&
    ls.all (fun l => match cryptoBound l.1 with
      | some b => l.2.2 == b
      | none => match latencyCeiling l.1 with
        | some c => decide (l.2.2 ≤ c) && decide (computedBound m img l.1 l.2.1 ≤ l.2.2)
        | none => false) &&
    [1, 2, 3].all (fun svc => (List.range lanes).all (fun q => one svc q)) &&
    m.mailbox.all (fun c => one 4 c.channel) &&
    [0x0005, 0x0006, 0x0007, 0x0010, 0x0011, 0x0012, 0x0013, 0x0014, 0x0015].all (fun svc => decide ((ls.filter (fun l => l.1 == svc)).length = 1))

/-- A11 Manifest fit. -/
def checkA11 (m : Manifest) (img : Bytes) : Bool :=
  decide (m.tenants.length ≤ (byteAt img 27).toNat) && decide ((m.tenants.map (·.quota)).sum ≤ 24) &&
    decide ((m.tenants.map (·.denShare)).sum ≤ 80) && m.mailbox.all (fun c => (latencyOf img).any (fun l => l.1 == 4 && l.2.1 == c.channel))

/-- Whether declarations lie in the working SRAM and do not overlap (A12). -/
def declsApart (ds : List StateDecl) : Bool :=
  ds.all (fun d => decide (d.addr + d.len ≤ 65536)) &&
    (ds.zipIdx).all (fun p => (ds.zipIdx).all (fun q =>
      p.2 == q.2 || decide (p.1.addr + p.1.len ≤ q.1.addr) || decide (q.1.addr + q.1.len ≤ p.1.addr)))

/-- The form of section 5 (R45, A12). -/
def section5Form (img : Bytes) : Bool :=
  let b := sectionBytes img 5
  decide (b.length = 4 + 12 * declCount img + 16 * mapCount img) &&
    (pieces 12 (slice b 4 (12 * declCount img))).all (fun e => decide ((byteAt e 1).toNat ≤ 1) && decide (field e 2 2 = 0)) &&
    (pieces 16 (slice b (4 + 12 * declCount img) (16 * mapCount img))).all (fun e =>
      decide (1 ≤ (byteAt e 0).toNat) && decide ((byteAt e 0).toNat ≤ 3) && allBytes 0 (slice e 1 3))

/-- The map part of A12 against the running schedule: one entry for each carry declaration, from its start and for its whole length, and no
other entry (DEDUCED, log 175). -/
def mapFits (running : Schedule) (img : Bytes) : Bool :=
  let carried := running.decls.filter (·.carry)
  let maps := mapsOf img
  slice img 36 16 == running.digest.take 16 &&
    carried.all (fun d => decide ((maps.filter (fun x => x.pred == d.addr)).length = 1)) &&
    maps.all (fun x => (declsOf img).any (fun d => decide (d.addr ≤ x.own) && decide (x.own + x.len ≤ d.addr + d.len))) &&
    maps.all (fun x => match carried.find? (fun d => d.addr == x.pred) with
      | some d => if x.transform = 3 then decide (d.len ≤ x.len) else x.len == d.len
      | none => false)

/-- A12 State; a predecessor that is not zero with HANDOVER clear fails here (R36; DEDUCED, log 178). -/
def checkA12 (running : Option Schedule) (img : Bytes) : Bool :=
  let handover := (byteAt img 15).getLsbD 1
  section5Form img && declsApart (declsOf img) && (handover || (mapCount img == 0 && allBytes 0 (slice img 36 16))) &&
    (match running with
     | some r => !handover || mapFits r img
     | none => true)

/-- A13 Recovery. -/
def checkA13 (fromVault : Bool) (img : Bytes) : Bool :=
  let rec_ := (byteAt img 15).getLsbD 0
  (!rec_ || decide (imageLength img ≤ 40960)) && (!fromVault || rec_)

/-- The lowest-numbered failed check, 0 when the image is admitted (R46, R47). -/
def admission (m : Manifest) (running : Option Schedule) (fromVault : Bool) (img : Bytes) : Nat :=
  if !checkA1 img then 1
  else if !checkA2 img then 2
  else if !checkA3 img then 3
  else if !checkA4 img then 4
  else if scheduleDigest img ≠ m.scheduleDigest then 5
  else if !checkA6 img then 6
  else if !checkA7 img then 7
  else if !checkA8 img then 8
  else if !checkA9 img then 9
  else if !checkA10 m img then 10
  else if !checkA11 m img then 11
  else if !checkA12 running img then 12
  else if !checkA13 fromVault img then 13
  else 0

end Sys2Proof.Machine
end

