-- ==== Sys2Proof/Machine/InstallOps.lean ====
section
/-!
DEFINITION. Installs: trial records (R421, R422), the install state record (R417), the checks I1–I4 (R407–R415), what an install
writes (R416, R420, R198) and what follows its ledger update (R418, R419).
-/
namespace Sys2Proof.Machine

/-! ### Trial records (R421) -/

/-- Offsets of a trial record, its root copy and its tag. -/
def trialAt (t : TSlot) (c : Nat) : Nat := 0x13000 + 128 * t.val + 64 * c
def trialRootAt (t : TSlot) (c : Nat) : Nat := 0x13800 + 64 * t.val + 32 * c
def trialTagAt (t : TSlot) (c : Nat) : Nat := 0x13C00 + 64 * t.val + 32 * c

/-- A trial record decoded, with its root copy (R421). -/
structure Trial where
  seq : Nat
  onTrial : Bool
  starts : Nat
  generation : Nat
  previous : Nat
  highest : Nat
  previousVersion : Nat
  previousDigest : Bytes
  version : Nat
  root : Bytes
deriving DecidableEq, Repr

/-- No trial and no previous generation (R421). -/
def Trial.none : Trial := ⟨0, false, 0, 0, 0, 0, 0, zeros 16, 0, zeros 32⟩

/-- The 64 bytes of a trial record (R421). -/
def Trial.bytes (r : Trial) : Bytes :=
  be 4 r.seq ++ [if r.onTrial then 1 else 0, BitVec.ofNat 8 r.starts] ++ be 2 r.generation ++ be 2 r.previous ++ be 2 r.highest ++
    be 4 r.previousVersion ++ fit 16 0 r.previousDigest ++ be 4 r.version ++ zeros 28

/-- The tag of a record with its root copy (R421). -/
def State.trialTag (s : State) (b root : Bytes) : Bytes := s.mac .vaultIntegrity "BX4016 TRIAL" (b ++ root) 32

/-- One of the two records when its tag is valid. -/
def State.trialCopy? (s : State) (t : TSlot) (c : Nat) : Option Trial :=
  let b := s.vaultBytes (trialAt t c) 64
  let root := s.vaultBytes (trialRootAt t c) 32
  if s.vaultBadIn (trialAt t c) 64 || s.vaultBadIn (trialRootAt t c) 32 || s.vaultBadIn (trialTagAt t c) 32 || s.integrityKey.isNone then
    Option.none
  else if s.vaultBytes (trialTagAt t c) 32 = s.trialTag b root then
    some { seq := field b 0 4, onTrial := byteAt b 4 == 1, starts := (byteAt b 5).toNat, generation := field b 6 2
           previous := field b 8 2, highest := field b 10 2, previousVersion := field b 12 4, previousDigest := slice b 16 16
           version := field b 32 4, root := root }
  else Option.none

/-- The live trial record and its place; none when both are invalid (R421). -/
def State.liveTrial? (s : State) (t : TSlot) : Option (Nat × Trial) :=
  match s.trialCopy? t 0, s.trialCopy? t 1 with
  | some a, some b => if a.seq < b.seq then some (1, b) else some (0, a)
  | some a, Option.none => some (0, a)
  | Option.none, some b => some (1, b)
  | Option.none, Option.none => Option.none

/-- The trial state of a slot (R421). -/
def State.trial (s : State) (t : TSlot) : Trial := match s.liveTrial? t with | some (_, r) => r | Option.none => Trial.none

/-- The inactive record written with `sequence` + 1: root copy, record, tag (R421). -/
def State.writeTrial (s : State) (t : TSlot) (r : Trial) : State :=
  let (place, seq) := match s.liveTrial? t with
    | some (c, old) => (1 - c, old.seq + 1)
    | Option.none => (0, 1)
  let r := { r with seq := seq }
  let s := (s.vaultWrite (trialRootAt t place) (fit 32 0 r.root)).vaultWrite (trialAt t place) r.bytes
  s.vaultWrite (trialTagAt t place) (s.trialTag r.bytes (fit 32 0 r.root))

/-- The running generation of a slot, 0 with none installed (R418). -/
def State.runningGen (s : State) (t : TSlot) : Nat :=
  if entryInstalled s.ledger t then entryImageGen s.ledger t else 0

/-- The generation that staging takes (R295, R297, R422). -/
def State.stagedGen (s : State) (t : TSlot) : Nat :=
  let r := s.trial t
  if s.runningGen t = 0 then 0 else if r.onTrial then r.generation else s.runningGen t

/-- Whether a tenant is on trial with an entry in the live ledger that a revert can put back (R176, R422). -/
def State.mayRevert (s : State) (t : TSlot) : Bool := (s.trial t).onTrial && s.runningGen t != 0

/-- The smallest number above the highest generation used whose parity differs from the running one (R418); the ledger's
entry counts as a generation used although an export or a wipe has cleared INSTALLED. -/
def State.nextGen (s : State) (t : TSlot) : Nat :=
  let h := max (s.trial t).highest (entryImageGen s.ledger t)
  if (h + 1) % 2 = s.runningGen t % 2 then h + 2 else h + 1

/-! ### Form (R409–R412, R415) -/

/-- What a manifest is checked against in this start (R222, R228). -/
def State.formEnv (s : State) : FormEnv :=
  { life := s.boot.life, unit := s.unitNumber, linkOff := s.link.role == .off, member := s.link.role == .member || s.link.role == .lead
    quadA := s.boot.astrap, alertB := s.boot.alertbStrap, sectors0 := s.sectorsOf 0, sectors1 := s.sectorsOf 1 }

/-- A body split after its first CBOR item: statement and what follows (R410–R412). -/
def splitFirst (b : Bytes) : Option (Bytes × Bytes) :=
  match cborItem (3 * b.length + 4) b with
  | some (_, _, rest) => some (b.take (b.length - rest.length), rest)
  | none => none

/-- The envelope and encoding of an install statement or order (R410, R412). -/
def statementForm (life : LifeCycle) (b : Bytes) : Bool := decide (b.length ≤ 1024) && envelopeForm life b && encodingForm b

/-- `unit binding` in its types (R217). -/
def bindingTypes (c : Cbor) : Bool :=
  c.bytesIn 16 16 || c.arrOf 1 64 (fun u => u.bytesIn 16 16) || (match c with | .null => true | _ => false)

/-- Whether a binding admits a unit number (R217). -/
def bindingAdmits (c : Cbor) (unit : Bytes) : Bool :=
  match c with
  | .bytes u => u == unit
  | .arr us => (us.filterMap Cbor.bytes?).contains unit
  | .null => true
  | _ => false

/-- The payload of an install statement (R410). -/
def imageStatementForm (p : Cbor) (slot imageLen : Nat) : Bool :=
  p.fields [(1, fun x => x.inRange 1 1), (2, bindingTypes), (3, fun x => x.inRange 0 15), (4, fun x => x.inRange 0 0xFFFFFFFF),
    (5, fun x => x.inRange 0 327680), (6, fun x => x.bytesIn 32 32)] && p.hasAll [1, 2, 3, 4, 5, 6] &&
    decide (p.natAt 3 = some slot) && decide (p.natAt 5 = some imageLen)

/-- The payload of a migration order (R412). -/
def orderStatementForm (p : Cbor) : Bool :=
  p.fields [(1, fun x => x.inRange 4 4), (2, fun x => x.bytesIn 16 16), (3, fun x => x.inRange 0 15), (4, fun x => x.bytesIn 16 16),
    (5, fun x => x.bytesIn 8 8)] && p.hasAll [1, 2, 3, 4, 5]

/-- The parts of an install body: statement or manifest, and content (R410–R412). -/
def bodyParts (kind : Byte) (body : Bytes) : Option (Bytes × Bytes) :=
  if kind = 2 then
    let n := imageLength body
    if 128 ≤ body.length ∧ n ≤ body.length then some (body.drop n, body.take n) else none
  else splitFirst body

/-- The header's own form (R7, R409). -/
def headerForm (h : Bytes) : Bool :=
  let kind := byteAt h 4
  decide (field h 0 4 = 0x42584958) && byteAt h 5 == 1 && (kind == 1 || kind == 2 || kind == 3) &&
    (if kind = 2 then byteAt h 7 == 0xFF else decide ((byteAt h 7).toNat < 16)) && byteAt h 6 == 0 && allBytes 0 (slice h 0x0C 52)

/-- I1 (R415). -/
def State.checkI1 (s : State) (i : Install) (body : Bytes) : Bool :=
  headerForm i.object && decide (body.length = i.bodyLen) &&
    (match bodyParts i.kind body with
     | none => false
     | some (stmt, content) =>
       if i.kind = 2 then imageLengthOk content && allBytes 0 (content.drop (content.length - 32))
       else match payloadOf stmt with
       | none => false
       | some p =>
         if i.kind = 1 then statementForm s.boot.life stmt && imageStatementForm p i.slot.toNat content.length
         else statementForm s.boot.life stmt && content.isEmpty && orderStatementForm p && decide (p.natAt 3 = some i.slot.toNat))

/-- The operator root that a state asks of a signer (R195, R212). -/
def State.signerRoot (s : State) : Option Bytes := if s.boot.life = .fielded then some s.operatorRootHash else none

/-- Whether the elements are located but name no key: M1 then finds the fault (R212). -/
def keyless (stmt : Bytes) : Bool := match locate stmt with | some x => x.kid?.isNone | none => false

/-- I2 and the signature stage (R195, R212): Fielded asks for it, Integrator marks its lack, the others do not check. -/
def State.signatureStage (s : State) (stmt : Bytes) : Bool × Bool :=
  match s.boot.life with
  | .fielded => (keyless stmt || signatureGood s.signerRoot stmt, false)
  | .integrator => (true, !signatureGood none stmt)
  | _ => (true, false)

/-- The built-in recovery manifest for an image (R196). -/
def recoveryManifest (digest : Bytes) : Manifest :=
  { binding := .any, scheduleDigest := digest, tenants := [], link := none, badger := none, spillRecords := 0, batteryStep := 100
    counterShift := 4, actuator := none, order := [], recovery := [], mailbox := [] }

/-- Two payloads with the same bytes under a key (R424). -/
def sameKey (a b : Cbor) (k : Nat) : Bool :=
  match a.get? k, b.get? k with
  | some x, some y => reprStr x == reprStr y
  | none, none => true
  | _, _ => false

/-- I3 for a schedule pair: its reason and check number, none when it passes (R196, R415, R420, R424). -/
def State.pairFit (s : State) (manifest image : Bytes) : Option (Byte × Nat) :=
  let handover := (byteAt image 15).getLsbD 1
  if (byteAt image 15).getLsbD 0 then
    let key3 := ((payloadOf manifest).bind (fun p => p.bytesAt 3)).getD []
    let n := admission (recoveryManifest key3) s.running.schedule true image
    if n = 0 then none else some (Code.insAdmit, n)
  else
    let m := manifestCheck s.formEnv manifest
    if m ≠ 0 then some (Code.insMform, m)
    else match decodeManifest manifest with
      | none => some (Code.insMform, 2)
      | some d =>
        let n := admission d s.running.schedule false image
        if n ≠ 0 then some (Code.insAdmit, n)
        else if handover then
          match payloadOf manifest, payloadOf s.running.manifestBytes with
          | some a, some b => if [2, 4, 5, 9].all (sameKey a b) then none else some (Code.insMismatch, 0)
          | _, _ => some (Code.insMismatch, 0)
        else none

/-- The session a unit number has. -/
def State.unitSession? (s : State) (u : Bytes) : Option Session := s.session? (.unit u)

/-- The virtual sectors of a tenant's data region that are written, none when a map leaf fails its check (R431). -/
def State.writtenSectors (s : State) (m : Manifest) (t : TSlot) (d : TenantDecl) : Option (List Nat) :=
  ((List.range d.leavesM).mapM (s.metaLeaf? m t d .map)).map (fun maps =>
    ((List.range d.sectorsD).filter (fun k => (mapEntry (maps.getD (mapLeafOf k) []) (k % 128)).1 != unwritten)).map (· + d.denShare))

/-- The blocks of a parcel with W written data sectors (R431) and the fragments of its bytes (R351, R430). -/
def parcelBlocks (d : TenantDecl) (w : Nat) : Nat := 1 + 4 * d.denShare + ceilDiv (2 * w) 1024 + 4 * w
def parcelFragments (d : TenantDecl) (w orderLen : Nat) : Nat := ceilDiv (0x56 + orderLen + 1040 * parcelBlocks d w) 240

/-- R429 at the source: the order names this unit, a peer with a session, the own group, a released tenant not on trial, and the
parcel fits its fragments. -/
def State.orderFits (s : State) (p : Cbor) (orderLen : Nat) : Bool :=
  let t := slotOfNat ((p.natAt 3).getD 0)
  p.bytesAt 2 == some s.unitNumber && (s.unitSession? ((p.bytesAt 4).getD [])).isSome &&
    (match s.running.manifest with
     | some m => (m.link.map (·.group)) == p.bytesAt 5 && (match s.decl? t with
       | some d => decide (parcelFragments d ((s.writtenSectors m t d).getD []).length orderLen ≤ 65535)
       | none => false)
     | none => false) &&
    (s.decl? t).isSome && (s.tenant t).life == .released && !(s.trial t).onTrial

/-- I3 (R415). -/
def State.checkI3 (s : State) (i : Install) (stmt content : Bytes) : Option (Byte × Nat) :=
  if i.kind = 2 then s.pairFit stmt content
  else match payloadOf stmt with
  | none => some (Code.insForm, 0)
  | some p =>
    if i.kind = 1 then
      match s.decl? (slotOfNat i.slot.toNat) with
      | some d => if bindingAdmits ((p.get? 2).getD .other) s.unitNumber ∧ content.length ≤ 4096 * d.denShare then none
        else some (Code.insBinding, 0)
      | none => some (Code.insBinding, 0)
    else if s.orderFits p stmt.length then none else some (Code.insMismatch, 0)

/-- I4 (R415, R408). -/
def State.checkI4 (s : State) (i : Install) : Option Byte :=
  let t := slotOfNat i.slot.toNat
  if (i.kind = 1 ∨ i.kind = 2) ∧ allSlots.any (fun k => (s.tenant k).frozen) then some Code.frozen
  else if i.kind ≠ 2 ∧ (s.tenant t).frozen then some Code.frozen
  else if i.kind = 1 ∧ (s.trial t).onTrial then some Code.notReady
  else if i.kind = 1 ∧ 65535 < s.nextGen t then some Code.policy
  else if s.power.commitLow then some Code.lowbat
  else none

/-! ### The end of an install -/

/-- The header as the device leaves it goes to the intake it came by (R413, R414). -/
def State.returnHeader (s : State) (i : Install) (h : Bytes) : State :=
  match i.intake with
  | some t => s.modTenant t (fun x => { x with headerWait := some h })
  | none => if i.carrier = 2 then { s with update := { s.update with intakeHeader := h, intake := none } } else s

/-- The version and digest of an object for its records. -/
def Install.who (i : Install) : Byte := if i.kind = 2 then 0xF0 else i.slot

/-- An install refused (R415): header, INSTALL_REFUSED, nothing else changed. -/
def State.refuseInstall (s : State) (reason : Byte) (check : Nat) : State :=
  match s.update.install with
  | none => s
  | some i =>
    let s := { s with update := { s.update with install := none, flashTasks := [], flashEnd := none } }
    let s := if i.kind = 1 ∧ i.generation ≠ 0 then s.dropKey (.imageLeaf (slotOfNat i.slot.toNat) i.generation) else s
    let s := s.returnHeader i (headerWith i.object 0x04 reason 0 check)
    s.installRefused i.kind i.slot i.carrier reason check i.version i.digest

/-- The open install state record (R417). -/
def installRecordAt : Nat := 0x14080

/-- The install state record written before the first flash change (R417). -/
def State.openInstall (s : State) (i : Install) : State :=
  let body := be 4 i.version ++ fit 16 0 i.digest ++ [(match i.intake with | some t => slotByte t | none => 0xFF)] ++ zeros 39
  (s.vaultWrite (installRecordAt + 4) body).vaultWrite installRecordAt [0x01, i.kind, i.carrier, if i.kind = 2 then 0xFF else i.slot]

/-- The install state record closed (R417). -/
def State.closeInstall (s : State) : State :=
  if s.vaultBytes installRecordAt 1 = [0x01] ∧ !s.vaultBadIn installRecordAt 4 then s.vaultWrite installRecordAt (zeros 4) else s

/-! ### What an install writes -/

/-- Erases of the sectors of an image copy (R416). -/
def State.copyErases (s : State) (m : Manifest) (d : TenantDecl) (g : Nat) : List FlashTask :=
  (List.range (copySectors d.denShare)).map (fun k => eraseTask (s.copyRef m d (g % 2) k))

/-- The sealed leaves of an image under a generation and their tag-table leaves (R258, R416). -/
def State.sealedImage (s : State) (t : TSlot) (d : TenantDecl) (g : Nat) (digest image : Bytes) : List Bytes × List Bytes :=
  let plain := fit (4096 * d.denShare) 0xFF image
  let leaves := (List.range (4 * d.denShare)).map (fun i => s.sealImage t g i digest (slice plain (1024 * i) 1024))
  let tags := (leaves.map (·.2)).flatten
  (leaves.map (·.1), (List.range (ceilDiv d.denShare 16)).map (fun k => fit 1024 0xFF (slice tags (1024 * k) 1024)))

/-- The page programs of an image copy: leaves, then tag tables (R258). -/
def State.copyPrograms (s : State) (m : Manifest) (d : TenantDecl) (g : Nat) (leaves tables : List Bytes) : List FlashTask :=
  let put := fun (base : Nat) (p : Bytes × Nat) =>
    let ref := s.copyRef m d (g % 2) (base + p.2 / 4)
    pageTasks (refChip ref) (refAddr ref + p.2 % 4 * 1024) p.1
  leaves.zipIdx.flatMap (put 0) ++ tables.zipIdx.flatMap (put d.denShare)

/-- The key of an image generation loaded (R162, R167). -/
def State.loadImageKey (s : State) (t : TSlot) (g : Nat) : State := s.load (.imageLeaf t g) (s.derive? 0x10 t.val g)

/-- The data leaf key of a tenant loaded for its data generation (R162, R168). -/
def State.loadDataKey (s : State) (t : TSlot) : State := s.load (.dataLeaf t) (s.derive? 0x11 t.val (entryDataGen s.ledger t))

/-- The kind 0x01 install begun (R416): record, erases, programs, and the ledger update that follows. -/
def State.beginImage (s : State) (m : Manifest) (d : TenantDecl) (i : Install) (image : Bytes) : State :=
  let t := d.slot
  let g := s.nextGen t
  let s := (s.openInstall i).loadImageKey t g
  let (leaves, tables) := s.sealedImage t d g i.digest image
  let h := s.ledger
  let flags := 1 + (if s.boot.marks.getLsbD 0 then 2 else 0)
  let entry := entryBytes g (max 1 (entryDataGen h t)) flags i.digest (s.imageRoot t g tables)
  { s with update := { s.update with
      install := some { i with generation := g }, flashTasks := s.copyErases m d g ++ s.copyPrograms m d g leaves tables
      flashEnd := some ⟨[(entryAt t, entry)], 0x01, .image⟩ } }

/-- The flash slots FA and FB in the order in which the source order lists them (R420). -/
def State.slotOrder (s : State) : List Source :=
  let l := s.boot.order.filter (fun x => x == .fa || x == .fb)
  if l.contains .fa then if l.contains .fb then l else l ++ [.fb] else if l.contains .fb then l ++ [.fa] else [.fa, .fb]

/-- The address of a flash slot on chip 0 (R253) and its place among the schedule entries (R174). -/
def slotAddr (x : Source) : Nat := if x = .fb then 0x40000 else 0x10000
def slotEntry (x : Source) : Nat := if x = .fb then 1 else 0

/-- A schedule image with its seal in place (R39, R198). -/
def State.sealSchedule (s : State) (image : Bytes) : Bytes :=
  image.take (imageLength image - 32) ++ (match s.key? .scheduleSeal with | some k => scheduleSeal k image | none => zeros 32)

/-- The stored form of a manifest (R214). -/
def State.storeManifest (s : State) (b : Bytes) : Bytes :=
  let body := be 4 b.length ++ fit (ceilDiv b.length 4 * 4) 0 b
  body ++ s.mac .imageSeal "BX4016 MANIFEST" body 32

/-- The erases and programs that put a sealed pair into a flash slot (R214, R253). -/
def slotTasks (x : Source) (image stored : Bytes) : List FlashTask :=
  (List.range 3).map (fun k => (⟨.erase64k, 0, slotAddr x + 65536 * k, []⟩ : FlashTask)) ++ pageTasks 0 (slotAddr x) image ++
    pageTasks 0 (slotAddr x + 0x20000) stored

/-- A schedule entry and a manifest entry of the ledger (R174). -/
def scheduleEntry (image : Bytes) : Bytes := (scheduleDigest image).take 16 ++ be 4 (field image 16 4) ++ zeros 12
def manifestEntry (manifest : Bytes) : Bytes := manifestPrefix manifest ++ zeros 16

/-- The image and stored manifest that a flash slot holds, as they stand (R193, R214). -/
def State.slotContent (s : State) (x : Source) : Bytes × Bytes :=
  let head := s.raw 0 (slotAddr x) 128
  let n := if imageLengthOk head then imageLength head else 128
  let len := field (s.raw 0 (slotAddr x + 0x20000) 4) 0 4
  (s.raw 0 (slotAddr x) n, s.raw 0 (slotAddr x + 0x20000) (min 16384 (36 + ceilDiv len 4 * 4)))

/-- What precedes the write of a pair into a slot: the pair that the slot holds, when it is to be kept, copied as it stands into the
other slot unless that slot's ledger entry names it (R198, R420). -/
def State.keepPair (s : State) (first second : Source) (keeps : Bytes → Bytes → Bool) : List FlashTask × List (Nat × Bytes) :=
  let (image, stored) := s.slotContent first
  let digest := (scheduleDigest image).take 16
  if keeps digest (slice stored 4 (field stored 0 4)) && !(scheduleEntryDigest s.ledger (slotEntry second) == digest) then
    (slotTasks second image stored, [(scheduleEntryAt (slotEntry second), scheduleEntry image)])
  else ([], [])

/-- The kind 0x02 install begun (R420): a RECOVERY schedule goes to the vault region, any other pair to the first flash slot. -/
def State.beginPair (s : State) (i : Install) (manifest image : Bytes) : State :=
  let s := s.openInstall i
  let sealed := s.sealSchedule image
  if (byteAt image 15).getLsbD 0 then
    let s := s.vaultWrite 0x16000 (fit 40960 0xFF sealed)
    { s with update := { s.update with install := some { i with generation := 1 }
                                       flashEnd := some ⟨[(scheduleEntryAt 2, scheduleEntry image)], 0x01, .pair⟩ } }
  else
    let first := s.slotOrder.headD .fa
    let second := if first = .fa then Source.fb else Source.fa
    let run := match s.running.schedule with | some r => r.digest.take 16 | none => []
    let (keepTasks, keepPatches) := s.keepPair first second (fun d manifest => d == run && manifest == s.running.manifestBytes)
    { s with update := { s.update with
        install := some { i with generation := 1 }, flashTasks := keepTasks ++ slotTasks first sealed (s.storeManifest manifest)
        flashEnd := some ⟨keepPatches ++ [(scheduleEntryAt (slotEntry first), scheduleEntry image), (manifestEntryAt, manifestEntry manifest)],
          0x01, .pair⟩ } }

/-- The write of R198 begun after a start from PA or PEER: into the first of FA and FB whose attempt failed, or the first of them in
the order with its pair kept when the ledger names it. -/
def State.beginReseal (s : State) (manifest image : Bytes) : State :=
  let failed := s.slotOrder.filter (fun x => s.boot.failed.contains x)
  let first := match failed with | x :: _ => x | [] => s.slotOrder.headD .fa
  let second := if first = .fa then Source.fb else Source.fa
  let keeps := fun (d _ : Bytes) => failed.isEmpty && scheduleEntryDigest s.ledger (slotEntry first) == d
  let i : Install :=
    { carrier := if s.boot.source = some .peer then 5 else 4, intake := none, kind := 2, slot := 0xFF, bodyLen := image.length + manifest.length
      object := [], nextLeaf := 0, checked := true, version := field image 16 4, digest := (scheduleDigest image).take 16, generation := 1 }
  let s := s.openInstall i
  let (keepTasks, keepPatches) := s.keepPair first second keeps
  { s with update := { s.update with
      install := some i, pendingPair := none
      flashTasks := keepTasks ++ slotTasks first (s.sealSchedule image) (s.storeManifest manifest)
      flashEnd := some ⟨keepPatches ++ [(scheduleEntryAt (slotEntry first), scheduleEntry image), (manifestEntryAt, manifestEntry manifest)],
        0x01, .pair⟩ } }

/-! ### After the ledger update -/

/-- INSTALL recorded and the header done (R413, R417, R468). -/
def State.installDone (s : State) (i : Install) (generation : Nat) : State :=
  let s := { s with update := { s.update with install := none, flashTasks := [], flashEnd := none } }
  let s := s.returnHeader i (headerWith i.object 0x03 0 generation 0)
  s.recordThen Code.install i.who ([i.kind, i.carrier] ++ be 2 generation ++ be 4 i.version ++ fit 12 0 i.digest) .closeInstall

/-- The recovery source that the manifest names for a held tenant (R209, R225). -/
def State.recoverySource? (s : State) (t : TSlot) : Option RecoverySource :=
  match s.running.manifest with
  | some m => (m.recovery.find? (fun r => r.slot == t)).bind (·.source)
  | none => none

/-- Whether an install came through the source that the manifest names (R209). -/
def State.isRecovery (s : State) (t : TSlot) (i : Install) : Bool :=
  match s.recoverySource? t with
  | some (.intake n) => i.carrier == 1 && i.intake == some n
  | some .peer => i.carrier == 3
  | some .portA => i.carrier == 2
  | none => false

/-- A kind 0x01 install that committed (R419, R422): trial record, INSTALL, and the restart or re-staging of its tenant. `old` is
the ledger before the update. -/
def State.imageInstalled (s : State) (i : Install) (old : Bytes) : State :=
  let t := slotOfNat i.slot.toNat
  let r := s.trial t
  let g := i.generation
  let ran := if entryInstalled old t then entryImageGen old t else 0
  let next : Trial :=
    if ran = 0 then { Trial.none with highest := max r.highest g, version := i.version }
    else { seq := 0, onTrial := true, starts := 0, generation := g, previous := ran, highest := max r.highest g
           previousVersion := r.version, previousDigest := entryDigest old t, version := i.version, root := entryRoot old t }
  let s := (s.writeTrial t next).installDone i g
  let x := s.tenant t
  if x.life = .released ∨ (x.life = .held ∧ s.isRecovery t i) then s.modTenant t (fun x => { x with waiting := 1 }) else s

/-- A pair that committed (R420, R425): with HANDOVER set it awaits the handover. -/
def State.pairInstalled (s : State) (i : Install) (pair : Option (Bytes × Bytes)) : State :=
  let s := s.installDone i 0
  match pair with
  | some (m, img) => if (byteAt img 15).getLsbD 1 ∧ !(byteAt img 15).getLsbD 0 then { s with running := { s.running with handover := some (m, img) } } else s
  | none => s

/-- The programs and erases of an install ended: the content check I5, then the ledger update is asked for (R415, R416, R420). -/
def State.flashWorkDone (s : State) : State :=
  match s.update.flashEnd with
  | none => s
  | some req =>
    let bad := match s.update.install, req.after with
      | some i, .image => match bodyParts i.kind (i.object.drop 64) with
        | some (stmt, image) => ((payloadOf stmt).bind (fun p => p.bytesAt 6)) != some (sha3 image)
        | none => true
      | _, _ => false
    if bad then s.refuseInstall Code.insDigest 0
    else { s with update := { s.update with flashEnd := none, ledger := s.update.ledger ++ [req] } }

/-- `revert()` of R422 as a ledger update asked for: the previous generation, digest prefix and root become live. -/
def State.askRevert (s : State) (t : TSlot) : State :=
  let r := s.trial t
  let h := s.ledger
  let entry := entryBytes r.previous (entryDataGen h t) (if entryUnsigned h t then 3 else 1) r.previousDigest r.root
  if s.update.ledger.any (fun q => q.after == .revert t) then s
  else { s with update := { s.update with ledger := s.update.ledger ++ [LedgerReq.mk [(entryAt t, entry)] 0x06 (.revert t)] } }

/-- TRIAL_REVERT after its ledger update (R422, R468). -/
def State.reverted (s : State) (t : TSlot) (cause : Byte) : State :=
  let r := s.trial t
  let s := s.writeTrial t { r with onTrial := false, starts := 0, generation := 0, previous := 0, version := r.previousVersion }
  s.record Code.trialRevert (slotByte t)
    (be 2 r.generation ++ be 2 r.previous ++ be 4 r.version ++ be 4 r.previousVersion ++ [BitVec.ofNat 8 r.starts, cause])

end Sys2Proof.Machine
end

