-- ==== Sys2Proof/Machine/ParcelOps.lean ====
section
/-!
DEFINITION. The unit's own requests on the link (R348, R365) and parcels: records, keys and blocks (R430, R431), export and its
end (R430, R433), the checks and writes of an import (R432).
-/
namespace Sys2Proof.Machine

/-! ### The unit's own requests (R348, R365) -/

/-- The next request identifier; 0x00 is for other frames (R348). -/
def State.newRequest (s : State) : Byte × State :=
  let r := if s.link.nextRequest = 0 then 1 else s.link.nextRequest
  (r, { s with link := { s.link with nextRequest := r + 1 } })

/-- A request sent that waits for its reply; one waits at a time (R365). -/
def State.ask (s : State) (dest : Dest) (kind : Nat) (sealed : Bool) (payload : Bytes) : State :=
  if s.link.opened ∧ s.link.request.isNone then
    let (r, s) := s.newRequest
    let f := outFrame dest kind r sealed payload
    let s := s.send f
    { s with link := { s.link with request := some ⟨f, 0, none, none⟩ } }
  else s

/-- The next transfer identifier (R351). -/
def State.newTransfer (s : State) : BitVec 16 × State :=
  (s.link.nextTransfer, { s with link := { s.link with nextTransfer := s.link.nextTransfer + 1 } })

/-- A PARCEL payload (R351). -/
def parcelPayload (content : Byte) (transfer : BitVec 16) (index count : Nat) (bytes : Bytes) : Bytes :=
  [content] ++ be 2 transfer.toNat ++ be 2 index ++ be 2 count ++ bytes

/-- Fragment `i` of bytes (R351). -/
def fragment (bytes : Bytes) (i : Nat) : Bytes := slice bytes (240 * i) 240

/-- Whether every fragment of a transfer has arrived. -/
def Transfer.complete (x : Transfer) : Bool := decide (0 < x.count) && (List.range x.count).all (fun i => x.parts.any (fun p => p.1 == i))

/-- The bytes of a transfer in order. -/
def Transfer.bytes (x : Transfer) : Bytes :=
  (List.range x.count).flatMap (fun i => match x.parts.find? (fun p => p.1 == i) with
    | some p => p.2
    | none => [])

/-- A fragment stored once (R432). -/
def Transfer.store (x : Transfer) (i : Nat) (bytes : Bytes) : Transfer :=
  if x.parts.any (fun p => p.1 == i) then x else { x with parts := x.parts ++ [(i, bytes)] }

/-! ### Reset lines (R25, R419, R430) -/

/-- A tenant's PRST line driven low, or high while it is released. -/
def State.setLine (s : State) (d : TenantDecl) (low : Bool) : State :=
  match d.resetLine with
  | some i => { s with pads := { s.pads with prst := s.pads.prst.set i (if low then .low else .high) } }
  | none => s

/-! ### Parcel state records (R430, R432) -/

/-- Where the records of an export and of an import lie. -/
def exportRecordAt : Nat := 0x14000
def importRecordAt : Nat := 0x14040

/-- A parcel state record written: step, slot, transfer, the other unit (places DESIGN CHOICE, log 22). -/
def State.writeParcel (s : State) (place step : Nat) (slot : Byte) (transfer : BitVec 16) (peer : Bytes) : State :=
  s.vaultWrite place ([BitVec.ofNat 8 step, slot] ++ be 2 transfer.toNat ++ fit 16 0 peer ++ zeros 44)

/-- Whether a parcel state record is open; an erased or invalid one is not. -/
def State.parcelOpen (s : State) (place : Nat) : Bool :=
  !s.vaultBadIn place 20 && decide (1 ≤ (byteAt (s.vaultBytes place 1) 0).toNat) && decide ((byteAt (s.vaultBytes place 1) 0).toNat ≤ 4)

/-- A parcel state record cleared (R433). -/
def State.clearParcel (s : State) (place : Nat) : State := if s.parcelOpen place then s.vaultWrite place (zeros 64) else s

/-- The reason of an abort for which the spec names none: free among the reasons that R508 assigns, as no other is emitted (R507; log 2). -/
def State.freeReason (s : State) : Byte × State :=
  let (i, s) := s.freeBelow Code.reasons.length
  (Code.reasons.getD i 0x01, s)

/-- PARCEL_ABORT recorded (R433, R468). -/
def State.parcelAbort (s : State) (slot role reason : Byte) (peer : Bytes) : State :=
  s.record Code.parcelAbort slot ([role, reason] ++ fit 16 0 peer)

/-- A parcel found open at a start (R433). -/
def State.parcelStart (s : State) (place : Nat) (role : Byte) : State :=
  if s.parcelOpen place then
    let b := s.vaultBytes place 20
    (s.parcelAbort (byteAt b 1) role Code.insPower (slice b 4 16)).clearParcel place
  else s

/-! ### Keys and blocks (R430, R431) -/

/-- KP (R430). -/
def parcelKey (z source target : Bytes) (boot : Nat) (eph order : Bytes) : Bytes :=
  kmac z "BX4016 PARCEL" (source ++ target ++ be 4 boot ++ eph ++ (sha3 order).take 16) 32

/-- The parcel header (R431). -/
def parcelHeader (slot : Byte) (n : Nat) (source target : Bytes) (boot : Nat) (eph order : Bytes) : Bytes :=
  be 4 0x42585043 ++ [0x01, slot, 0, 0] ++ be 4 n ++ fit 16 0 source ++ fit 16 0 target ++ be 4 boot ++ fit 33 0 eph ++ zeros 3 ++
    be 2 order.length ++ order

/-- The additional data of block `n` (R431). -/
def blockAad (header : Bytes) (n : Nat) : Bytes := (sha3 header).take 16 ++ be 4 n

/-- A block sealed: 1,040 bytes (R431). -/
def parcelSeal (key header : Bytes) (n : Nat) (plain : Bytes) : Bytes :=
  let c := gcmSeal key (be 4 n ++ zeros 8) (blockAad header n) (fit 1024 0 plain)
  c.1 ++ c.2

/-- A block opened (R432). -/
def parcelOpenBlock (key header : Bytes) (n : Nat) (block : Bytes) : Option Bytes :=
  gcmOpen key (be 4 n ++ zeros 8) (blockAad header n) (block.take 1024) (slice block 1024 16)

/-- Block 0 (R431). -/
def State.parcelState (s : State) (t : TSlot) (w : Nat) : Bytes :=
  let digest := entryDigest s.ledger t
  let head := match s.ringRecord? (s.nextSequence - 1) with
    | some r => slice r 0 10 ++ recordTag r
    | none => zeros 26
  fit 1024 0 (be 4 (s.trial t).version ++ be 4 (Config.imageLength digest) ++ digest ++ be 4 (s.counter (tenantCounterAt t)) ++ s.ledgerId ++
    head ++ be 2 w)

/-- The plaintext blocks of a parcel, none when a leaf fails its check (R430, R431). -/
def State.parcelPlain (s : State) (m : Manifest) (t : TSlot) (d : TenantDecl) : Option (List Bytes) :=
  (s.writtenSectors m t d).bind (fun ws =>
    ((ws.flatMap (fun v => (List.range 4).map (fun i => 4 * d.dataSector v + i))).mapM (s.dataLeaf? m t d)).map (fun leaves =>
      [s.parcelState t ws.length] ++ (List.range (4 * d.denShare)).map (fun i => s.denBytes (4096 * (s.tenant t).denBase + 1024 * i) 1024) ++
        pieces 1024 ((ws.map (be 2)).flatten) ++ leaves))

/-- The whole parcel (R431). -/
def parcelBytes (key header : Bytes) (plain : List Bytes) : Bytes :=
  header ++ (plain.zipIdx.map (fun p => parcelSeal key header p.2 p.1)).flatten

/-! ### Export (R430, R433) -/

/-- The next fragment of an export sent, when no request waits (R430, R365). -/
def State.sendFragment (s : State) : State :=
  match s.update.exporting with
  | some e =>
    if e.step = 3 ∧ e.next < e.count ∧ s.link.request.isNone then
      let s := s.ask (.peer (.unit e.target)) Code.fParcel true (parcelPayload 1 e.transfer e.next e.count (fragment e.parcel e.next))
      { s with update := { s.update with exporting := some { e with lastSent := s.clock.boundaries } } }
    else s
  | none => s

/-- The parts of an export that its end drops: request, key, state record. -/
def State.dropExport (s : State) : State :=
  let mine := match s.link.request with | some r => r.frame.kind == Code.fParcel | none => false
  let s := if mine then { s with link := { s.link with request := none, outbox := s.link.outbox.filter (fun f => f.kind != Code.fParcel) } } else s
  { ((s.dropKey .parcel).clearParcel exportRecordAt) with update := { s.update with exporting := none } }

/-- The order of an export done or refused: its header goes back to the intake (R413). -/
def State.endOrder (s : State) (reason : Byte) : State :=
  match s.update.install with
  | some i =>
    if i.kind = 3 then
      let s := { s with update := { s.update with install := none } }
      s.returnHeader i (headerWith i.object (if reason = 0 then 0x03 else 0x04) reason 0 0)
    else s
  | none => s

/-- The export aborted: the tenant is unfrozen and keeps its state (R433). -/
def State.abortExport (s : State) (reason : Byte) : State :=
  match s.update.exporting with
  | none => s
  | some e =>
    let s := (s.dropExport.endOrder reason).modTenant e.slot (fun x => { x with frozen := false })
    s.parcelAbort (slotByte e.slot) 0 reason e.target

/-- E4 asked for: one ledger update clears INSTALLED and advances the data generation (R430). -/
def State.askExported (s : State) (e : Export) : State :=
  let h := s.ledger
  let entry := entryBytes (entryImageGen h e.slot) (entryDataGen h e.slot + 1) 0 (entryDigest h e.slot) (entryRoot h e.slot)
  let s := s.writeParcel exportRecordAt 4 (slotByte e.slot) e.transfer e.target
  { s with update := { s.update with exporting := some { e with step := 4 }
                                     ledger := s.update.ledger ++ [LedgerReq.mk [(entryAt e.slot, entry)] 0x02 .exported] } }

/-- A tenant made held: reset asserted, data leaf key zeroised, its cache share invalid (R207, R419, R430). -/
def State.holdTenant (s : State) (t : TSlot) (d : TenantDecl) (reason : Byte) : State :=
  let s := (s.setLine d true).dropKey (.dataLeaf t)
  s.modTenant t (fun x => { x with
    life := .held, reason := reason, cache := x.cache.map (fun l => { l with valid := false }), inserts := [], awaited := [], descriptors := [], chains := []
    denValid := [], events := [], windowEnds := none })

/-- What follows the ledger update of E4 (R430). -/
def State.exported (s : State) : State :=
  match s.update.exporting with
  | none => s
  | some e =>
    match s.decl? e.slot with
    | none => s
    | some d =>
      let s := (s.dropExport.endOrder 0).setClock (s.clock.nextLap true)
      let s := (s.holdTenant e.slot d Code.imgNotInstalled).modTenant e.slot (fun x => { x with frozen := false })
      s.record Code.parcelOut (slotByte e.slot) (fit 16 0 e.target ++ e.digest.take 4)

/-! ### Import (R432) -/

/-- A parcel read at the target. -/
structure Parcel where
  header : Bytes
  slot : TSlot
  count : Nat
  source : Bytes
  target : Bytes
  boot : Nat
  eph : Bytes
  order : Bytes
  blocks : List Bytes
deriving DecidableEq, Repr

/-- The parcel in its bytes, none when it is not of the form of R431. -/
def parcelOf (b : Bytes) : Option Parcel :=
  let n := 0x56 + field b 0x54 2
  let blocks := pieces 1040 (b.drop n)
  if 0x42585043 = field b 0 4 ∧ byteAt b 4 = 1 ∧ (byteAt b 5).toNat < 16 ∧ field b 6 2 = 0 ∧ field b 0x51 3 = 0 ∧ n ≤ b.length ∧
      blocks.length = field b 8 4 ∧ blocks.all (fun x => decide (x.length = 1040)) then
    some { header := b.take n, slot := slotOfNat (byteAt b 5).toNat, count := field b 8 4, source := slice b 0x0C 16
           target := slice b 0x1C 16, boot := field b 0x2C 4, eph := slice b 0x30 33, order := slice b 0x56 (field b 0x54 2), blocks := blocks }
  else none

/-- Steps 1 and 2 of R432: the first failed check's reason (log 23). -/
def State.importFit (s : State) (from_ : Bytes) (p : Parcel) : Option Byte :=
  match payloadOf p.order with
  | none => some Code.insForm
  | some o =>
    if !(statementForm s.boot.life p.order && orderStatementForm o) then some Code.insForm
    else if !(s.signatureStage p.order).1 then some Code.insSig
    else
      let own := match s.running.manifest with
        | some m => (m.link.map (·.group)) == o.bytesAt 5
        | none => false
      if !(own && p.source == from_ && o.bytesAt 2 == some p.source && p.target == s.unitNumber && o.bytesAt 4 == some s.unitNumber &&
          p.boot == s.boot.counter && o.natAt 3 == some p.slot.val && (s.unitSession? p.source).isSome && (s.decl? p.slot).isSome &&
          (s.tenant p.slot).life == .held && s.runningGen p.slot == 0) then some Code.insMismatch
      else if 65535 < s.nextGen p.slot then some Code.policy
      else none

/-- The plaintext blocks of a parcel under KP (R432 step 3). -/
def State.openParcel (s : State) (p : Parcel) : Option (List Bytes) :=
  match s.key? .start with
  | none => none
  | some u =>
    let z := ecdh (beNat u) p.eph
    if z.2 = .ok then
      let key := parcelKey z.1 p.source p.target p.boot p.eph p.order
      (p.blocks.zipIdx).mapM (fun b => parcelOpenBlock key p.header b.2 b.1)
    else none

/-- A parcel's content (R431). -/
structure ParcelContent where
  version : Nat
  digest : Bytes
  counter : Nat
  ledgerId : Bytes
  headSeq : Nat
  headTag : Bytes
  image : Bytes
  sectors : List Nat
  data : List Bytes
deriving DecidableEq, Repr

/-- The content of opened blocks, none when their number or the listed sectors do not fit the tenant (R431, R432). -/
def parcelContent (d : TenantDecl) (blocks : List Bytes) : Option ParcelContent :=
  let b := blocks.headD []
  let w := field b 62 2
  let lists := ceilDiv (2 * w) 1024
  let list := ((blocks.drop (1 + 4 * d.denShare)).take lists).flatten
  let sectors := (List.range w).map (fun i => field list (2 * i) 2)
  if blocks.length = parcelBlocks d w ∧ sectors.all (fun v => decide (d.denShare ≤ v) && decide (v < d.denShare + d.sectorsD)) then
    some { version := field b 0 4, digest := slice b 8 16, counter := field b 24 4, ledgerId := slice b 28 8, headSeq := field b 36 4
           headTag := slice b 46 16, image := ((blocks.drop 1).take (4 * d.denShare)).flatten, sectors := sectors.map d.dataSector
           data := blocks.drop (1 + 4 * d.denShare + lists) }
  else none

/-- A data leaf sealed under a key. -/
def sealLeaf (key : Bytes) (t : TSlot) (leaf serial : Nat) (plain : Bytes) : Bytes × Bytes :=
  gcmSeal key (dataNonce leaf serial) (dataAad t leaf) plain

/-- The 15-byte tag of a metadata leaf under a key (R261). -/
def metaTagUnder (key : Bytes) (t : TSlot) (k : LeafKind) (no : Nat) (leaf : Bytes) : Bytes :=
  (kmac key "BX4016 META" (slotByte t :: k.metaCode :: be 2 no ++ leaf) 32).take 15

/-- The data leaf key under which an import writes: that of the next data generation (R432 step 5). -/
def State.importKey (s : State) (t : TSlot) : Bytes := (s.derive? 0x11 t.val (entryDataGen s.ledger t + 1)).getD (zeros 32)

/-- The data sectors that an import has placed: sector, reference, serial, tags. -/
def ImportPlan.sealed (p : ImportPlan) (c : ParcelContent) : List (Nat × Nat × Nat × Bytes) := c.sectors.zip p.placed

/-- The tag-table and map leaves of an import, in the order of R261 (R432 step 5). -/
def ImportPlan.metas (p : ImportPlan) (d : TenantDecl) (c : ParcelContent) : List Bytes :=
  let sealed := p.sealed c
  (List.range d.leavesT).map (fun k => (List.range 16).flatMap (fun i => match sealed.find? (fun x => x.1 == 16 * k + i) with
    | some x => x.2.2.2
    | none => List.replicate 64 0xFF)) ++
  (List.range d.leavesM).map (fun k => (List.range 128).flatMap (fun i => match sealed.find? (fun x => x.1 == 128 * k + i) with
    | some x => be 3 x.2.1 ++ be 5 x.2.2.1
    | none => List.replicate 8 0xFF))

/-- The index leaves of an import over the slots that its metadata leaves took (R261). -/
def State.importIndexes (s : State) (d : TenantDecl) (c : ParcelContent) (p : ImportPlan) : List Bytes :=
  let key := s.importKey d.slot
  let entries := ((p.metas d c).zip p.slots).zipIdx.map (fun w =>
    let k := d.metaKind w.2
    metaTagUnder key d.slot k.1 k.2 w.1.1 ++ [BitVec.ofNat 8 w.1.2])
  (List.range d.leavesX).map (fun x => fit 1024 0xFF ((entries.drop (64 * x)).take 64).flatten)

/-- The slot in use of a metadata leaf before an import, as far as the live record tells it (R261–R263). -/
def State.importLive (s : State) (m : Manifest) (d : TenantDecl) (e : Nat) : Nat :=
  match s.liveRoot? d.slot with
  | none => 7
  | some (_, root) =>
    if e < d.leavesT + d.leavesM then
      match s.indexLeaf? m d.slot d (e / 64) with
      | some ix => (indexEntry ix (e % 64)).2 % 8
      | none => 7
    else rootSlot root (e - d.leavesT - d.leavesM) % 8

/-- The plan of the import in work replaced. -/
def State.setPlan (s : State) (p : ImportPlan) : State := { s with update := { s.update with plan := some p } }

/-- The pool sectors that an import holds. -/
def ImportPlan.refs (p : ImportPlan) : List Nat := p.placed.map (·.1) ++ (p.work.map (·.1)).toList

/-- The import ends without becoming live: result frame, PARCEL_ABORT, record cleared (R432, R433). -/
def State.abortImport (s : State) (reason : Byte) : State :=
  match s.update.importing with
  | none => s
  | some x =>
    let slot := byteAt (s.vaultBytes importRecordAt 2) 1
    let taken := match s.update.plan with
      | some p => p.refs
      | none => []
    let s := taken.foldl State.queueErase s
    let s := s.send (outFrame (.peer (.unit x.peer)) Code.fParcel 0 true (parcelPayload 1 x.transfer 0xFFFF 0 [reason]))
    let s := (s.dropKey .parcel).clearParcel importRecordAt
    let s := { s with update := { s.update with importing := none, flashTasks := [], flashEnd := none, plan := none } }
    s.parcelAbort slot 1 reason x.peer

/-- The writes of an import begun: the image copy first, and the ledger entry that makes everything live at the end (R432 steps 4, 5
and 7). -/
def State.beginImport (s : State) (m : Manifest) (d : TenantDecl) (x : Transfer) (c : ParcelContent) : State :=
  let t := d.slot
  let g := s.nextGen t
  let s := (s.writeParcel importRecordAt 2 (slotByte t) x.transfer x.peer).loadImageKey t g
  let (leaves, tables) := s.sealedImage t d g c.digest c.image
  let flags := 1 + (if s.boot.marks.getLsbD 0 then 2 else 0)
  let entry := entryBytes g (entryDataGen s.ledger t + 1) flags c.digest (s.imageRoot t g tables)
  { s with update := { s.update with
      flashTasks := s.copyErases m d g ++ s.copyPrograms m d g leaves tables
      flashEnd := some ⟨[(entryAt t, entry)], 0x02, .nothing⟩, plan := none } }

/-- A tenant counter raised to a value (R432 step 6). -/
def State.raiseCounter (s : State) (off v : Nat) : State :=
  if s.counter off < v then
    match s.vaultValue? off, s.vaultValue? (off + 4) with
    | none, _ => s.vaultPut off v
    | some _, none => s.vaultPut (off + 4) v
    | some a, some b => if a ≤ b then s.vaultPut off v else s.vaultPut (off + 4) v
  else s

/-- The content of the parcel in work at the target. -/
def State.importContent? (s : State) : Option (Parcel × ParcelContent) :=
  s.update.importing.bind (fun x => (parcelOf x.bytes).bind (fun p => (s.decl? p.slot).bind (fun d =>
    (s.openParcel p).bind (fun bs => (parcelContent d bs).map (fun c => (p, c))))))

/-- The serial ceiling that covers an import's next serial; a tenant whose record is lost starts one whose index leaves do not exist
(R260, R263). -/
def State.importCeiling (s : State) (t : TSlot) : State :=
  match s.liveRoot? t with
  | some _ => s.raiseCeiling t
  | none => (s.writeRoot t 256 [] (zeros 16)).modTenant t (fun x => { x with ceilingSet := true, serial := 0 })

/-- C2 of an import's sector: its leaves sealed under the next write serial and programmed (R259, R260, R264). -/
def State.importC2 (s : State) (d : TenantDecl) (c : ParcelContent) (p : ImportPlan) (r : Nat) : State :=
  let t := d.slot
  let s := s.importCeiling t
  let serial := (s.tenant t).serial
  let k := p.placed.length
  let leaves := (List.range 4).map (fun i => sealLeaf (s.importKey t) t (4 * c.sectors.getD k 0 + i) serial (c.data.getD (4 * k + i) []))
  let cipher := (leaves.map (·.1)).flatten
  let s := (s.modTenant t (fun x => { x with serial := serial + 1 })).setPlan
    { p with work := some (r, serial, (leaves.map (·.2)).flatten, cipher), blanking := false }
  { s with update := { s.update with flashTasks := pageTasks (refChip r) (refAddr r) cipher } }

/-- C1 of an import's sector (R264, R265): it waits while a sector may still become free, and ends with FULL when the pool is 0. -/
def State.importC1 (s : State) (d : TenantDecl) (c : ParcelContent) (p : ImportPlan) : State :=
  match s.nextPool with
  | none => if s.poolEmpty then (s.latch Ev.poolEmpty).abortImport Code.full else s.setPlan { p with work := none }
  | some r =>
    let s := { s with flash := { s.flash with free := s.flash.free.filter (fun q => !(q == r)), lastTaken := r } }
    if allBytes 0xFF (s.sectorBytes r 0 4096) then s.importC2 d c p r
    else
      let s := s.latch Ev.blankCheck
      let s := if s.flash.erasedHere.contains r then s.flashFault r 0x06 0x02 false else s
      let s := s.setPlan { p with work := some (r, 0, [], []), blanking := true }
      { s with update := { s.update with flashTasks := [eraseTask r] } }

/-- The sector of an import failed: it is retired and the write is tried once more from C1 (R269). -/
def State.importSectorFailed (s : State) (d : TenantDecl) (c : ParcelContent) (p : ImportPlan) (r : Nat) (cause op : Byte) : State :=
  let s := ((s.retire r).flashFault r cause op true).setPlan { p with work := none }
  if p.retried then s.abortImport Code.flashFailed else s.importC1 d c { p with work := none, blanking := false, retried := true }

/-- The ledger update of an import asked for once all is written, after the tenant counter (R432 steps 6 and 7). -/
def State.importLedger (s : State) (m : Manifest) (d : TenantDecl) (c : ParcelContent) (p : ImportPlan) : State :=
  let t := d.slot
  let indexes := s.importIndexes d c p
  let root := s.liveRoot? t
  let stored := match root with | some (_, b) => rootCeiling b | none => 0
  let ceiling := if stored ≤ (s.tenant t).serial then stored + 256 else stored
  let oldRefs := ((List.range d.leavesM).filterMap (s.metaLeaf? m t d .map)).flatMap (fun mp =>
    ((List.range 128).map (fun i => (mapEntry mp i).1)).filter (fun r => r != unwritten))
  let vacated := (p.slots.zipIdx).filterMap (fun w =>
    let live := s.importLive m d w.2
    if live / 4 = w.1 / 4 then none else some (s.metaPlace m d w.2 live).1)
  let after := AfterLedger.imported (p.slots.drop (d.leavesT + d.leavesM)) (indexes.map (fun b => (sha3 b).take 16))
    ((sha3 indexes.flatten).take 16) ceiling (p.placed.map (·.1)) (oldRefs ++ vacated)
  let s := s.raiseCounter (tenantCounterAt t) c.counter
  match s.update.flashEnd with
  | some req => { s with update := { s.update with flashEnd := none, ledger := s.update.ledger ++ [{ req with after := after }] } }
  | none => s

/-- The next write of an import (R432 step 5): data sectors in order, then the metadata leaves to their next slots (R262, R517); nothing
starts while the commit monitor is tripped (R122). -/
def State.importNext (s : State) (m : Manifest) (d : TenantDecl) (c : ParcelContent) (p : ImportPlan) : State :=
  let e := p.slots.length
  if s.power.commitLow then s.setPlan p
  else if p.placed.length < c.sectors.length then s.importC1 d c p
  else if e < d.leavesT + d.leavesM + d.leavesX then
    let content := if e < d.leavesT + d.leavesM then (p.metas d c).getD e [] else (s.importIndexes d c p).getD (e - d.leavesT - d.leavesM) []
    let live := s.importLive m d e
    match s.pickSlot m d e live (p.last.getD live) with
    | .nowhere => s.abortImport Code.flashFailed
    | .wait => s.setPlan p
    | .use n =>
      let w := s.metaPlace m d e n
      let s := s.setPlan { p with last := some n }
      { s with update := { s.update with flashTasks := pageTasks (refChip w.1) (refAddr w.1 + w.2) content } }
  else (s.setPlan p).importLedger m d c p

/-- The tasks of an import's present write all ended well: C3 of a sector, the blank check after its erase, or a metadata leaf done (R262,
R264, R269). -/
def State.importStep (s : State) (m : Manifest) (d : TenantDecl) (c : ParcelContent) : State :=
  match s.update.plan with
  | none => s.importNext m d c { placed := [], work := none, blanking := false, retried := false, slots := [], last := none }
  | some p =>
    match p.work with
    | some (r, serial, tags, cipher) =>
      if p.blanking then
        if allBytes 0xFF (s.sectorBytes r 0 4096) then s.importC2 d c p r
        else (((s.latch Ev.blankCheck).retire r).flashFault r 0x06 0x02 true).importC1 d c { p with work := none, blanking := false }
      else if s.sectorBytes r 0 4096 = cipher then
        s.importNext m d c { p with placed := p.placed ++ [(r, serial, tags)], work := none, retried := false }
      else (s.latch Ev.readBack).importSectorFailed d c p r 0x02 0x01
    | none => s.importNext m d c { p with slots := p.slots ++ p.last.toList, last := none }

/-- A write of an import's data part failed (R269, R517): a pool sector is tried again from C1, a metadata leaf goes to its next slot; a
sector of the image copy ends the import. -/
def State.importFailed (s : State) (m : Manifest) (ref : Nat) (cause op : Byte) : State :=
  let s := { s with update := { s.update with flashTasks := [] } }
  match s.update.plan, s.importContent? with
  | some p, some (q, c) =>
    match s.decl? q.slot with
    | none => s
    | some d =>
      match p.work with
      | some (r, _) =>
        if p.blanking then ((s.retire r).flashFault r cause op true).importC1 d c { p with work := none, blanking := false }
        else s.importSectorFailed d c p r cause op
      | none => (s.flashFault ref cause op false).importNext m d c p
  | _, _ => (s.flashFault ref cause op false).abortImport Code.flashFailed

/-- An import that waits for a sector or for an erase goes on (R262, R265). -/
def State.resumeImport (s : State) (m : Manifest) : State :=
  match s.update.plan, s.update.flashTasks, s.update.flashEnd with
  | some p, [], some _ =>
    if p.work.isSome then s
    else match s.importContent? with
      | some (q, c) => match s.decl? q.slot with
        | some d => s.importNext m d c p
        | none => s
      | none => s
  | _, _, _ => s

/-- What follows the ledger update of an import (R432). -/
def State.imported (s : State) (slots : List Nat) (digests : List Bytes) (digest : Bytes) (ceiling : Nat) (vacated : List Nat) : State :=
  match s.update.importing, s.importContent? with
  | some x, some (p, c) =>
    let t := p.slot
    let s := s.writeRoot t ceiling slots digest
    let s := vacated.foldl State.queueErase (s.writeTrial t { Trial.none with highest := max (s.trial t).highest (entryImageGen s.ledger t), version := c.version })
    let s := s.modTenant t (fun y => { y with
      indexDigests := digests, rootLost := false, descriptors := [], chains := []
      inserts := [], awaited := [], cache := y.cache.map (fun l => { l with valid := false }), waiting := 1 })
    let s := { ((s.dropKey .parcel).clearParcel importRecordAt) with update := { s.update with importing := none, plan := none } }
    let s := s.record Code.parcelIn (slotByte t) (p.source ++ be 4 c.headSeq)
    let s := s.record Code.parcelHead (slotByte t) (c.headTag ++ c.ledgerId.take 4)
    s.send (outFrame (.peer (.unit x.peer)) Code.fParcel 0 true (parcelPayload 1 x.transfer 0xFFFF 0 [0]))
  | _, _ => s

end Sys2Proof.Machine
end

