-- ==== Sys2Proof/Machine/StrapOps.lean ====
section
/-!
DEFINITION. The straps: conversions and reads of phase W (R90–R93, R519), codes (R91, R94), the OTP strap word (R102, R103),
the confirmation train (R106) and the strap faults decided from them (R101, R109, R520).
-/
namespace Sys2Proof.Machine

/-- One conversion of a pad voltage in microvolts (R90, R92, R494): count with an error of at most 3, UNDER and OVER with
their offsets within 20 mV; the open parts are free (log 2). -/
def State.convert (s : State) (uv : Int) : (Nat × Bool × Bool) × State :=
  let exact : Int := if uv < 0 then 0 else (uv.toNat * 1024 / 1200000 : Nat)
  let (e, s) := s.freeBelow 7
  let (fu, s) := s.freeBit
  let (fo, s) := s.freeBit
  let count := (min 1023 (max 0 (exact + (e : Int) - 3))).toNat
  let underFlag := decide (uv < -70000) || (decide (uv < -30000) && fu)
  let overFlag := decide (1270000 < uv) || (decide (1230000 < uv) && fo)
  ((count, underFlag, overFlag), s)

/-- The conversions of a pad in order (R93). -/
def State.convertAll (s : State) (uvs : List Int) : List (Nat × Bool × Bool) × State :=
  uvs.foldl (fun acc uv => let (c, s) := acc.2.convert uv; (acc.1 ++ [c], s)) ([], s)

/-- One read of a digital strap against VIL and VIH of its bank (R492, R519); a pad between them or floating is free. -/
def State.readStrap (s : State) (bank : Nat) (level : Option Nat) : Bool × State :=
  match level with
  | none => s.freeBit
  | some mv => if 10 * mv ≤ 3 * bank then (false, s) else if 7 * bank ≤ 10 * mv then (true, s) else s.freeBit

/-- The reads of a digital strap in order (R93). -/
def State.readStraps (s : State) (bank : Nat) (levels : List (Option Nat)) : List Bool × State :=
  levels.foldl (fun acc l => let (b, s) := acc.2.readStrap bank l; (acc.1 ++ [b], s)) ([], s)

/-- The code windows of R91. -/
def codeWindows : List (Nat × Nat × Nat) :=
  [(0, 0, 6), (1, 66, 90), (2, 156, 186), (3, 268, 307), (4, 393, 436), (5, 536, 581), (6, 702, 744), (7, 990, 1023)]

/-- The code whose window holds a count (R91). -/
def codeOf (n : Nat) : Option Nat := (codeWindows.find? (fun w => decide (w.2.1 ≤ n) && decide (n ≤ w.2.2))).map (·.1)

/-- The code of one conversion, `none` when it is flagged or between codes (R91, R92). -/
def conversionCode (c : Nat × Bool × Bool) : Option Nat := if c.2.1 || c.2.2 then none else codeOf c.1

/-- The code of a pad: all its conversions in one window (R94). -/
def padCode (cs : List (Nat × Bool × Bool)) : Option Nat :=
  match cs with
  | [] => none
  | c :: rest => match conversionCode c with
    | some k => if rest.all (fun x => conversionCode x == some k) then some k else none
    | none => none

/-- The value of a digital strap: all its reads agree (R94). -/
def strapValue (rs : List Bool) : Option Bool :=
  match rs with
  | [] => none
  | r :: rest => if rest.all (fun x => x == r) then some r else none

/-- The causes found on a CFG pad, as bits of the cause mask (R109, R509). -/
def cfgCauses (cs : List (Nat × Bool × Bool)) : Nat :=
  let plain := cs.filter (fun c => !(c.2.1 || c.2.2))
  let windows := (plain.filterMap (fun c => codeOf c.1)).dedup
  (if plain.any (fun c => (codeOf c.1).isNone) then 1 else 0) + (if cs.any (fun c => c.2.1) then 2 else 0) +
    (if cs.any (fun c => c.2.2) then 4 else 0) + (if 2 ≤ windows.length then 8 else 0)

/-- The pulses of the train as rise and fall slots, `none` when the edges do not alternate from low (R106). -/
def trainPulses (edges : List (Nat × Bool)) : Option (List (Nat × Nat)) :=
  match edges with
  | [] => some []
  | (a, true) :: (b, false) :: rest => (trainPulses rest).map (fun ps => (a, b) :: ps)
  | _ => none

/-- Whether every gap between pulses lasts 2,240–4,160 slots (R106). -/
def gapsOk : List (Nat × Nat) → Bool
  | (_, b) :: (c, d) :: rest => decide (b + 2240 ≤ c) && decide (c ≤ b + 4160) && gapsOk ((c, d) :: rest)
  | _ => true

/-- Whether the watch saw a valid train for an arming code (R106). -/
def trainValid (code : Nat) (edges : List (Nat × Bool)) : Bool :=
  match trainPulses edges with
  | none => false
  | some ps =>
    decide (ps.length = (if code = 1 then 6 else 10)) &&
      ps.all (fun p => decide (p.1 + 2240 ≤ p.2) && decide (p.2 ≤ p.1 + 4160)) && gapsOk ps &&
      (match ps.head? with | some p => decide (6400 ≤ p.1) | none => false) &&
      (match ps.getLast? with | some p => decide (p.2 ≤ 57600) | none => false)

/-- The cause bit of an invalid train, 0 for a valid one (R108, R509). -/
def trainCause (code : Nat) (edges : List (Nat × Bool)) : Nat :=
  if edges = [] then 0x20 else if trainValid code edges then 0 else 0x40

/-- Strap word fields (R102). -/
def strapField (w : BitVec 32) (i : Nat) : Nat := (w.toNat >>> (4 * i)) % 8
def strapLocked (w : BitVec 32) (i : Nat) : Bool := w.getLsbD (4 * i + 3)
def digitalField (w : BitVec 32) (i : Nat) : Bool := w.getLsbD (12 + 2 * i)
def digitalLocked (w : BitVec 32) (i : Nat) : Bool := w.getLsbD (13 + 2 * i)

/-- The conversions of CFG pad `i`. -/
def Straps.cfg (st : Straps) (i : Nat) : List (Nat × Bool × Bool) := st.samples.getD i []

/-- The reads of digital strap `i`: FSTRAP, ASTRAP, ALERTB# strap. -/
def Straps.dig (st : Straps) (i : Nat) : List Bool := st.digital.getD i []

/-- The code in force of CFG pad `i` (R103). -/
def State.codeInForce (s : State) (i : Nat) : Option Nat :=
  if strapLocked (s.otpWord 0) i then some (strapField (s.otpWord 0) i) else padCode (s.straps.cfg i)

/-- The value in force of digital strap `i` (R103). -/
def State.strapInForce (s : State) (i : Nat) : Option Bool :=
  if digitalLocked (s.otpWord 0) i then some (digitalField (s.otpWord 0) i) else strapValue (s.straps.dig i)

/-- CFG2 code 6 with a CFG1 code of 0–2, both in force (R101). -/
def State.codesConflict (s : State) : Bool :=
  match s.codeInForce 1, s.codeInForce 2 with
  | some a, some b => decide (b = 6) && decide (a ≤ 2)
  | _, _ => false

/-- Both codes come from a locked strap word, so the conflict does not hold the start (R101). -/
def State.conflictLocked (s : State) : Bool := strapLocked (s.otpWord 0) 1 && strapLocked (s.otpWord 0) 2

/-- The causes that each unlocked pad contributes at B2, in the order of R109's note: package pad, causes, samples. -/
def State.padCauses (s : State) : List (Nat × Nat × List Nat) :=
  let conflict := s.codesConflict && !s.conflictLocked
  let cfg := (List.range 3).map (fun i =>
    let own := if strapLocked (s.otpWord 0) i then 0
      else cfgCauses (s.straps.cfg i) + (if conflict && decide (1 ≤ i) then 16 else 0)
    (36 + i, own, (s.straps.cfg i).map (·.1)))
  let dig := (List.range 3).map (fun i =>
    let own := if digitalLocked (s.otpWord 0) i || (strapValue (s.straps.dig i)).isSome then 0 else 8
    ([11, 25, 30].getD i 0, own, (s.straps.dig i).map (fun b => if b then 1 else 0)))
  cfg ++ dig

/-- The strap fault decided at B2: the whole mask, the reported cause bit, its pad and the pad's samples (R109, R520). -/
def State.strapFault (s : State) : Option (Nat × Nat × Nat × List Nat) :=
  let pads := s.padCauses
  let mask := pads.foldl (fun m p => m ||| p.2.1) 0
  if mask = 0 then none
  else
    let bit := ((List.range 5).find? (fun b => mask.testBit b)).getD 0
    let train := match s.codeInForce 2 with
      | some c => if c = 1 ∨ c = 2 then trainCause c s.straps.edges else 0
      | none => 0
    (pads.find? (fun p => p.2.1.testBit bit)).map (fun p => (mask ||| train, bit, p.1, p.2.2))

/-- The body of a STRAP_FAULT record (R468, R509). -/
def strapFaultBody (reason : Byte) (pad mask : Nat) (samples : List Nat) : Bytes :=
  [reason, BitVec.ofNat 8 pad] ++ be 2 mask ++ fit 16 0 ((samples.map (be 2)).flatten)

end Sys2Proof.Machine
end

