-- ==== Sys2Proof/Machine/SupplyOps.lean ====
section
/-!
DEFINITION. Supplies and the start up to phase B: phases and pads (R70–R83), monitors and brown-outs (R111–R114, R125), the
strap window (R76, R93, R106).
-/
namespace Sys2Proof.Machine

/-- The outcome of a command. -/
abbrev Out := Host.Outcome State Fault Refusal

/-- VDDIO_H within its operating range, in millivolts (R111). -/
def bankHOk (mv : Nat) : Bool := decide (1700 ≤ mv) && decide (mv ≤ 3600)

/-- VDDIO_F within one of its two operating ranges, in millivolts (R111, R114). -/
def bankFOk (mv : Nat) : Bool :=
  (decide (1700 ≤ mv) && decide (mv ≤ 2000)) || (decide (2700 ≤ mv) && decide (mv ≤ 3600))

/-- All four PRST lines at one level. -/
def allPrst (p : Pad) : Vector Pad 4 := Vector.replicate 4 p

/-- The pads in phase P (R72); PRST lines are driven once VDDIO_H is present. -/
def Pads.phaseP (bankPresent : Bool) : Pads :=
  { Pads.reset with fpwr := .high, actEn := .low, lnk := .released, sense := .comparator, cfg0 := .off, cfg12 := .off, xtal := .oscillator
                    prst := allPrst (if bankPresent then .low else .hiZ) }

/-- The pads from window slot 0 (R72, R76). -/
def Pads.phaseW : Pads :=
  { Pads.phaseP true with fcs1 := .strapInput, alertA := .strapInput, alertB := .strapInput, cfg0 := .pullUpAdc
                          cfg12 := .pullUpAdc }

/-- The pads from window slot 63,488 and in phase K (R72, R76): keepers on the strap pads, CFG inputs off. -/
def Pads.phaseK (fstrap astrap alertb : Bool) : Pads :=
  { Pads.phaseP true with fcs1 := .keeper fstrap, alertA := .keeper astrap, alertB := .keeper alertb }

/-- The pads after a brown-out trip (R83): the five drivers low, LNK released, every other signal pad Hi-Z; `ldir` when pad
30 is LDIR. -/
def Pads.afterTrip (ldir : Bool) : Pads :=
  { Pads.reset with actEn := .low, prst := allPrst .low, fpwr := .low, lnk := .released
                    alertB := if ldir then .low else .hiZ }

/-- Whether pad 30 serves as LDIR in this start (R79). -/
def State.servesLdir (s : State) : Bool := (s.power.phase == .b || s.power.phase == .n || s.power.phase == .s) && !s.boot.alertbStrap

/-- An operation cut off on a chip leaves its bytes free (R124). -/
def State.spoilOp (s : State) (c : Fin 2) : State :=
  match s.flash.op[c] with
  | some o => s.spoilTask o.task
  | none => s

/-- The words that a write operation programs, in order (R170). -/
def VaultJob.inWords (j : VaultJob) : List (Nat × Bytes) :=
  j.words.flatMap (fun w => ((pieces 4 w.2).zipIdx).map (fun p => (w.1 + 4 * p.2, p.1)))

/-- The vault write in progress cut off: a free number of its words is written (R170, log 2). -/
def State.cutVault (s : State) : State :=
  match s.update.vaultWrite with
  | j :: _ =>
    let (k, s) := s.freeBelow (j.inWords.length + 1)
    (j.inWords.take k).foldl (fun st w => st.vaultWrite w.1 w.2) s
  | [] => s

/-- A brown-out with its cause (R83, R113, R125, R468): every domain is reset, and only vault, OTP and the flash chips keep
content. -/
def State.brownOut (s : State) (cause : Nat) : State :=
  let s := ((s.spoilOp 0).spoilOp 1).cutVault
  let fill := s.freeDrawn + 2
  { s with
    clock := Clock.reset
    power := { Power.reset with vbat := s.power.vbat, vddioH := s.power.vddioH, vddioF := s.power.vddioF
                                afterBrownOut := true, resetCause := cause }
    sleep := Sleep.reset, pads := Pads.afterTrip s.servesLdir, straps := Straps.reset, boot := Boot.reset
    running := Running.reset, events := 0, polled := false, sram := [], sramFill := fill, den := [], denFill := fill
    keys := [], sessions := [], crossTable := [], portA := PortSt.reset, portB := PortSt.reset
    tenants := Vector.replicate 16 Tenant.reset, stagingPlace := none, lanes := Vector.replicate 2 none, commit := none
    lastLane := 15, commitWaits := false, flash := FlashSide.start s.flash.chips, audit := Audit.reset
    statements := Statements.reset, badger := Badger.reset, mailbox := Mailbox.reset, link := Link.reset
    update := Update.reset, probe := Debug.reset, freeDrawn := s.freeDrawn + 2 }

/-- VBAT once it has fallen: below 1.0 V the device is unpowered, and the next rise of VBAT is a first power-up again (R70, R112, R113). -/
def State.fallTo (s : State) (vbat : Nat) : State :=
  if vbat < 1000 then
    { s with power := { Power.reset with phase := .u, vbat := vbat, vddioH := s.power.vddioH, vddioF := s.power.vddioF }, pads := Pads.reset }
  else { s with power := { s.power with phase := .r, vbat := vbat } }

/-- Whether phase R ends at a VBAT (R113). -/
def State.releasesAt (s : State) (vbat : Nat) : Bool :=
  s.inReset && (if s.power.afterBrownOut then decide (2150 < vbat) else decide (1950 < vbat))

/-- POR release (R70, R113, R122): phase P, or at once a brown-out when VBAT lies below 2.10 V. -/
def State.release (s : State) (vbat vddioH vddioF : Nat) : State :=
  let s := { s with power := { s.power with vbat := vbat, vddioH := vddioH, vddioF := vddioF } }
  if vbat < 2100 then s.brownOut 1
  else
    { s with power := { s.power with phase := .p, commitLow := decide (vbat < 2400), buckOn := true, portOn := true
                                     fabricOn := true, vaultOn := true
                                     resetCause := if s.power.afterBrownOut then s.power.resetCause else 0 }
             pads := Pads.phaseP (bankHOk vddioH), clock := Clock.reset }

/-- The RTC over a span of window slots (R127, R459). -/
def Clock.toWindow (c : Clock) (n : Nat) : Clock :=
  { c.advanceRtc (n - c.windowSlot) with windowSlot := max n c.windowSlot }

/-- The samples that the window takes (R90, R93, R519). -/
def State.sampleStraps (s : State) (i : StrapInputs) : State :=
  let (c0, s) := s.convertAll i.cfg0
  let (c1, s) := s.convertAll i.cfg1
  let (c2, s) := s.convertAll i.cfg2
  let (f, s) := s.readStraps i.vddioF i.fstrap
  let (a, s) := s.readStraps i.vddioH i.astrap
  let (b, s) := s.readStraps i.vddioH i.alertb
  { s with straps := { s.straps with samples := [c0, c1, c2], digital := [f, a, b] } }

/-- The strap window opens (R70, R71, R76, R106). -/
def State.openWindow (s : State) (i : StrapInputs) : State :=
  let s := { s with power := { s.power with phase := .w, vddioH := i.vddioH, vddioF := i.vddioF
                                            vddioFHigh := decide (2700 ≤ i.vddioF) }
                    pads := Pads.phaseW, straps := { Straps.reset with watching := true } }
  (s.sampleStraps i).latch Ev.buckSettled

/-- The keepers latch at the levels then present on their pads, and the watch ends (R76; a pad that nothing holds, log 136). -/
def State.latchKeepers (s : State) (fstrap astrap alertb : Option Nat) : State :=
  let (f, s) := s.readStrap s.power.vddioF fstrap
  let (a, s) := s.readStrap s.power.vddioH astrap
  let (b, s) := s.readStrap s.power.vddioH alertb
  { s with clock := s.clock.toWindow 63488, straps := { s.straps with keepers := [f, a, b], watching := false }, pads := Pads.phaseK f a b }

/-- Phase W ends and K begins (R70, R76). -/
def State.endWindow (s : State) : State :=
  { s with clock := s.clock.toWindow 64000, power := { s.power with phase := .k } }

/-- The comparator of the pulse watch against the 1.2 V reference with threshold code 0: high above 0.70 of it, low below 0.30, the
previous value between (R106, R437). -/
def watchOutput (old : Bool) (mv : Nat) : Bool := if 840 < mv then true else if mv < 360 then false else old

/-- An edge of the SENSE3 comparator within the watch (R106). -/
def State.trainEdge (s : State) (slot : Nat) (level : Bool) : State :=
  { s with clock := s.clock.toWindow slot
           straps := { s.straps with edges := s.straps.edges ++ [(slot, level)], train := level } }

end Sys2Proof.Machine
end

