-- ==== Sys2Proof/Machine/FlashRun.lean ====
section
/-!
DEFINITION. The Sequencer's write work: which program or erase starts next (R266, R318), what the end of one brings about for its
owner (R255, R262, R264, R269, R270, R466, R517), flash power cycles (R268, R269), spill batches (R466, R467), the free pool (R265).
-/
namespace Sys2Proof.Machine

/-! ### Starting an operation -/

/-- Whether the Sequencer may start a program or erase now: no other in progress, chips powered and awake, commit monitor clear (R122,
R266–R268). -/
def State.mayWrite (s : State) : Bool :=
  s.awake && !s.flashBusy && !s.power.commitLow && s.flash.cutAt.isNone && !s.flash.deepDown

/-- The next task of the commit sent; a chip that failed ends the commit (R269, R321). -/
def State.pumpCommit (s : State) (c : Commit) : State :=
  match c.tasks with
  | [] => s
  | t :: rest =>
    if s.chipServes t.chip then { (s.startTask .commit t) with commit := some { c with tasks := rest, begun := true } }
    else if s.flash.dead[t.chip] then s.failCommit 0x08 c.held
    else s

/-- The next task of a directory copy sent (R255). -/
def State.pumpDirectory (s : State) : State :=
  match s.flash.directoryPages with
  | [] => s
  | t :: rest =>
    if s.chipServes t.chip then { (s.startTask .directory t) with flash := { (s.startTask .directory t).flash with directoryPages := rest } }
    else if s.flash.dead[t.chip] then { s with flash := { s.flash with directoryPages := [] } }
    else s

/-- A spill batch put back among those not spilled (R466). -/
def State.unspill (s : State) (b : Nat) : State :=
  { s with audit := { s.audit with spilling := none, unspilled := insertSorted s.audit.unspilled b } }

/-- The next task of a spill batch sent (R466). -/
def State.pumpSpill (s : State) : State :=
  match s.audit.spilling with
  | some (b, sector, t :: rest) =>
    if s.chipServes t.chip then { (s.startTask .spill t) with audit := { s.audit with spilling := some (b, sector, rest) } }
    else if s.flash.dead[t.chip] then s.unspill b
    else s
  | _ => s

/-- The install or import in work ends for a flash failure (R269, R432, R517). -/
def State.failWork (s : State) (reason : Byte) : State :=
  if s.update.importing.isSome then s.abortImport reason else s.refuseInstall reason 0

/-- The next task of the install or import in work sent; with none left, its ledger update is asked for (R416, R420, R432). -/
def State.pumpInstall (s : State) : State :=
  match s.update.flashTasks with
  | [] => s
  | t :: rest =>
    if s.chipServes t.chip then { (s.startTask .install t) with update := { s.update with flashTasks := rest } }
    else if s.flash.dead[t.chip] then s.failWork Code.flashFailed
    else s

/-- Whether a commit step is in progress (R266). -/
def State.commitStepRuns (s : State) : Bool := match s.commit with | some c => c.begun && !c.tasks.isEmpty | none => false

/-- A commit whose metadata write waited for an erase goes on (R262). -/
def State.resumeCommitWrite (s : State) (m : Manifest) : State :=
  match s.commit with
  | some c =>
    if (c.stage = .c4 ∨ c.stage = .c5) ∧ c.tasks.isEmpty ∧ !c.todo.isEmpty ∧ !c.begun then
      match s.decl? c.tenant with
      | some d => s.commitWrite m d c
      | none => s
    else s
  | none => s

/-- A commit that waits before C1, or before C4 for an erase, goes on (R264, R265, R318, R327). -/
def State.resumeC1 (s : State) (m : Manifest) : State :=
  match s.commit with
  | some c =>
    if c.stage = .c1 ∧ c.target = 0 ∧ c.tasks.isEmpty then
      match s.decl? c.tenant with
      | some d => s.commitBegin m d c
      | none => s
    else s
  | none => s

/-- What waited for a sector, an erase, a power cycle or the commit monitor goes on (R262, R265, R318). -/
def State.resumeWaiting (s : State) : State :=
  match s.running.manifest with
  | some m => ((s.resumeCommitWrite m).resumeC1 m).resumeImport m
  | none => s

/-- The Sequencer's next write activity (R266): a commit step in progress first, then a directory or spill write, then a new commit
step, then an install. -/
def State.pump (s : State) : State :=
  if !s.mayWrite then s
  else
    let s := s.resumeWaiting
    let due := match s.commit with | some c => !c.tasks.isEmpty | none => false
    if s.commitStepRuns then (match s.commit with | some c => s.pumpCommit c | none => s)
    else if !s.flash.directoryPages.isEmpty then s.pumpDirectory
    else if s.audit.spilling.isSome then s.pumpSpill
    else if due then (match s.commit with | some c => s.pumpCommit c | none => s)
    else s.pumpInstall

/-! ### The end of an operation -/

/-- Whether a reference is a pool sector, or a spill sector, of the layout in force. -/
def State.isPool (s : State) (r : Nat) : Bool := match s.running.manifest with | some m => (s.poolRefs m).contains r | none => false
def State.isSpill (s : State) (r : Nat) : Bool := match s.running.manifest with | some m => (s.spillRefs m).contains r | none => false

/-- A sector of the erase queue erased (R262, R265, R466). -/
def State.queueErased (s : State) (r : Nat) : State :=
  let s := { s with flash := { s.flash with eraseQueue := s.flash.eraseQueue.filter (fun q => !(q == r)) } }
  let s := if s.isPool r then
      (if s.flash.poolReady then { s with flash := { s.flash with free := insertSorted s.flash.free r } } else s)
    else if s.isSpill r then { s with audit := { s.audit with spillErased := s.audit.spillErased ++ [r] } }
    else s
  s.latchIf s.flash.eraseQueue.isEmpty Ev.eraseQueueEmpty

/-- An erase of the queue failed (R269, R270, R517). -/
def State.queueEraseFailed (s : State) (r : Nat) (cause : Byte) : State :=
  if s.isPool r ∨ s.isSpill r then (s.retire r).flashFault r cause 0x02 true
  else
    let s := (s.flashFault r cause 0x02 false)
    let s := { s with flash := { s.flash with badMeta := s.flash.badMeta ++ [r] } }
    if s.flash.badMeta.count r < 2 then s
    else { s with flash := { s.flash with eraseQueue := s.flash.eraseQueue.filter (fun q => !(q == r)) } }

/-- A page of a directory copy ended well: the last one makes the copy live (R255). -/
def State.directoryStep (s : State) : State :=
  if s.flash.directoryPages.isEmpty then
    let d := match s.flash.directory with
      | some (seq, sector) => (seq + 1, if sector = 2 then 3 else 2)
      | none => (1, 2)
    { s with flash := { s.flash with directory := some d } }
  else s

/-- A page of a spill batch ended well: after the last one the batch is spilled (R466). -/
def State.spillStep (s : State) : State :=
  match s.audit.spilling with
  | some (b, sector, []) =>
    let s := { s with audit := { s.audit with spilling := none, spilled := s.audit.spilled ++ [(b, sector)] } }
    if (s.vaultValue? oldestSpillAt).isNone then s.vaultPut oldestSpillAt (64 * b) else s
  | _ => s

/-- A program of a spill batch failed: the sector is retired and the batch stays unspilled (R269, R466). -/
def State.spillFailed (s : State) (cause op : Byte) : State :=
  match s.audit.spilling with
  | some (b, sector, _) => ((s.retire sector).flashFault sector cause op true).unspill b
  | none => s

/-- The tasks of an install, or of the present write of an import, all ended (R416, R420, R432). -/
def State.workDone (s : State) : State :=
  match s.update.flashTasks, s.update.flashEnd with
  | [], some _ =>
    if s.update.importing.isSome then
      match s.running.manifest, s.importContent? with
      | some m, some (q, c) => match s.decl? q.slot with
        | some d => s.importStep m d c
        | none => s
      | _, _ => s
    else s.flashWorkDone
  | _, _ => s

/-- The end of an operation for its owner: `cause` is none when it ended well (R269). -/
def State.opEnded (s : State) (o : FlashOp) (cause : Option Byte) : State :=
  let r := refOf o.task.chip o.task.addr
  match o.owner, cause with
  | .commit, none =>
    match s.commit, s.running.manifest with
    | some c, some m =>
      if !c.tasks.isEmpty ∨ s.power.commitLow then s
      else match s.decl? c.tenant with
        | some d => s.commitAdvance m d c
        | none => s
    | _, _ => s
  | .commit, some e =>
    match s.commit, s.running.manifest with
    | some c, some m => match s.decl? c.tenant with
      | some d => s.commitTaskFailed m d { c with tasks := [] } o.task e
      | none => s
    | _, _ => s
  | .blankErase, _ => s
  | .eraseQueue, none => s.queueErased r
  | .eraseQueue, some e => s.queueEraseFailed r e
  | .directory, none => s.directoryStep
  | .directory, some e => { (s.flashFault r e o.task.kind.code false) with flash := { (s.flashFault r e o.task.kind.code false).flash with directoryPages := [] } }
  | .spill, none => s.spillStep
  | .spill, some e => s.spillFailed e o.task.kind.code
  | .install, none => s.workDone
  | .install, some e =>
    match s.update.importing, s.running.manifest with
    | some _, some m => s.importFailed m r e o.task.kind.code
    | _, _ => (s.flashFault r e o.task.kind.code false).failWork Code.flashFailed
  | .parcel, _ => s
  | .debug, some e => s.flashFault r e o.task.kind.code false
  | .debug, none => s
  | .wipe, _ => s

/-- The cause of FLASH_FAULT for an error bit and for a timeout (R269, R513). -/
def FlashOpKind.errorCause : FlashOpKind → Byte
  | .program => 0x01
  | _ => 0x05
def FlashOpKind.timeoutCause : FlashOpKind → Byte
  | .program => 0x03
  | _ => 0x04

/-- An operation that was cut off or failed: its bytes are free, its owner hears the cause. -/
def State.opLost (s : State) (c : Fin 2) (timeout : Bool) : State :=
  match s.flash.op[c] with
  | some o =>
    let s := (s.endOp c).spoilTask o.task
    s.opEnded o (some (if timeout then o.task.kind.timeoutCause else o.task.kind.errorCause))
  | none => s

/-! ### Flash power cycles (R268, R269) -/

/-- The flash pads while FPWR is low, and driven again (R72, R268). -/
def Pads.flashCut (p : Pads) : Pads := { p with fpwr := .low, fclk := .low, fcs0 := .low, fcs1 := .low, fio := .low }
def Pads.flashOn (p : Pads) (two level : Bool) : Pads :=
  { p with fpwr := .high, fclk := .low, fcs0 := .high, fcs1 := if two then .high else .keeper level, fio := .busKeeper }

/-- A chip that the power cycles did not bring back: the fetches that need it are refused at once (R269, R336). -/
def State.killChip (s : State) (c : Fin 2) (op : Byte) : State :=
  let s := { s with flash := { s.flash with dead := s.flash.dead.set c true } }
  (s.flashFault (refOf c 0) 0x08 op false).refuseAllDead

/-- A chip that stays busy: a power cycle while the limit allows, else the chip has failed (R268, R269). -/
def State.powerCycle (s : State) (c : Fin 2) (op : Byte) : State :=
  if s.flash.cycles < 3 then
    { s with pads := s.pads.flashCut
             flash := { s.flash with cutAt := some s.clock.boundaries, cycles := s.flash.cycles + 1 } }
  else s.killChip c op

/-- One supported chip discovered again after a power cycle; one that fails gets another cycle up to the limit, which serves both chips
(R268, R269). Its place in the layout stays that of B8 (R249). -/
def State.rediscover (s : State) (c : Fin 2) (answers : Bool) : State :=
  if s.flash.found[c].ran && s.flash.found[c].row == 0 && !s.flash.dead[c] then
    let s := (s.latch Ev.discovered).order c (s.chip c).discoveryOps
    if answers && (s.chip c).failedRow == 0 then s
    else
      let s := s.flashFault (refOf c 0) 0x07 0x04 false
      if s.flash.cutAt.isSome then s else s.powerCycle c 0x04
  else s

/-- FPWR high again 10 laps after it fell, discovery from the lap after (R268). -/
def State.restoreFlash (s : State) (b : Nat) (answers0 answers1 : Bool) : State :=
  let s := s.setClock ((s.clock.toBoundary (b + 10) s.awake).nextLap s.awake)
  let s := { s with pads := s.pads.flashOn s.boot.fstrap (s.straps.keepers.getD 0 false)
                    flash := { s.flash with cutAt := none } }
  ((s.latch Ev.powerCycled).rediscover 0 answers0).rediscover 1 answers1

/-! ### Directory, spill, pool -/

/-- A directory copy begun: erase, then 16 pages, with `sequence` + 1 in the other sector (R255). -/
def State.beginDirectory (s : State) : State :=
  let (seq, sector) := match s.flash.directory with
    | some (n, k) => (n + 1, if k = 2 then 3 else 2)
    | none => (1, 2)
  { s with flash := { s.flash with directoryDue := false
                                   directoryPages := eraseTask sector :: pageTasks 0 (4096 * sector) (s.directoryImage seq) } }

/-- The seal of a spill entry (R466). -/
def State.spillSeal (s : State) (r : Bytes) : Bytes := (s.mac .auditSpill "BX4016 SPILL" r 32).take 16

/-- Whether a spill entry carries its record's seal; an empty key slot matches none (R392, R466). -/
def State.spillGood (s : State) (e : Bytes) : Bool := (s.key? .auditSpill).isSome && s.spillSeal (e.take 48) == e.drop 48

/-- The content of a spill sector for a batch (R466). -/
def State.spillImage (s : State) (b : Nat) : Bytes :=
  (List.range 64).flatMap (fun i =>
    let r := s.vaultBytes (ringAt (64 * b + i)) 48
    r ++ s.spillSeal r)

/-- The oldest spilled batch dropped with its GAP and its sector queued for erase (R467); a record that a failed chip no longer gives
reads free bytes. -/
def State.dropOldest (s : State) : State :=
  match s.audit.spilled with
  | [] => s
  | (_, sector) :: rest =>
    let (free, s) := s.freeBytes 64
    let last := match s.audit.oldest with | some leaf => slice leaf 960 64 | none => free
    let r := last.take 48
    let s := { s with audit := { s.audit with spilled := rest, oldest := none } }
    let s := s.makeRoom.dropBatch r (s.spillGood last)
    let s := match rest with
      | (b, _) :: _ => s.vaultPut oldestSpillAt (64 * b)
      | [] => s.vaultPut oldestSpillAt 0xFFFFFFFF
    s.queueErase sector

/-- Whether the spill is full and the batch to drop still waits for Ledger's window; one on a failed chip does not (R42, R269, R467). -/
def State.dropWaits (s : State) : Bool :=
  decide (s.spillRecords / 64 ≤ s.audit.spilled.length) && s.audit.oldest.isNone &&
    (match s.audit.spilled with | (_, sector) :: _ => !s.flash.dead[refChip sector] | [] => false)

/-- A spill write begun for the oldest unspilled batch, once the batch that it drops has been read (R466, R467). -/
def State.beginSpill (s : State) : State :=
  match s.audit.unspilled, s.audit.spillErased with
  | _ :: _, sector :: left =>
    if s.dropWaits then s else
    let s := if s.spillRecords / 64 ≤ s.audit.spilled.length then s.dropOldest else s
    match s.audit.unspilled with
    | b :: rest =>
      { s with audit := { s.audit with unspilled := rest, spillErased := left
                                       spilling := some (b, sector, pageTasks (refChip sector) (refAddr sector) (s.spillImage b)) } }
    | [] => s
  | _, _ => s

/-- Where a tenant's map leaf lies by the live record and the index leaf as stored, which the digest of R263 vouches for. -/
def State.mapPlace? (s : State) (m : Manifest) (d : TenantDecl) (k : Nat) : Option (Nat × Nat) :=
  (s.indexLeaf? m d.slot d (d.metaNo .map k / 64)).bind (fun ix =>
    let n := (indexEntry ix (d.metaNo .map k % 64)).2
    if n < 8 then some (s.metaPlace m d (d.metaNo .map k) n) else none)

/-- The physical sectors that a tenant's map leaves reference (R265); a leaf whose tag cannot be checked or fails counts as it is stored,
so that no sector it may reference is taken (log 190). -/
def State.mapRefs (s : State) (m : Manifest) (d : TenantDecl) : List Nat :=
  ((List.range d.leavesM).filterMap (fun k => (s.mapPlace? m d k).bind (fun p => s.fetch? p.1 p.2 1024))).flatMap (fun mp =>
    ((List.range 128).map (fun i => (mapEntry mp i).1)).filter (fun r => r != unwritten))

/-- The metadata sectors of a tenant that hold no live slot and do not read erased: their erase was queued before the power failed
(R262; log 24). -/
def State.staleMeta (s : State) (m : Manifest) (d : TenantDecl) : List Nat :=
  match s.liveRoot? d.slot with
  | none => []
  | some (_, root) =>
    (List.range (d.leavesT + d.leavesM + d.leavesX)).filterMap (fun e =>
      let live := if e < d.leavesT + d.leavesM then (s.indexLeaf? m d.slot d (e / 64)).map (fun ix => (indexEntry ix (e % 64)).2)
        else some (rootSlot root (e - d.leavesT - d.leavesM))
      match live with
      | some n => if n < 8 then
          let r := s.pairRef m d e (1 - n / 4)
          if allBytes 0xFF (s.sectorBytes r 0 4096) then none else some r
        else none
      | none => none)

/-- The free-pool bitmap built from every map leaf (R265). -/
def State.rebuildPool (s : State) (m : Manifest) : State :=
  let used := m.tenants.flatMap (s.mapRefs m)
  let stale := m.tenants.flatMap (s.staleMeta m)
  let s := stale.foldl State.queueErase s
  let free := (s.poolRefs m).filter (fun r => !used.contains r && !s.flash.retired.contains r && !s.flash.eraseQueue.contains r)
  let s := { s with flash := { s.flash with free := free, poolReady := true } }
  s.latchIf (free.isEmpty && s.flash.eraseQueue.isEmpty) Ev.poolEmpty

end Sys2Proof.Machine
end

