-- ==== Sys2Proof/Machine/StageOps.lean ====
section
/-!
DEFINITION. Staging of tenants (R232, R233, R295–R298), the decision with its checks, records and trial (R203–R209, R422), release
(R205, R325), restart (R419), and the start group that closes a start (R469).
-/
namespace Sys2Proof.Machine

/-! ### Beginning -/

/-- The sum of the quotas of the tenants before one in `boot order` (R233). -/
def quotaBefore (ds : List TenantDecl) (t : TSlot) : Nat := ((ds.takeWhile (fun d => d.slot != t)).map (·.quota)).sum

/-- The lap after the one in which a tenant's own windows have served `n` leaves, from lap `l` on (R419). -/
def lapAfter (ds : List TenantDecl) (t : TSlot) : Nat → Nat → Nat → Nat
  | 0, l, _ => l
  | fuel + 1, l, n =>
    if n = 0 then l
    else
      let own := ((List.range 28).filter (fun k => windowOwner ds l k == some t)).length
      lapAfter ds t fuel (l + 1) (n - own)

/-- The lap of a staging's decision (R233, R419). -/
def State.decisionLap (s : State) (t : TSlot) (d : TenantDecl) (again : Bool) : Nat :=
  let n := stagingLeaves d.denShare
  if n = 0 then s.clock.lap
  else if again then lapAfter s.inOrder t 8192 s.clock.lap n
  else s.clock.lap + ceilDiv n (28 - quotaBefore s.inOrder t)

/-- Staging begun in this lap with the generation that the trial state selects (R232, R295, R297). -/
def State.stageNow (s : State) (t : TSlot) (d : TenantDecl) (again : Bool) : State :=
  let g := s.stagedGen t
  let s := if g = 0 then s else s.loadImageKey t g
  s.modTenant t (fun x => { x with
    denStaged := List.replicate (4 * d.denShare) false, generation := g
    staging := some { beginLap := s.clock.lap, decisionLap := s.decisionLap t d again, next := 0, verified := 0, generation := g
                      tagTables := [], failed := false, again := again } })

/-- Staging begun, after a revert when three starts of a trial stayed unconfirmed (R422). -/
def State.startStaging (s : State) (t : TSlot) (d : TenantDecl) (again : Bool) : State :=
  if s.mayRevert t ∧ (s.trial t).starts = 3 then (s.askRevert t).modTenant t (fun x => { x with waiting := 2 })
  else s.stageNow t d again

/-! ### The checks (R203) -/

/-- The first failed condition of R203, 0 when the check passes; while the ledger is lost no entry can be read (log 25). -/
def State.imageReason (s : State) (t : TSlot) (d : TenantDecl) (g : Staging) : Byte :=
  let h := s.ledger
  if s.ledger?.isNone then Code.imgLedgerLost
  else if !entryInstalled h t then Code.imgNotInstalled
  else if s.boot.life = .fielded ∧ entryUnsigned h t then Code.imgUnsigned
  else if g.failed then Code.imgLeafTag
  else if !s.imageRootGood t g.generation g.tagTables (entryRoot h t) ∨ g.tagTables.length ≠ stagingTables d.denShare then Code.imgRoot
  else 0

/-! ### Records -/

/-- The outcome that VERSIONS carries for an image whose own check falls later in the start: open, one of the codes of R203 (log 149). -/
def State.freeOutcome (s : State) : Byte × State :=
  let (n, s) := s.freeBelow 6
  ([0, Code.imgNotInstalled, Code.imgUnsigned, Code.imgLedgerLost, Code.imgLeafTag, Code.imgRoot].getD n 0, s)

/-- VERSIONS of a tenant image (R206, R468). -/
def State.versionsTenant (s : State) (t : TSlot) (reason : Byte) : State :=
  let h := s.ledger
  let r := s.trial t
  s.record Code.versions (slotByte t) (be 4 (if s.boot.ledgerLost then 0 else r.version) ++ (entryDigest h t).take 12 ++ be 2 (s.tenant t).generation ++
    [reason, (if entryUnsigned h t then 1 else 0) + (if r.onTrial then 2 else 0)])

/-- VERSIONS of the schedule and of the manifest in force, which lie where a source does (R206, R468). -/
def State.versionsPairOf (s : State) (source : Option Source) : State :=
  let digest := match s.running.schedule with | some r => r.digest.take 16 | none => zeros 16
  let version := match s.running.schedule with | some r => r.version | none => 0
  let mark : Byte := if s.boot.marks.getLsbD 0 then 1 else 0
  let entry := if s.boot.ledgerLost then none else match source with
    | some .fa => some (scheduleEntryDigest s.ledger 0)
    | some .fb => some (scheduleEntryDigest s.ledger 1)
    | some .vr => some (scheduleEntryDigest s.ledger 2)
    | _ => none
  let differs : Byte := match entry with | some e => if e = digest then 0 else 4 | none => 0
  let md := s.manifestDigest
  let mdiff : Byte := if entry.isSome ∧ source ≠ some .vr ∧ md ≠ manifestEntryDigest s.ledger then 4 else 0
  let s := s.record Code.versions 0xF0 (be 4 version ++ digest.take 12 ++ [0, 0, 0, mark + differs])
  s.record Code.versions 0xF1 (be 4 0 ++ md.take 12 ++ [0, 0, 0, mark + mdiff])

/-- VERSIONS of a tenant image before its own decision (R206). -/
def State.versionsAhead (s : State) (t : TSlot) : State :=
  let (o, s) := s.freeOutcome
  s.versionsTenant t o

/-- VERSIONS of every tenant image once in a start, at its first decision, whose tenant and outcome are given (R20, R206). -/
def State.versionsAll (s : State) (t : TSlot) (reason : Byte) : State :=
  if s.boot.versionsDone then s
  else
    let s := s.inOrder.foldl (fun st d => if d.slot = t then st.versionsTenant t reason else st.versionsAhead d.slot) s
    { s with boot := { s.boot with versionsDone := true } }

/-- VERSIONS of the schedule and of the manifest of a start (R206). -/
def State.versionsPair (s : State) : State := s.versionsPairOf s.boot.source

/-- The falls that a tenant's port has counted (R236). -/
def State.earlyFalls (s : State) (t : TSlot) : Nat := match (s.decl? t).bind TenantDecl.port? with | some p => (s.port p).early | none => 0

/-- TENANT_STATE (R209, R236, R469, R468). -/
def State.tenantState (s : State) (t : TSlot) (state reason : Byte) : State :=
  let x := s.tenant t
  s.record Code.tenantState (slotByte t)
    ([state, reason] ++ be 2 x.generation ++ be 4 s.clock.lap ++ be 2 (s.earlyFalls t) ++ be 2 x.lostCount)

/-- The density code of CHIP (R468). -/
def Chip.densityCode (c : Chip) : Byte :=
  if c.fitted && c.sfdp.signature then BitVec.ofNat 8 (Nat.log2 c.sfdp.densityBits) else 0

/-- CHIP of one discovered chip (R469, R468). -/
def State.chipRecord (s : State) (c : Fin 2) : State :=
  let f := s.flash.found[c]
  if f.ran then
    s.record Code.chip 0xFF ([BitVec.ofNat 8 c.val, BitVec.ofNat 8 f.row] ++ s.jedecOf c ++ [(s.chip c).densityCode] ++ (s.sfdpDigest c).take 12)
  else s

/-- The value of a source in START (R187, R202). -/
def Source.code : Source → Byte
  | .fa => 1
  | .fb => 2
  | .c2 => 3
  | .peer => 4
  | .pa => 5
  | .vr => 6

/-- The codes in force of START (R468). -/
def State.codesWord (s : State) : Nat :=
  s.boot.cfg0 + 8 * s.boot.cfg1 + 64 * s.boot.cfg2 + (if s.boot.fstrap then 512 else 0) + (if s.boot.astrap then 1024 else 0) +
    (if s.boot.alertbStrap then 2048 else 0)

/-- PATCH, CHIP and START close the start (R206, R469). -/
def State.startGroup (s : State) : State :=
  if s.boot.startDone then s
  else
    let s := s.record Code.patch 0xFF (fit 16 0 s.boot.patchDigest ++ be 4 (s.otpWord 0).toNat)
    let s := (s.chipRecord 0).chipRecord 1
    let s := s.record Code.start 0xFF (be 4 s.boot.counter ++
      [(match s.boot.source with | some x => x.code | none => 0), s.boot.marks, Code.life s.boot.life] ++ be 2 s.codesWord ++
      be 4 s.ledgerSeq ++ be 4 s.boot.notes.toNat ++
      [BitVec.ofNat 8 s.boot.bindingForm, BitVec.ofNat 8 s.boot.failures, BitVec.ofNat 8 s.power.resetCause])
    { s with boot := { s.boot with startDone := true } }

/-! ### Release -/

/-- The header of an install that a power failure cut off, refused after its tenant's release (R417). -/
def State.refuseStale (s : State) (t : TSlot) (d : TenantDecl) : State :=
  if (s.tenant t).headerStale then
    let h := s.checkedRead t d d.dataStart 64
    let s := s.modTenant t (fun x => { x with headerStale := false })
    if field h 0 4 = 0x42584958 ∧ byteAt h 5 = 0x02 then
      s.modTenant t (fun x => { x with headerWait := some (headerWith h 0x04 Code.insPower 0 0) })
    else s
  else s

/-- A tenant's port serves it from now on, with its count of early falls (R236, R275). -/
def State.openPort (s : State) (t : TSlot) (d : TenantDecl) : State :=
  match d.port? with
  | some p =>
    let n := (s.port p).early
    let s := s.modTenant t (fun x => { x with preRelease := n })
    s.modPort p (fun q => { q with mode := .tenant t })
  | none => s

/-- LOST at release (R286, R325). -/
def Tenant.takeLost (x : Tenant) : Tenant :=
  match x.lostFound with
  | some n => { x with lost := true, lostCount := n, lostFound := none }
  | none => x

/-- A tenant served again or at last: released, or degraded (R205, R207, R272, R296). -/
def State.serveTenant (s : State) (t : TSlot) (d : TenantDecl) (life : TenantLife) (reason : Byte) (confirmed : Option Bool) : State :=
  let s := s.modTenant t (fun x => { (if life = .released then x.takeLost else x) with
    life := life, reason := reason, restarting := false, denValid := x.denStaged
    confirmed := confirmed.getD x.confirmed })
  let s := ((s.openPort t d).setLine d false).setAlert d false false
  let s := if life = .released then s.loadDataKey t else s.dropKey (.dataLeaf t)
  (if life = .released then s.refuseStale t d else s).publish t

/-- A tenant released, with its window when it is on trial (R205, R422). -/
def State.releaseTenant (s : State) (t : TSlot) (d : TenantDecl) : State :=
  let r := s.trial t
  if r.onTrial then
    let s := s.writeTrial t { r with starts := r.starts + 1 }
    let window := match s.running.manifest with
      | some m => ((m.recovery.find? (fun e => e.slot == t)).map (·.window)).getD 120
      | none => 0
    let s := s.serveTenant t d .released 0 (some false)
    (s.modTenant t (fun x => { x with windowEnds := some (s.clock.rtc + 32768 * window) })).tenantState t 0x01 0
  else (s.serveTenant t d .released 0 (some true)).tenantState t 0x01 0

/-- A tenant whose check failed (R207): held, or degraded at its place; a trial is reverted first (R422). -/
def State.failTenant (s : State) (t : TSlot) (d : TenantDecl) (reason : Byte) : State :=
  if s.mayRevert t then
    let s := (s.holdTenant t d reason).modTenant t (fun x => { x with waiting := 2, restarting := false })
    (s.tenantState t 0x02 reason).askRevert t
  else match d.failPolicy with
    | .hold => ((s.holdTenant t d reason).modTenant t (fun x => { x with restarting := false })).tenantState t 0x02 reason
    | .degrade => (s.serveTenant t d .degraded reason none).tenantState t 0x03 reason

/-! ### The start's order -/

/-- The tenant at a place of the release order (R205). -/
def State.atPlace (s : State) (k : Nat) : Option TenantDecl := s.inOrder[k]?

/-- The next tenant of the start staged, or the start closed (R206, R232). -/
def State.nextPlace (s : State) : State :=
  match s.stagingPlace with
  | none => s
  | some k =>
    match s.atPlace (k + 1) with
    | some d => { s with stagingPlace := some (k + 1) }.startStaging d.slot d false
    | none => { s with stagingPlace := none }.startGroup

/-- The start's staging of its first tenant begun at lap 3, or the start closed when no tenant is declared (R232). -/
def State.beginStaging (s : State) : State :=
  match s.atPlace 0 with
  | some d => { s with stagingPlace := some 0 }.startStaging d.slot d false
  | none => s.startGroup

/-- Whether a tenant's staging is that of the start, in its turn. -/
def State.inTurn (s : State) (t : TSlot) : Bool :=
  match s.stagingPlace with
  | some k => (match s.atPlace k with | some d => d.slot == t | none => false)
  | none => false

/-! ### Restart and revert (R419, R422, R423) -/

/-- Whether a tenant restart may begin: bounce buffer empty, posted mark closed (R419). -/
def State.mayRestart (s : State) (t : TSlot) : Bool :=
  let x := s.tenant t
  x.bounce.state == .empty && x.eraseWait.isNone && s.markClosed t &&
    (match s.commit with | some c => c.tenant != t | none => true)

/-- A tenant restart begun at slot 0 of the next lap: reset asserted, cache share and descriptors invalid, staging begun (R419). -/
def State.restart (s : State) (t : TSlot) (d : TenantDecl) : State :=
  let held := (s.tenant t).life == .held
  let gen := s.stagedGen t
  let s := s.setClock (s.clock.nextLap true)
  let s := (s.setLine d true).setAlert d false false
  let s := if d.attach = .portA then { s with update := { s.update with intake := none } } else s
  let s := s.modTenant t (fun x => { x with
    life := if held then .held else .created, restarting := true, waiting := 0, windowEnds := none, denValid := []
    generation := gen
    cache := x.cache.map (fun l => { l with valid := false }), inserts := [], awaited := [], drops := [], descriptors := [], chains := [], events := []
    flightMiss := [], writes := [], landed := [], inFlight := [], miss := false, defer := false, alert := false })
  let s := match d.port? with
    | some p => s.modPort p (fun q => { q with wel := false })
    | none => s
  (s.tenantState t 0x04 0).startStaging t d true

/-- What follows the ledger update of a revert: the record, then the previous generation is staged (R422). -/
def State.revertDone (s : State) (t : TSlot) : State :=
  let cause := if (s.trial t).starts = 3 then 0x01 else 0x02
  let s := (s.dropKey (.imageLeaf t (s.trial t).generation)).reverted t cause
  match s.decl? t with
  | none => s
  | some d =>
    if s.inTurn t ∧ (s.tenant t).life = .created then
      let s := if s.boot.versionsDone then s.versionsAhead t else s
      (s.modTenant t (fun x => { x with waiting := 0 })).stageNow t d false
    else if (s.tenant t).restarting then (s.modTenant t (fun x => { x with waiting := 0 })).stageNow t d true
    else s.modTenant t (fun x => { x with waiting := 1 })

/-- A revert refused in the commit-low state: the tenant stays held and the start goes on (R423). -/
def State.revertRefused (s : State) (t : TSlot) : State :=
  let s := { s with boot := { s.boot with notes := s.boot.notes ||| 8#32 } }
  match s.decl? t with
  | none => s
  | some d =>
    let fresh := s.inTurn t && (s.tenant t).life == .created
    let s := (s.holdTenant t d Code.lowbat).modTenant t (fun x => { x with waiting := 2, restarting := false })
    if fresh then (s.tenantState t 0x02 Code.lowbat).nextPlace else s

end Sys2Proof.Machine
end

