-- ==== Sys2Proof/Machine/ReadOps.lean ====
section
/-!
DEFINITION. How a tenant's read is answered, leaf by leaf (R273, R274, R280, R299, R306, R316): the Den, the leaf cache, the fault page; and the ends of
Cipher intervals (R294).
-/
namespace Sys2Proof.Machine

/-- The number under which a failed audit-window leaf is cached. -/
def windowFailNo (leaf : Nat) : Nat := 65536 + leaf

/-! ### The flag byte as 70h shows it (R280–R282, R306) -/

/-- Whether a miss waits for the lane to hear of it. -/
def Tenant.missReported (x : Tenant) : Bool := x.events.any (fun e => match e with | .miss _ _ => true | _ => false)

/-- The flag byte at the front end: the published byte with READY and MISS as the front end has changed them since. -/
def flagNow (x : Tenant) (wip : Bool) : Byte :=
  let b := if x.missReported then x.pubFlag ||| 0x40 else x.pubFlag
  if wip || x.missReported then b &&& 0x7F else b

/-! ### Reads (R273, R274, R299, R306, R316) -/

/-- How one leaf answers a read. -/
inductive LeafAnswer where
  | bytes (content : Bytes)
  | failed
  | miss
  | spoof
  | denied
deriving DecidableEq, Repr

/-- A data leaf as the front end finds it (R306, R316). -/
def Tenant.dataAnswer (x : Tenant) (d : TenantDecl) (a : Nat) : LeafAnswer :=
  let leaf := d.dataLeaf a
  let sector := leaf / 4
  let blank := match x.cached? .map (mapLeafOf sector) with
    | some l => (mapEntry l.content (sector % 128)).1 == unwritten
    | none => false
  if x.inFlight.contains sector then .miss
  else if blank then .bytes (List.replicate 1024 0xFF)
  else match x.cached? .data leaf with
    | some l => .bytes l.content
    | none => if (x.cached? .failed leaf).isSome then .failed else .miss

/-- The leaf of 1 KB that holds an address, as the front end answers it (R207, R273, R299, R306). -/
def State.leafAnswer (s : State) (t : TSlot) (d : TenantDecl) (wip : Bool) (a : Nat) : LeafAnswer :=
  let x := s.tenant t
  match d.region a with
  | .image =>
    if x.denValid.getD (a / 1024) false then .bytes (s.denBytes (4096 * x.denBase + a / 1024 * 1024) 1024) else .failed
  | r =>
    if x.life = .degraded then .denied
    else match r with
      | .data => x.dataAnswer d a
      | .fault =>
        let page := flagNow x wip :: (fit 64 0 x.pubFault).drop 1 ++ zeros (4096 - 64)
        .bytes (slice page (a / 1024 * 1024 - d.pageStart .fault) 1024)
      | .window =>
        match x.cached? .window (a / 1024) with
        | some l => .bytes l.content
        | none => if (x.cached? .failed (windowFailNo (a / 1024))).isSome then .failed else .miss
      | .none => .spoof
      | _ => match x.cached? .porch (a / 1024) with | some l => .bytes l.content | none => .miss

/-- A read in work: bytes so far and what is reported, each kind at its first byte. -/
structure ReadWalk where
  out : Bytes
  tampered : Option Nat
  spoof : Option Nat
  denied : Option Nat
  missed : Option Nat

/-- `n` bytes from `a`, leaf by leaf; a miss ends the walk with 0x5A to the end (R274). -/
def State.walkRead (s : State) (t : TSlot) (d : TenantDecl) (wip : Bool) : Nat → Nat → Nat → ReadWalk → ReadWalk
  | 0, _, _, w => w
  | fuel + 1, a, n, w =>
    if n = 0 then w
    else
      let here := min n (1024 - a % 1024)
      let fill := List.replicate here (0x5A : Byte)
      let next := addrAt a here
      match s.leafAnswer t d wip a with
      | .bytes c => s.walkRead t d wip fuel next (n - here) { w with out := w.out ++ slice c (a % 1024) here }
      | .failed => s.walkRead t d wip fuel next (n - here) { w with out := w.out ++ fill, tampered := w.tampered <|> some a }
      | .spoof => s.walkRead t d wip fuel next (n - here) { w with out := w.out ++ fill, spoof := w.spoof <|> some a }
      | .denied => s.walkRead t d wip fuel next (n - here) { w with out := w.out ++ fill, denied := w.denied <|> some a }
      | .miss => { w with out := w.out ++ List.replicate n 0x5A, missed := some a }

/-! ### Ends of Cipher intervals (R294) -/

/-- A leaf whose Cipher interval ends (R294–R296, R307, R310, R317). -/
def State.endJob (s : State) (lane : Fin 2) (j : LaneJob) : State :=
  let bad := fun (st : State) => st.latch (Ev.badTag lane.val)
  match j.purpose with
  | .staging t =>
    match s.decl? t, (s.tenant t).staging with
    | some d, some g => if g.verified = j.no then s.stageLeaf t d j.no j.content else s
    | _, _ => s
  | .chain t leaf =>
    match s.decl? t with
    | some d =>
      if (s.tenant t).chains.any (fun c => c.leaf == leaf) then
        match s.verifyJob t d j with
        | some plain => s.chainPassed t d j plain
        | none => (bad s).chainFailed t d leaf j.kind j.sector
      else s
    | none => s
  | .merge t =>
    match s.commit, s.decl? t with
    | some c, some d =>
      if c.tenant = t ∧ c.stage = .merge then
        match s.commitVerify d c j with
        | some plain => s.mergePassed d c j plain
        | none => (bad s).mergeFailed d c j.kind j.no j.sector
      else s
    | _, _ => s
  | .warden => s

/-- The Cipher interval of a lane ends (R294). -/
def State.verifyLane (s : State) (lane : Fin 2) : State :=
  match s.lanes[lane] with
  | some j => (s.setLane lane none).endJob lane j
  | none => s

/-- The end slot of a lane's Cipher interval reached, and its leaf passed on or replaced (R294). -/
def State.toLaneEnd (s : State) (lane : Fin 2) : State :=
  match s.lanes[lane] with
  | some j => (s.pass (j.until_ - s.now)).verifyLane lane
  | none => s

/-- The lanes whose Cipher interval has ended by now (R31, R294). -/
def State.endDue (s : State) : State :=
  [(0 : Fin 2), 1].foldl (fun st l => match st.lanes[l] with | some j => if j.until_ ≤ st.now then st.verifyLane l else st | none => st) s

/-- Both lanes at a frame boundary, where no activity is in progress (R31). -/
def State.endLanes (s : State) : State := (s.verifyLane 0).verifyLane 1

end Sys2Proof.Machine
end

