-- ==== Sys2Proof/Machine/PorchOps.lean ====
section
/-!
DEFINITION. What a lane poll takes (R274, R276, R280–R291, R306–R310, R334), porch pages (R285–R290), statements (R339, R471–R473).
-/
namespace Sys2Proof.Machine

/-! ### Porch pages (R285) -/

/-- The opcode or frame kind that a refusal of a write names (R286). -/
def TenantDecl.writeCode (d : TenantDecl) : Byte := if d.attach = .link then BitVec.ofNat 8 Code.fWrite else 0x02

/-- A porch request ended (R285). -/
def State.porchEnd (s : State) (t : TSlot) (r : Region) (status reason : Byte) : State :=
  s.modTenant t (fun x => x.setPage r { (x.page r) with status := status, reason := reason })

/-- A porch request refused: on its page and in the flags (R280, R285). -/
def State.porchRefuse (s : State) (t : TSlot) (d : TenantDecl) (r : Region) (reason : Byte) : State :=
  (s.porchEnd t r porchRefused reason).refuse t reason d.writeCode (d.pageStart r) 3

/-- Whether a page's request is pending. -/
def State.porchPending (s : State) (t : TSlot) (r : Region) : Bool := ((s.tenant t).page r).status == Sys2Proof.Machine.porchPending

/-- The writable bytes of a program stored in a page, the request byte aside (R285). -/
def Porch.store (p : Porch) (r : Region) (bytes : List (Nat × Byte)) : Porch :=
  bytes.foldl (fun q b => if b.1 ≠ 0 ∧ r.writableAt b.1 then q.put b.1 b.2 else q) p

/-- Why a porch page turns a program away, and whether its status shows it; none when the program is taken (R285, R291, R430). -/
def Tenant.porchBar (x : Tenant) (r : Region) (request : Option Byte) : Option (Byte × Bool) :=
  if x.life = .degraded then some (Code.policy, false)
  else match request with
    | none => none
    | some b =>
      if b = 0xFF then none
      else if (x.page r).status = Sys2Proof.Machine.porchPending then some (Code.notReady, false)
      else if !r.defines b then some (Code.policy, true)
      else if x.frozen ∧ (r = .confirm ∨ (r = .nonce ∧ b ≠ 1)) then some (Code.frozen, true)
      else none

/-- The request byte that a program of a page writes. -/
def requestOf (bytes : List (Nat × Byte)) : Option Byte := (bytes.find? (fun b => b.1 == 0)).map (·.2)

/-- A program of a porch page at its lane poll (R285, R291): `bytes` by offset in the page. -/
def State.takePorch (s : State) (t : TSlot) (d : TenantDecl) (r : Region) (bytes : List (Nat × Byte)) : State :=
  let x := s.tenant t
  match x.porchBar r (requestOf bytes) with
  | some (reason, true) => s.porchRefuse t d r reason
  | some (reason, false) => s.refuse t reason d.writeCode (d.pageStart r) 0
  | none =>
    let p := (x.page r).store r bytes
    match requestOf bytes with
    | none => s.setTenant t (x.setPage r p)
    | some b =>
      if b = 0xFF then s.setTenant t (x.setPage r p)
      else s.setTenant t (x.setPage r { p with request := b, status := Sys2Proof.Machine.porchPending, reason := 0 })

/-- The read-only fields of the nonce and confirm pages as they stand (R289, R290); seconds left are rounded up (log 26). -/
def State.livePages (s : State) (t : TSlot) : State :=
  let r := s.trial t
  let left := match (s.tenant t).windowEnds with
    | some e => min 65535 (ceilDiv (e - s.clock.rtc) 32768)
    | none => 0
  let c := s.counter (tenantCounterAt t)
  s.modTenant t (fun x => { x with
    noncePage := x.noncePage.putRange 4 (be 4 c)
    confirmPage := x.confirmPage.putRange 6 (be 2 x.generation ++ [if r.onTrial then 1 else 0, BitVec.ofNat 8 r.starts] ++ be 2 left) })

/-! ### Statements (R339, R471–R473) -/

/-- The state of a tenant in claim 13 (R472). -/
def TenantLife.claim (l : TenantLife) : Nat := match l with | .released => 0 | .held => 1 | .degraded => 2 | _ => 3

/-- One entry of claim 13 (R472, R473). -/
def State.tenantClaim (s : State) (t : TSlot) : Bytes :=
  let x := s.tenant t
  let h := s.ledger
  let r := s.trial t
  let shift := match s.running.manifest with | some m => m.counterShift | none => 0
  let c := s.counter (tenantCounterAt t)
  encArr [encUint t.val, encUint x.life.claim, encUint x.generation, encUint r.version, encBytes (entryDigest h t),
    encUint (entryDataGen h t), encBool r.onTrial, encUint (c / 2 ^ shift * 2 ^ shift)]

/-- The life-cycle claim (R472). -/
def LifeCycle.claim (l : LifeCycle) : Nat := (Code.life l).toNat

/-- The link role of claim 19 (R472, R513). -/
def LinkRole.code (r : LinkRole) : Nat := match r with | .off => 0 | .solo => 1 | .member => 2 | .lead => 3

/-- The claims map for a caller nonce with a battery reading in millivolts (R472, R473). -/
def State.claims (s : State) (nonce : Bytes) (battery : Nat) : Bytes :=
  let head := match s.ringRecord? (s.nextSequence - 1) with
    | some r => r
    | none => zeros 48
  let low := match s.vaultValue? lowAt with
    | some n => encArr [encUint n, encBytes (s.vaultBytes lowTagAt 16)]
    | none => encNull
  let spill := match s.vaultValue? oldestSpillAt with | some n => encUint n | none => encNull
  let sched := match s.running.schedule with
    | some r => encArr [encUint r.version, encBytes (r.digest.take 16)]
    | none => encArr [encUint 0, encBytes (zeros 16)]
  let step := match s.running.manifest with | some m => m.batteryStep | none => 0
  let mv := if step = 0 then battery else battery / step * step
  let lead := match s.link.lead with | some u => encBytes u | none => encNull
  encMap [(encUint 1, encBytes s.unitNumber), (encUint 2, encUint s.boot.counter), (encUint 3, encBytes nonce),
    (encUint 4, encUint s.boot.life.claim), (encUint 5, encUint (s.boot.marks.toNat % 16)), (encUint 6, encUint s.epoch),
    (encUint 7, encBytes s.ledgerId),
    (encUint 8, encArr [encUint (field head 0 4), encBytes (recordTag head), encBytes (slice head 4 6)]), (encUint 9, low),
    (encUint 10, spill), (encUint 11, sched), (encUint 12, encBytes (s.manifestDigest)),
    (encUint 13, encArr (s.declared.map s.tenantClaim)),
    (encUint 14, encArr [encBytes (s.vaultBytes challengeAt 16), encUint ((s.vaultValue? issueAt).getD 0)]),
    (encUint 15, encBytes (fit 16 0 s.boot.patchDigest)), (encUint 16, encUint mv),
    (encUint 17, encArr (s.link.counts.toList.map encUint)),
    (encUint 18, encArr (s.crossTable.map (fun e => encArr [encBytes e.1, encBytes e.2]))),
    (encUint 19, encArr [encUint s.link.role.code, lead]), (encUint 20, encUint ((s.vaultValue? serialAt).getD 0))]

/-- The record's `tenant` field for a requester (R468). -/
def StmtAsker.who (a : StmtAsker) : Byte := match a with | .tenant t => slotByte t | .linkTenant t _ => slotByte t | _ => 0xFF

/-- The tenant that asks, by its page or by its link identity. -/
def StmtAsker.slot? (a : StmtAsker) : Option TSlot := match a with | .tenant t => some t | .linkTenant t _ => some t | _ => none

/-- The statement at the head of the queue begun: its serial is taken and its STATEMENT record requested (R465, R472). -/
def State.beginStatement (s : State) : State :=
  match s.statements.queue with
  | q :: _ =>
    let n := (s.vaultValue? serialAt).getD 0 + 1
    (s.vaultPut serialAt n).recordThen Code.statement q.asker.who (fit 16 0 q.nonce ++ be 4 n) .statement
  | [] => s

/-- A statement asked for: one in progress and two waiting; false when the queue is full (R339). -/
def State.askStatement (s : State) (a : StmtAsker) (nonce : Bytes) : State × Bool :=
  if 3 ≤ s.statements.queue.length then (s, false)
  else
    let first := s.statements.queue.isEmpty
    let s := { s with statements := { s.statements with queue := s.statements.queue ++ [StmtReq.mk a nonce none] } }
    (if first then s.beginStatement else s, true)

/-- The content of the statement in progress fixed at the commit of its record; VBAT as the ADC reads it is free (R472, R473, log 2). -/
def State.fixStatement (s : State) : State :=
  match s.statements.queue with
  | q :: rest =>
    if q.claims.isSome then s
    else
      let (mv, s) := s.freeBelow 65536
      { s with statements := { s.statements with queue := { q with claims := some (s.claims q.nonce mv) } :: rest } }
  | [] => s

/-- What the commit of a record brings about (R288, R322, R417, R472). -/
def State.committed (s : State) (o : OnCommit) : State :=
  match o with
  | .nothing => s
  | .note t =>
    let n := s.nextSequence - 1
    s.modTenant t (fun x => { x with notePage := { (x.notePage.putRange 0x1C (be 4 n)) with status := porchDone, reason := 0 } })
  | .statement => s.fixStatement
  | .lateMark t => s.clearMark t
  | .closeInstall => s.closeInstall

/-- Queued records committed in order (R463). -/
def State.appendQueued (s : State) : List AuditReq → State
  | [] => s
  | r :: rest => ((s.appendNow r.kind r.tenant r.time r.body).committed r.onCommit).appendQueued rest

/-- Every queued record committed, so that the versions stand in the chain before the release that follows (R20, R206). -/
def State.appendAll (s : State) : State :=
  let queue := s.audit.queue
  { s with audit := { s.audit with queue := [] } }.appendQueued queue

/-- A hash signed by the link key, with the result; an empty key slot gives BAD_SCALAR (R393, R395). -/
def State.signHash (s : State) (hash : Bytes) : (Bytes × CryptoResult) × State :=
  let (rand, s) := s.random 32
  let sig := ecdsaSign (s.linkScalar?.getD 0) hash rand
  (sig, s.latchIf (sig.2 != .ok) Ev.curveBad)

/-- A payload signed by the link key (R393, R471); none when the engine gives no signature (R396). -/
def State.signStatement (s : State) (payload : Bytes) : Option Bytes × State :=
  let (sig, s) := s.signHash (sha256 (sigStructure es256Header payload))
  let whole := encArr [encBytes es256Header, encMap [(encUint 4, encBytes s.unitNumber)], encBytes payload, encBytes sig.1]
  (if sig.2 = .ok then some whole else none, s)

/-- A statement put on a statement page (R287). -/
def Tenant.putStatement (x : Tenant) (bytes : Bytes) : Tenant :=
  let p := x.statementPage
  { x with statementPage := { (p.putRange 0x14 (be 2 bytes.length)).putRange 0x20 (fit 4064 0 bytes) with status := porchDone, reason := 0 } }

/-- STATEMENT fragments queued to a peer (R351, R361). -/
def State.sendFragments (s : State) (dest : Dest) (request : Byte) (bytes : Bytes) : State :=
  let ps := pieces 240 bytes
  (ps.zipIdx).foldl (fun st p =>
    st.send (outFrame dest Code.fStatement request true ([0x01, BitVec.ofNat 8 p.2, BitVec.ofNat 8 ps.length] ++ p.1))) s

/-- A signed statement delivered to its requester (R287, R361, R475). -/
def State.deliver (s : State) (a : StmtAsker) (bytes : Bytes) : State :=
  match a with
  | .tenant t => s.modTenant t (fun x => x.putStatement bytes)
  | .linkTenant t request =>
    match s.decl? t with
    | some d => (s.modTenant t (fun x => x.putStatement bytes)).sendFragments (.peer d.peer) request bytes
    | none => s
  | .unit u request => s.sendFragments (.peer (.unit u)) request bytes
  | .readout => { s with statements := { s.statements with readout := be 2 bytes.length ++ zeros 10 ++ fit 4064 0 bytes } }

/-- The statement in progress signed and delivered; the next one begins (R339, R472). A signing that gave BAD_SCALAR is repeated in the
next Curve interval (R396). -/
def State.signHead (s : State) : State :=
  match s.statements.queue with
  | q :: rest =>
    match q.claims with
    | some payload =>
      match s.signStatement payload with
      | (some bytes, s) => ({ s with statements := { s.statements with queue := rest } }.deliver q.asker bytes).beginStatement
      | (none, s) => s
    | none => s
  | [] => s

/-! ### Events at a lane poll -/

/-- MISS stands until a leaf is published (R280, R304). -/
def Tenant.await (x : Tenant) (k : LeafKind) (no : Nat) : Tenant := { x with miss := true, awaited := x.awaited ++ [(k, no)] }

/-- A missed audit-window leaf filled at the poll (R274, R310). -/
def State.fillWindow (s : State) (t : TSlot) (d : TenantDecl) (addr : Nat) : State :=
  let leaf := addr / 1024
  let off := addr / 1024 * 1024 - d.size
  if s.vaultBadIn off 1024 then
    let s := s.modTenant t (fun x => ((x.insert .failed (windowFailNo leaf) []).tamperedAt (1024 * leaf)).await .failed (windowFailNo leaf))
    s.leafFail t leaf unwritten LeafKind.window.link
  else s.modTenant t (fun x => (x.insert .window leaf (s.vaultBytes off 1024)).await .window leaf)

/-- A missed porch leaf filled at the poll (R274). -/
def State.fillPorch (s : State) (t : TSlot) (d : TenantDecl) (addr : Nat) : State :=
  let leaf := addr / 1024
  let r := d.region addr
  (s.livePages t).modTenant t (fun x => (x.insert .porch leaf ((x.page r).range (1024 * leaf - d.pageStart r) 1024)).await .porch leaf)

/-- A miss of a data leaf at the poll (R307, R308, R316, R334). -/
def State.queueChain (s : State) (t : TSlot) (d : TenantDecl) (opcode : Byte) (addr : Nat) : State :=
  let x := s.tenant t
  let leaf := d.dataLeaf addr
  let sector := leaf / 4
  if x.inFlight.contains sector then
    s.setTenant t { x with miss := true, flightMiss := if x.flightMiss.contains sector then x.flightMiss else x.flightMiss ++ [sector] }
  else if x.chainLimit ≤ x.chains.length then (s.refuse t Code.quota opcode addr 0).endReads t opcode.toNat addr Code.quota
  else if x.chains.any (fun c => c.leaf == leaf) ∨ (.data, leaf) ∈ x.awaited ∨ (.failed, leaf) ∈ x.awaited then s.setTenant t { x with miss := true }
  else if (x.have? .data leaf).isSome ∨ (x.have? .failed leaf).isSome ∨ (chainNeed x d leaf).isNone then s
  else
    let c : Chain := { leaf := leaf, opcode := opcode, addr := addr, lap := s.clock.boundaries, deferred := false, held := x.heldFor d leaf, busy := false, served := false }
    s.setTenant t { x with chains := x.chains ++ [c], miss := true }

/-! ### Frames of a link tenant at its poll (R285, R337, R339) -/

/-- A request kept; an older one of the same identifier is forgotten (R337). -/
def State.keepRequest (s : State) (t : TSlot) (r : LinkRequest) : State :=
  s.modTenant t (fun x => { x with linkReq := x.linkReq.filter (fun q => q.request != r.request) ++ [r] })

/-- A kept request of a link tenant that waits answered with an outcome. -/
def State.answerKept (s : State) (t : TSlot) (d : TenantDecl) (request : Byte) (kind : Nat) (outcome : Byte) : State :=
  match (s.tenant t).linkReq.find? (fun r => r.request == request && r.kind == kind && r.outcome.isNone) with
  | some r => s.answerLink t d r outcome
  | none => s

/-- The WRITE frame that a program or erase answers for gets its outcome (R320, R337). -/
def State.endWrite (s : State) (t : TSlot) (w : Option PendingWrite) (outcome : Byte) : State :=
  match s.decl? t, w.bind (·.linkRequest) with
  | some d, some request => s.answerKept t d request Code.fWrite outcome
  | _, _ => s

/-- A WRITE of a porch page taken at the poll, and acknowledged or refused (R285, R361). -/
def State.pollPage (s : State) (t : TSlot) (d : TenantDecl) (request : Byte) (addr : Nat) (data : Bytes) : State :=
  let r := d.region addr
  let bytes := (pageWrites addr data).map (fun b => (b.1 - d.pageStart r, b.2))
  let outcome := match (s.tenant t).porchBar r (requestOf bytes) with
    | some (reason, _) => reason
    | none => 0
  (s.takePorch t d r bytes).answerKept t d request Code.fWrite outcome

/-- A STATEMENT request of a link tenant at the poll: asked for, or refused (R287, R339, R361). -/
def State.pollStatement (s : State) (t : TSlot) (d : TenantDecl) (request : Byte) (nonce : Bytes) : State :=
  if s.porchPending t .statement then
    (s.refuse t Code.notReady (BitVec.ofNat 8 Code.fStatement) 0xFFFFFF 0).answerKept t d request Code.fStatement Code.notReady
  else
    let s := s.modTenant t (fun x => { x with
      statementPage := { (x.statementPage.putRange 4 nonce) with request := 0x01, status := Sys2Proof.Machine.porchPending, reason := 0 } })
    let r := s.askStatement (.linkTenant t request) nonce
    if r.2 then r.1.modTenant t (fun x => { x with linkReq := x.linkReq.filter (fun q => q.request != request) })
    else (s.porchRefuse t d .statement Code.full).answerKept t d request Code.fStatement Code.full

/-- One event of a tenant applied at its poll (R276, R291, R299, R306). -/
def State.applyEvent (s : State) (t : TSlot) (d : TenantDecl) (e : LaneEvent) : State :=
  match e with
  | .miss opcode addr =>
    match d.region addr with
    | .data => s.queueChain t d opcode addr
    | .window => s.fillWindow t d addr
    | r => if r.isPage then s.fillPorch t d addr else s
  | .tampered addr => s.modTenant t (fun x => x.tamperedAt addr)
  | .spoof opcode addr => s.refuse t Code.spoof opcode addr 1
  | .denied opcode addr => s.refuse t Code.policy opcode addr 0
  | .clearFlags => s
  | .filtered opcode addr => s.refuse t Code.policy opcode addr.toNat 0
  | .porchProgram addr bytes =>
    let r := d.region addr
    let s := s.takePorch t d r (bytes.map (fun b => (b.1 - d.pageStart r, b.2)))
    s.clearWip t
  | .porchFrame request addr data => s.pollPage t d request addr data
  | .statementFrame request nonce => s.pollStatement t d request nonce

/-- An outcome of an earlier moment reported (R310, R322). -/
def State.applyOutcome (s : State) (t : TSlot) (o : TOutcome) : State :=
  match o with
  | .late addr => s.modTenant t (fun x => x.lateAt addr)
  | .refused reason opcode addr =>
    let s := s.refuse t reason opcode addr 0
    if opcode.toNat = Code.fWrite then s.endWrite t (s.tenant t).accepted reason else s.endReads t opcode.toNat addr reason
  | .tampered addr => s.modTenant t (fun x => x.tamperedAt addr)

/-- Chains and waiting writes that pass the lap they arrived in are deferred once, which sets DEFER (R280, R314, R335). -/
def State.markDeferred (s : State) (t : TSlot) : State :=
  let now := s.clock.boundaries
  s.modTenant t (fun x =>
    let due := x.chains.filter (fun c => !c.deferred && decide (c.lap < now))
    let late := fun (w : PendingWrite) => if w.lap < now then { w with deferred := true } else w
    let wdue := (x.write.toList ++ x.writes).filter (fun w => !w.deferred && decide (w.lap < now))
    { x with
      chains := x.chains.map (fun c => if c.lap < now then { c with deferred := true } else c)
      write := x.write.map late, writes := x.writes.map late, defer := x.defer || !due.isEmpty || !wdue.isEmpty
      deferrals := sat16 (x.deferrals + due.length + wdue.length) })

/-- Chains whose fetch has ended may ask for their next one (R332). -/
def State.freeChains (s : State) (t : TSlot) : State :=
  let running := fun (leaf : Nat) => s.lanes.toList.any (fun j => match j with
    | some j => j.purpose == FetchPurpose.chain t leaf
    | none => false)
  s.modTenant t (fun x => { x with chains := x.chains.map (fun c => { c with busy := running c.leaf, served := c.served && running c.leaf }) })

/-- WIP and WEL of a write that has ended cleared, and its ACK sent (R320). -/
def State.finishWrite (s : State) (t : TSlot) : State :=
  if (s.tenant t).wipDone then
    let w := (s.tenant t).accepted
    ((s.modTenant t (fun x => { x with wipDone := false, accepted := none })).clearWip t).endWrite t w 0
  else s

/-- Sectors whose end has been published are in flight no more (R316). -/
def Tenant.land (x : Tenant) : Tenant :=
  if x.drops.isEmpty then
    { x with inFlight := x.inFlight.filter (fun k => !x.landed.contains k), landed := []
             flightMiss := x.flightMiss.filter (fun k => !x.landed.contains k) }
  else x

/-- A data leaf that a waiting READ of a link tenant still misses and for which nothing is pending: its chain is queued again; a porch or
window leaf is filled (R274, R307, R337, R340). -/
def State.continueRead (s : State) (t : TSlot) (d : TenantDecl) (r : LinkRequest) : State :=
  let x := s.tenant t
  let w := s.walkRead t d false (r.count / 1024 + 2) r.addr r.count ⟨[], none, none, none, none⟩
  let pending := fun (k : LeafKind) (no : Nat) => (k, no) ∈ x.awaited
  match w.missed with
  | none => s
  | some a => match d.region a with
    | .data =>
      let leaf := d.dataLeaf a
      if x.inFlight.contains (leaf / 4) || x.chains.any (fun c => c.leaf == leaf) || decide (x.chainLimit ≤ x.chains.length) then s
      else s.queueChain t d (BitVec.ofNat 8 Code.fRead) a
    | .window => if pending .window (a / 1024) ∨ pending .failed (windowFailNo (a / 1024)) then s else s.fillWindow t d a
    | _ => if pending .porch (a / 1024) then s else s.fillPorch t d a

/-- DATA (R351): TAMPERED shows in the flag byte of a read that met a failed leaf. -/
def State.replyData (s : State) (t : TSlot) (p : Peer) (request : Byte) (addr : Nat) (bytes : Bytes) (failed : Bool) : State :=
  let flag := (s.tenant t).flagByte false ||| (if failed then 0x04 else 0)
  s.send (outFrame (.peer p) Code.fData request true (flag :: be 3 addr ++ [BitVec.ofNat 8 bytes.length] ++ bytes))

/-- A READ that waits without a WAIT of its own, answered once no byte of it misses (R337, R361). -/
def State.finishRead (s : State) (t : TSlot) (d : TenantDecl) (r : LinkRequest) : State :=
  let w := s.walkRead t d false (r.count / 1024 + 2) r.addr r.count ⟨[], none, none, none, none⟩
  if w.missed.isSome then s
  else
    let s := s.modTenant t (fun x => { x with
      linkReq := x.linkReq.filter (fun q => q.request != r.request)
      events := x.events ++ (w.tampered.map LaneEvent.tampered).toList })
    s.replyData t d.peer r.request r.addr w.out w.tampered.isSome

/-- The READs of a link tenant that wait. -/
def Tenant.waitingReads (x : Tenant) : List LinkRequest := x.linkReq.filter (fun r => r.kind == Code.fRead && r.outcome.isNone)

/-- The next WRITE of a link tenant takes the place of the one that has ended (R337). -/
def Tenant.nextWrite (x : Tenant) : Tenant :=
  match x.writes with
  | w :: rest => if x.write.isNone && x.accepted.isNone then { x with write := some w, writes := rest } else x
  | [] => x

/-- The next merge fetch of the tenant's commit has been found requestable (R332). -/
def State.askMerge (s : State) (t : TSlot) : State :=
  match s.commit with
  | some c =>
    let running := s.lanes.toList.any (fun j => match j with | some j => j.purpose == .merge t | none => false)
    if c.tenant = t ∧ c.stage = .merge ∧ !running then { s with commit := some { c with asked := true } } else s
  | none => s

/-- Chains whose next fetch needs a failed chip refused (R336). -/
def State.pollDead (s : State) (t : TSlot) (d : TenantDecl) : State :=
  match s.running.manifest with
  | some m => s.refuseDead m t d
  | none => s

/-- The lane poll of a tenant (R281, R282): 50h first, then the events in order, then what other agents ended, then one publication. -/
def State.pollLane (s : State) (t : TSlot) (d : TenantDecl) : State :=
  let x := s.tenant t
  let es := x.events
  let s := s.setTenant t { (if es.contains LaneEvent.clearFlags then x.clearFlags else x) with events := [] }
  let s := es.foldl (fun st e => st.applyEvent t d e) s
  let s := (s.tenant t).waitingReads.foldl (fun st r => st.continueRead t d r) s
  let s := (s.freeChains t).pollDead t d
  let os := (s.tenant t).outcomes
  let s := s.modTenant t (fun y => { y with outcomes := [] })
  let s := os.foldl (fun st o => st.applyOutcome t o) s
  let s := ((s.markDeferred t).finishWrite t).askMerge t
  let s := ((s.modTenant t (fun y => y.land.nextWrite.liveBits)).livePages t).publish t
  ((s.tenant t).waitingReads.filter (fun r => !r.waited)).foldl (fun st r => st.finishRead t d r) s

end Sys2Proof.Machine
end

