-- ==== Sys2Proof/Machine/Porch.lean ====
section
/-!
DEFINITION. Meanings of the porch services: statements (R287, R472), notes (R288, R470), nonces and counters (R289), confirmation
(R290, R422).
-/
namespace Sys2Proof.Machine

/-- A tenant's declaration while the fabric runs and the tenant is released. -/
def State.client? (s : State) (t : TSlot) : Option TenantDecl :=
  if s.awake && (s.tenant t).life == .released then s.decl? t else none

/-- MAKE_STATEMENT (R287, R339). -/
def execMakeStatement (t : TSlot) (s : State) : Out :=
  .next (match s.client? t with
    | some d =>
      if s.porchPending t .statement ∧ !s.statements.queue.any (fun q => q.asker.slot? == some t) then
        let r := s.askStatement (.tenant t) ((s.tenant t).statementPage.range 4 16)
        if r.2 then r.1 else s.porchRefuse t d .statement Code.full
      else s
    | none => s)

/-- STATEMENT_SIGNING (R472): one ES256 signature, 2 laps. -/
def execStatementSigning (s : State) : Out :=
  .next (if s.awake then
    match s.statements.queue with
    | q :: _ => if q.claims.isSome then ((s.toStart 4).setClock ((s.toStart 4).clock.skipLaps 2 true)).signHead else s
    | [] => s
  else if s.boot.stage = .readout then s.signHead.modPort .a (fun p =>
    if s.statements.queue.any (fun q => q.claims.isSome) ∧ s.signHead.statements.queue.isEmpty then { p with wip := false, wel := false } else p)
  else s)

/-- Notes that a tenant has appended in this lap (R470). -/
def State.notesNow (s : State) (t : TSlot) : Nat :=
  let n := (s.tenant t).notesInLap
  if n.1 = s.clock.boundaries then n.2 else 0

/-- A note requested of Ledger (R288, R470). -/
def State.requestNote (s : State) (t : TSlot) : State :=
  let p := (s.tenant t).notePage
  let n := s.notesNow t
  let s := s.modTenant t (fun x => { x with notesInLap := (s.clock.boundaries, n + 1) })
  s.recordThen Code.note (slotByte t) (p.range 4 1 ++ p.range 8 18) (.note t)

/-- APPEND_NOTE (R288, R470). -/
def execAppendNote (t : TSlot) (s : State) : Out :=
  .next (match s.client? t with
    | some d =>
      let p := (s.tenant t).notePage
      if !s.porchPending t .note ∨ s.audit.queue.any (fun r => r.onCommit == .note t) then s
      else if p.byte3 ≠ slotByte t then s.porchRefuse t d .note Code.spoof
      else if 0x80 ≤ (p.byte 4).toNat then s.porchRefuse t d .note Code.policy
      else if 8 ≤ s.notesNow t then s
      else s.requestNote t
    | none => s)

/-- A new nonce on the nonce page with the next serial (R289). -/
def State.giveNonce (s : State) (t : TSlot) : State :=
  let (n, s) := s.random 32
  s.modTenant t (fun x =>
    let p := x.noncePage
    let serial := (beNat (p.range 8 4) + 1) % 2 ^ 32
    { x with noncePage := (p.putRange 8 (be 4 serial)).putRange 0x10 n })

/-- Why an advance of a tenant counter is refused, none when it is not (R172, R289, R430). -/
def State.advanceBar (s : State) (t : TSlot) : Option Byte :=
  if (s.tenant t).frozen then some Code.frozen
  else if s.power.commitLow then some Code.lowbat
  else if counterMax ≤ s.counter (tenantCounterAt t) then some Code.policy
  else none

/-- A tenant counter advanced (R172, R289). -/
def State.advance (s : State) (t : TSlot) : State := (s.countUp (tenantCounterAt t)).livePages t

/-- Whether a nonce-page request of a value is pending. -/
def State.nonceAsked (s : State) (t : TSlot) (request : Byte) : Bool :=
  s.porchPending t .nonce && (s.tenant t).noncePage.request == request

/-- NEW_NONCE (R289). -/
def execNewNonce (t : TSlot) (s : State) : Out :=
  .next (match s.client? t with
    | some _ => if s.nonceAsked t 1 then (s.giveNonce t).porchEnd t .nonce porchDone 0 else s
    | none => s)

/-- ADVANCE_COUNTER (R172, R289). -/
def execAdvanceCounter (t : TSlot) (s : State) : Out :=
  .next (match s.client? t with
    | some d =>
      if s.nonceAsked t 2 then
        match s.advanceBar t with
        | some reason => s.porchRefuse t d .nonce reason
        | none => (s.advance t).porchEnd t .nonce porchDone 0
      else s
    | none => s)

/-- NONCE_AND_ADVANCE (R289): done or refused as a whole. -/
def execNonceAndAdvance (t : TSlot) (s : State) : Out :=
  .next (match s.client? t with
    | some d =>
      if s.nonceAsked t 3 then
        match s.advanceBar t with
        | some reason => s.porchRefuse t d .nonce reason
        | none => ((s.giveNonce t).advance t).porchEnd t .nonce porchDone 0
      else s
    | none => s)

/-- The running generation confirmed: the trial ends (R422). -/
def State.confirmTrial (s : State) (t : TSlot) : State :=
  let r := s.trial t
  if r.onTrial then
    (s.writeTrial t { r with onTrial := false, starts := 0 }).modTenant t (fun x => { x with confirmed := true, windowEnds := none })
  else s

/-- CONFIRM_GENERATION (R290, R422). -/
def execConfirmGeneration (t : TSlot) (s : State) : Out :=
  .next (match s.client? t with
    | some d =>
      if s.porchPending t .confirm then
        if (s.tenant t).frozen then s.porchRefuse t d .confirm Code.frozen
        else if beNat ((s.tenant t).confirmPage.range 4 2) ≠ (s.tenant t).generation then s.porchRefuse t d .confirm Code.policy
        else ((s.confirmTrial t).livePages t).porchEnd t .confirm porchDone 0
      else s
    | none => s)

end Sys2Proof.Machine
end

