-- ==== Sys2Proof/Machine/Service.lean ====
section
/-!
DEFINITION. Meanings of the commands of Ledger, Warden and the Sequencer's own work: ledger updates (R177, R178), audit appends (R463),
vault writes (R170), spill batches (R466), the erase queue (R262), the flash directory (R255), the free pool (R265).
-/
namespace Sys2Proof.Machine

/-! ### The key ledger -/

/-- The pair in the body of an install of kind 0x02: manifest and image (R411). -/
def Install.pair (i : Install) : Option (Bytes × Bytes) := bodyParts i.kind (i.object.drop 64)

/-- What follows a ledger update that committed (R178 U5, R198, R419, R420, R422, R430, R432). -/
def State.afterCommit (s : State) (req : LedgerReq) (old : Bytes) : State :=
  match req.after with
  | .nothing => s
  | .image =>
    match s.update.install with
    | some i =>
      let t := slotOfNat i.slot.toNat
      (s.dropKey (.imageLeaf t (entryImageGen old t))).imageInstalled i old
    | none => s
  | .pair =>
    match s.update.install with
    | some i => s.pairInstalled i i.pair
    | none => s
  | .exported => s.exported
  | .imported slots digests digest ceiling _ vacated => s.imported slots digests digest ceiling vacated
  | .revert t => s.revertDone t

/-- What follows a ledger update that was refused or failed (R178, R415, R423, R432, R433). -/
def State.afterRefusal (s : State) (req : LedgerReq) (reason : Byte) : State :=
  match req.after with
  | .nothing => s
  | .image => s.refuseInstall reason 0
  | .pair => s.refuseInstall reason 0
  | .exported => s.abortExport reason
  | .imported _ _ _ _ _ _ => s.abortImport reason
  | .revert t => s.revertRefused t

/-- The first requested update run from slot 0 of a lap (R178; log 183). -/
def State.runUpdate (s : State) (req : LedgerReq) (rest : List LedgerReq) (tripIn : Option (Fin 4)) : State :=
  let old := s.ledger
  let (s, e) := (s.setClock s.clock.toLapStart).ledgerUpdate req.patches req.cause tripIn
  let s := if tripIn.isSome ∧ !s.power.commitLow then s.commitTrip.latch Ev.commitTripped else s
  let s := s.latch Ev.ledgerEnded
  let s := match e with
    | .committed => s.afterCommit req old
    | .refused reason => s.afterRefusal req reason
    | .failed => s.afterRefusal req Code.lowbat
  { s with update := { s.update with ledger := rest ++ s.update.ledger.drop (rest.length + 1) } }

/-- LEDGER_UPDATE (R178–R180). -/
def execLedgerUpdate (tripIn : Option (Fin 4)) (s : State) : Out :=
  .next (if s.awake ∧ s.liveHalf?.isSome then
    match s.update.ledger with
    | req :: rest => s.runUpdate req rest tripIn
    | [] => s
  else s)

/-- LEDGER_INITIALISE (R177): in a start that found the ledger lost, at slot 0 of a lap at which the commit monitor is clear. -/
def execLedgerInitialise (s : State) : Out :=
  .next (if s.awake ∧ s.update.initDue ∧ s.commitClear then (s.setClock s.clock.toLapStart).ledgerInit else s)

/-! ### Audit (R463–R467) -/

/-- OVERFLOW requested once the queue has room again (R463). -/
def State.overflowRecord (s : State) : State :=
  if s.audit.overflow = 0 ∨ queueDepth ≤ s.audit.queue.length then s
  else
    let n := s.audit.overflow
    { s with audit := { s.audit with overflow := 0 } }.record Code.overflow 0xFF (be 2 n)

/-- AUDIT_APPEND (R463): up to 8 records. -/
def execAuditAppend (s : State) : Out :=
  .next (if s.awake ∧ s.boot.life ≠ .scrapped then
    let s := s.toStart 6
    let batch := s.audit.queue.take 8
    let s := { s with audit := { s.audit with queue := s.audit.queue.drop 8 } }
    (s.appendQueued batch).overflowRecord
  else s)

/-- VAULT_WRITE_COMPLETE (R170, R320): the first write in progress is stored; WIP of a posted program clears at the next poll. -/
def execVaultWriteComplete (s : State) : Out :=
  .next (if s.awake then
    match s.update.vaultWrite with
    | j :: rest =>
      let s := j.words.foldl (fun st w => st.vaultWrite w.1 w.2) { s with update := { s.update with vaultWrite := rest } }
      let s := match j.wip with
        | some t => s.modTenant t (fun x => { x with wipDone := true })
        | none => s
      s.latch Ev.vaultWritten
    | [] => s
  else s)

/-! ### The Sequencer's own work -/

/-- Whether a directory or spill write may start: no commit step and no other write in progress (R266). -/
def State.mayHousekeep (s : State) : Bool :=
  s.mayWrite && !s.commitStepRuns && s.flash.directoryPages.isEmpty && s.audit.spilling.isNone

/-- SPILL_BATCH_WRITE (R466, R467). -/
def execSpillBatchWrite (s : State) : Out :=
  .next (if s.mayHousekeep ∧ s.spillRecords ≠ 0 then (s.toStart 1).beginSpill.pump else s)

/-- ERASE_QUEUE_ERASE (R262, R264): the oldest queued sector whose chip serves. -/
def execEraseQueueErase (s : State) : Out :=
  .next (if s.mayHousekeep then
    match s.flash.eraseQueue.find? (fun r => s.chipServes (refChip r)) with
    | some r => (s.toStart 1).startTask .eraseQueue (eraseTask r)
    | none => s
  else s)

/-- FLASH_DIRECTORY_UPDATE (R255). -/
def execFlashDirectoryUpdate (s : State) : Out :=
  .next (if s.mayHousekeep ∧ s.flash.directoryDue then (s.toStart 1).beginDirectory.pump else s)

/-- Whether the start's staging has ended. -/
def State.staged (s : State) : Bool := s.stagingPlace.isNone && s.boot.startDone

/-- FREE_POOL_REBUILD (R265): after staging. -/
def execFreePoolRebuild (s : State) : Out :=
  .next (if s.awake ∧ s.staged ∧ !s.flash.poolReady then
    match s.running.manifest with
    | some m => ((s.toStart 0).rebuildPool m).pump
    | none => s
  else s)

end Sys2Proof.Machine
end

