-- ==== Sys2Proof/Machine/MailOps.lean ====
section
/-!
DEFINITION. The wake of the fabric (R120, R121) and the mailboxes: sends (R57–R62, R66, R67), receives (R63, R64), the channel table
(R53–R55), the BADGER record that Ledger makes of a log message (R448, R468).
-/
namespace Sys2Proof.Machine

/-! ### Wake (R120, R121) -/

/-- The boundary at which a fabric asked for now resumes: ready within 320 µs, 20,480 slots; how much less is free (R120, log 2). -/
def State.readyBoundary (s : State) : Nat × State :=
  if s.clock.slot + 20480 ≤ lapSlots then (s.clock.boundaries + 1, s)
  else
    let (early, s) := s.freeBit
    ((if early then s.clock.boundaries + 1 else s.clock.boundaries + 2), s)

/-- A wake request in S: the buck, the fabric domain and the vault domain are powered (R115, R120, R121). -/
def State.askWake (s : State) : State :=
  if s.power.phase = .s then
    match s.sleep.resumeAt with
    | some _ => s
    | none =>
      let (b, s) := s.readyBoundary
      { s.latch Ev.wakeRequest with
          power := { s.power with buckOn := true, fabricOn := true, vaultOn := true }
          sleep := { (s.latch Ev.wakeRequest).sleep with resumeAt := some b } }
  else s

/-! ### Channels -/

/-- The fabric counts as down outside phase N (R68). -/
def State.fabricDown (s : State) : Bool := s.power.phase != .n

/-- A fabric master (R51). -/
def isFabricMaster (identity : Nat) : Bool := decide (1 ≤ identity) && decide (identity ≤ 4)

/-- A channel's side. -/
def ChannelDecl.side (d : ChannelDecl) (a : Bool) : SideDecl := if a then d.sideA else d.sideB

/-- The side of a channel that a sender holds: true for A; none when it may not send (R53, R59). -/
def ChannelDecl.sendingSide (d : ChannelDecl) (sender : Nat) : Option Bool :=
  if d.sideA.identity = sender then some true
  else if d.shared && d.sideB.identity == sender then some false
  else none

/-- The notice word (R57). -/
def noticeWord (sender : Nat) (seq : BitVec 8) (r : NoticeReq) : BitVec 32 :=
  BitVec.ofNat 32 (sender * 2 ^ 28 + seq.toNat * 2 ^ 20 + r.offset.toNat * 2 ^ 12 + r.length.toNat * 2 ^ 7 + r.topic.toNat)

/-- Whether offset and length lie wholly inside the sender's region (R57, R58; a notice without a message, log 101). -/
def noticeInRegion (d : SideDecl) (r : NoticeReq) : Bool :=
  decide (d.base ≤ r.offset.toNat) && decide (r.offset.toNat + r.length.toNat ≤ d.base + d.len)

/-- Send statuses (R59). -/
def sendAccepted : BitVec 3 := 0
def sendOverwrote : BitVec 3 := 1
def sendFull : BitVec 3 := 2
def sendAsleep : BitVec 3 := 3
def sendUnbound : BitVec 3 := 4
def sendRange : BitVec 3 := 5

/-- The status of a send, in the precedence of R59. -/
def State.sendStatusOf (s : State) (c : Channel) (r : NoticeReq) : BitVec 3 :=
  match s.mailbox.locked, c.decl with
  | true, some d =>
    match d.sendingSide r.sender.val with
    | none => sendUnbound
    | some a =>
      if !noticeInRegion (d.side a) r then sendRange
      else if isFabricMaster (d.side !a).identity && s.fabricDown && !(d.side !a).wake then sendAsleep
      else if !d.shared && decide (d.depth ≤ c.queue.length) then sendFull
      else if d.shared && !c.queue.isEmpty then sendOverwrote
      else sendAccepted
  | _, _ => sendUnbound

/-- A channel with a notice of side `a` written (R57, R60, R61): the sequence counts the notices written, from 0 (DEDUCED, log 179). -/
def Channel.put (c : Channel) (d : ChannelDecl) (a : Bool) (r : NoticeReq) : Channel :=
  let word := noticeWord r.sender.val (if a then c.seqA else c.seqB) r
  let hit := d.shared && !c.queue.isEmpty
  { c with
    queue := if d.shared then [(word, a)] else c.queue ++ [(word, a)]
    collidedA := c.collidedA || hit, collidedB := c.collidedB || hit
    seqA := if a then c.seqA + 1 else c.seqA, seqB := if a then c.seqB else c.seqB + 1 }

/-- A channel replaced. -/
def State.setChannel (s : State) (ch : Fin 12) (c : Channel) : State :=
  { s with mailbox := { s.mailbox with channels := s.mailbox.channels.set ch c } }

/-- A notice written for a fabric receiver: its event bit, or in S the wake, after which the bit is latched in the first slot of the
resumed lap (R64, R66). -/
def State.noticeArrived (s : State) (side : SideDecl) : State :=
  if isFabricMaster side.identity then
    if s.fabricDown then s.askWake else match side.event with | some n => s.latch (Ev.mailbox n) | none => s
  else s

/-- One send at a channel edge with its status (R59). -/
def State.channelSend (s : State) (ch : Fin 12) (r : NoticeReq) : BitVec 3 × State :=
  let c := s.mailbox.channels[ch]
  let status := s.sendStatusOf c r
  if status = sendAccepted ∨ status = sendOverwrote then
    match c.decl with
    | some d =>
      let a := (d.sendingSide r.sender.val).getD true
      (status, (s.setChannel ch (c.put d a r)).noticeArrived (d.side !a))
    | none => (status, s)
  else (status, s)

/-- The side that an identity reads a channel from, and whether it may read: on a private channel only B does (R53, R63). -/
def ChannelDecl.readingSide (d : ChannelDecl) (reader : Nat) : Option Bool :=
  if d.sideB.identity = reader then some false
  else if d.shared && d.sideA.identity == reader then some true
  else none

/-- The notices unread by a side, oldest first (R63). -/
def Channel.unread (c : Channel) (a : Bool) : List (BitVec 32) := (c.queue.filter (fun n => n.2 != a)).map (·.1)

/-- The channel after its oldest notice for a side was received (R63). -/
def Channel.received (c : Channel) (a : Bool) : Channel :=
  { c with queue := (c.queue.takeWhile (fun n => n.2 == a)) ++ (c.queue.dropWhile (fun n => n.2 == a)).drop 1
           collidedA := if a then false else c.collidedA, collidedB := if a then c.collidedB else false }

/-- Whether any fabric master has an unread notice (R68, R118). -/
def State.fabricUnread (s : State) : Bool :=
  s.mailbox.channels.toList.any (fun c => match c.decl with
    | some d => [true, false].any (fun a => isFabricMaster (d.side a).identity && !(c.unread a).isEmpty)
    | none => false)

/-- Mailbox event bits that stay latched because a notice is unread (R64). -/
def State.relatchMail (s : State) : State :=
  s.mailbox.channels.toList.foldl (fun st c => match c.decl with
    | some d => [true, false].foldl (fun st a => match (d.side a).event with
      | some n => if (c.unread a).isEmpty then st else st.latch (Ev.mailbox n)
      | none => st) st
    | none => st) s

/-- The body of BADGER made from a log message (R448, R468). -/
def badgerBody (message : Bytes) : Bytes := fit 20 0 message

/-- Whether a channel is the log channel of the Badger program. -/
def State.isLogChannel (s : State) (ch : Fin 12) : Bool :=
  match s.badger.program with
  | some p => p.logChannel == some ch.val
  | none => false

/-- What a receive brings about at its reader: Badger's trigger (R442, R445), Ledger's BADGER record (R448). -/
def State.noticeRead (s : State) (ch : Fin 12) (reader : Nat) (word : BitVec 32) : State :=
  if reader = 5 then
    { s with badger := { s.badger with notices := s.badger.notices ++ [BitVec.ofNat 7 word.toNat] } }
  else if reader = 2 ∧ s.isLogChannel ch ∧ word.toNat / 2 ^ 28 = 5 then
    s.record Code.badger 0xFF (badgerBody (s.sramBytes (0xF800 + 8 * (word.toNat / 2 ^ 12 % 256)) 16))
  else s

/-- One receive (R63): the word and status are kept for the reader; with nothing unread, COLLIDED stands. -/
def State.channelReceive (s : State) (ch : Fin 12) (reader : Nat) : State :=
  let c := s.mailbox.channels[ch]
  match c.decl with
  | none => s
  | some d =>
    match d.readingSide reader with
    | none => s
    | some a =>
      let collided : Nat := if (if a then c.collidedA else c.collidedB) then 8 else 0
      match c.unread a with
      | [] => { s with mailbox := { s.mailbox with received := (none, BitVec.ofNat 4 collided) } }
      | w :: rest =>
        let s := s.setChannel ch (c.received a)
        let s := { s with mailbox := { s.mailbox with received := (some w, BitVec.ofNat 4 (min 7 rest.length + collided)) } }
        s.noticeRead ch reader w

/-- Every notice unread by a side of a channel, received by its master (R64). -/
def State.readSide (s : State) (ch : Fin 12) (d : ChannelDecl) (a : Bool) : State :=
  (s.mailbox.channels[ch].unread a).foldl (fun st _ => st.channelReceive ch (d.side a).identity) s

/-- Every notice unread by the sides that a test picks, received by their masters (R64). -/
def State.readSides (s : State) (pick : SideDecl → Bool) : State :=
  (List.finRange 12).foldl (fun st ch => match st.mailbox.channels[ch].decl with
    | some d => [true, false].foldl (fun st a => if pick (d.side a) then st.readSide ch d a else st) st
    | none => st) s

/-- The receiver of mailbox event `n` reads its channel at the polling slot (R64). -/
def State.readMail (s : State) (n : Nat) : State := s.readSides (fun d => d.event == some n)

/-- The PMU reads its channels at its clock edge (R64). -/
def State.pmuReads (s : State) : State := s.readSides (fun d => d.identity == 6)

/-- Badger reads its channels at a BDG edge (R64, R445). -/
def State.badgerReads (s : State) : State := s.readSides (fun d => d.identity == 5)

/-- The mailbox event of a master's side of a channel (R53). -/
def State.sideEvent? (s : State) (ch : Fin 12) (reader : Nat) : Option Nat :=
  s.mailbox.channels[ch].decl.bind (fun d => (d.readingSide reader).bind (fun a => (d.side a).event))

/-- Whether a master may act: the fabric masters while the fabric runs, Badger and the PMU above phase R (R51, R64). -/
def State.masterRuns (s : State) (identity : Nat) : Bool :=
  if identity = 5 ∨ identity = 6 then s.power.phase != .r && s.power.phase != .u else s.power.phase == .b || s.awake

end Sys2Proof.Machine
end

