-- ==== Sys2Proof/Machine/Sleep.lean ====
section
/-!
DEFINITION. Meanings of the sleep commands (R115–R121, R267, R363). A command whose condition does not hold leaves the state as it is
(log 14).
-/
namespace Sys2Proof.Machine

/-- The idle threshold of the schedule in force, in laps (R36, R118). -/
def State.idleThreshold (s : State) : Nat := match s.running.schedule with | some r => r.idleThreshold | none => 0

/-- Laps in a frame of the schedule in force (R32). -/
def State.frameLaps (s : State) : Nat := match s.running.schedule with | some r => r.frameLaps | none => 1

/-- No frame of a partner is awaited (R362, R363, R382). -/
def State.linkQuiet (s : State) : Bool :=
  allSlots.all (fun t => (s.tenant t).notice.isNone) &&
    (match s.sleep.lnkWakeAt with | some b => decide (b + 8 ≤ s.clock.boundaries) | none => true) &&
    s.link.crossOut.isNone && s.link.crossIn.isEmpty

/-- No work of the engines is under way that a power-down would cut (log 27). -/
def State.enginesQuiet (s : State) : Bool :=
  !s.flashBusy && s.flash.cutAt.isNone && s.commit.isNone && s.audit.queue.isEmpty && s.statements.queue.isEmpty &&
    s.stagingPlace.isNone &&
    allSlots.all (fun t =>
      let x := s.tenant t
      x.bounce.state == .empty && x.eraseWait.isNone && x.write.isNone && x.chains.isEmpty && x.staging.isNone && !x.restarting &&
        x.waiting == 0 && !x.frozen && x.events.isEmpty) &&
    s.update.vaultWrite.isEmpty && s.update.ledger.isEmpty && s.update.install.isNone && s.update.importing.isNone &&
    s.running.handover.isNone

/-- Whether the fabric may enter S at the boundary it stands at (R118, R180, R362, R363, R382, R425). -/
def State.maySleep (s : State) : Bool :=
  s.clock.lap % s.frameLaps == 0 && s.events == 0 && decide (s.sleep.lastEvent + s.idleThreshold + 1 ≤ s.clock.boundaries) &&
    !s.fabricUnread && s.linkQuiet && s.enginesQuiet

/-- Whether any tenant is served, so that the port domain stays on in S (R116, R117; log 29). -/
def State.anyServed (s : State) : Bool := allSlots.any (fun t => (s.tenant t).life == .released || (s.tenant t).life == .degraded)

/-- The working SRAM outside the notice store loses its content (R52, R116). -/
def State.loseSram (s : State) : State :=
  let store := s.sramBytes 0xF800 0x800
  { s with sram := [], sramFill := s.freeDrawn + 2, freeDrawn := s.freeDrawn + 1 }.sramWrite 0xF800 store

/-- A port front end that loses its supply: its registers are reset, what it is bound to and its count of R236 are not (R116). -/
def PortSt.dark (x : PortSt) : PortSt := { PortSt.reset with mode := x.mode, early := x.early }

/-- The port domain loses the Den and the registers of the front ends when it goes off (R116, R117). -/
def State.loseDen (s : State) : State :=
  if s.anyServed then s
  else { s with den := [], denFill := s.freeDrawn + 2, freeDrawn := s.freeDrawn + 1, portA := s.portA.dark, portB := s.portB.dark }

/-- The leaf cache in S: not retained (R117). -/
def Tenant.sleepCache (x : Tenant) : Tenant :=
  { x with cache := x.cache.map (fun l => { l with valid := false }), inserts := [], awaited := [], drops := [] }

/-- One opcode sent to each chip that serves (R251, R267). -/
def State.orderBoth (s : State) (op : Sfdp → Byte) : State :=
  [(0 : Fin 2), 1].foldl (fun st c => if st.chipServes c then st.order c [op (st.chip c).sfdp] else st) s

/-- The fabric powers down, the chips before it (R115–R121, R267, R353). -/
def State.fallAsleep (s : State) (count : Option Nat) : State :=
  let on := s.anyServed
  let s := (s.orderBoth (·.downOps.1)).loseSram.loseDen
  { s with
    power := { s.power with phase := .s, buckOn := false, fabricOn := false, vaultOn := false, portOn := on }
    sleep := { s.sleep with wakeCount := count.map (fun n => s.clock.boundaries + n), resumeAt := none, lnkWoke := false
                            lnkWakeAt := none }
    tenants := s.tenants.map Tenant.sleepCache
    lanes := Vector.replicate 2 none
    flash := { s.flash with deepDown := true }
    link := { s.link with idleSeen := false, longPace := true }
    pads := { s.pads with lnk := .monitored } }

/-- SLEEP_ENTRY (R118). -/
def execSleepEntry (wakeCount : Option Nat) (s : State) : Out :=
  .next (if s.awake then
    let t := (s.setClock s.clock.toLapStart).endLanes
    if t.maySleep then t.fallAsleep wakeCount else s
  else s)

/-- WAKE_REQUEST (R120, R121): an edge on LNK wakes while the link is not off (R363). -/
def execWakeRequest (src : WakeSource) (s : State) : Out :=
  .next (if s.power.phase = .s then
    match src with
    | .lnkEdge => if s.link.role ≠ .off then { s.askWake with sleep := { s.askWake.sleep with lnkWoke := true } } else s
    | _ => s.askWake
  else s)

/-- SLEEP_TIMER_WAKE (R121). -/
def execSleepTimerWake (s : State) : Out :=
  .next (if s.power.phase = .s then
    match s.sleep.wakeCount with
    | some b =>
      let first := match s.sleep.resumeAt with | some r => decide (b < r) | none => true
      if first then
        let s := s.setClock (s.clock.toBoundary b false)
        { (s.latch Ev.sleepTimer).askWake with sleep := { (s.latch Ev.sleepTimer).askWake.sleep with wakeCount := none } }
      else s
    | none => s
  else s)

/-- The chips released from deep power-down at the first Sequencer activity after the resume; no fetch within a chip's exit delay after
that (R267). -/
def State.releaseChips (s : State) : State :=
  let first := match s.running.schedule with | some x => x.untilStart 1 (x.place s.clock) | none => 0
  let ready := fun (c : Fin 2) => s.now + first + 64 * (s.chip c).sfdp.exitDelayUs
  let s := s.orderBoth (·.downOps.2)
  { s with flash := { s.flash with deepDown := false, readyAt := (s.flash.readyAt.set 0 (ready 0)).set 1 (ready 1) } }

/-- The fabric runs again at slot 0 of a lap, in whose first slot the events of S and the mailbox bits are latched (R66, R119–R121, R267,
R363). -/
def State.wakeUp (s : State) (b : Nat) : State :=
  let portWasOff := !s.power.portOn
  let woke := s.sleep.lnkWoke
  let s := s.setClock (s.clock.toBoundary b false)
  let s := { s with
    power := { s.power with phase := .n, buckOn := true, fabricOn := true, vaultOn := true, portOn := true }
    pads := { s.pads with lnk := if s.link.opened then .function else .released }
    events := s.events ||| s.sleep.waiting
    sleep := { s.sleep with lastEvent := s.clock.boundaries, resumeAt := none, wakeCount := none, lnkWoke := false
                            lnkWakeAt := if woke then some s.clock.boundaries else none, waiting := 0 } }
  (s.releaseChips.relatchMail.latch Ev.buckSettled).latch Ev.resumed |>.latchIf portWasOff Ev.portPower |>.latchIf woke Ev.lnkWake

/-- FABRIC_RESUME (R119, R120): at the boundary that the wake request settled. -/
def execFabricResume (s : State) : Out :=
  .next (if s.power.phase = .s then
    match s.sleep.resumeAt with
    | some b => s.wakeUp b
    | none => s
  else s)

end Sys2Proof.Machine
end

