-- ==== Sys2Proof/Machine/BadgerOps.lean ====
section
/-!
DEFINITION. Badger at run time: sampling and filters (R436–R438, R495), timers (R441), triggers and rules (R442, R443), actions and
their conflicts (R446, R447), E, T and ACT_EN (R453–R455), messages (R448, R449), platform wakes (R450).
-/
namespace Sys2Proof.Machine

/-! ### Sampling (R436, R437, R495) -/

/-- Upper and lower threshold of a pair code, in hundredths of the reference (R437). -/
def thresholds (code : Nat) : Nat × Nat :=
  match code with | 0 => (70, 30) | 1 => (55, 45) | 2 => (85, 70) | _ => (30, 15)

/-- The comparator after a strobe: certain beyond the tolerance of R495, free within it (log 2), its previous value between. -/
def State.compare (s : State) (c : BChanCfg) (old : Bool) (mv : Nat) : Bool × State :=
  let ref := if c.pull then s.power.vbat else 1200
  let tol := 2 * ref + 1000
  let (up, low) := thresholds c.threshold
  let v := 100 * mv
  if up * ref + tol < v then (true, s)
  else if v + tol < low * ref then (false, s)
  else if up * ref ≤ v + tol then
    let (b, s) := s.freeBit
    (old || b, s)
  else if v ≤ low * ref + tol then
    let (b, s) := s.freeBit
    (old && b, s)
  else (old, s)

/-- The outputs that a level filter decides from, newest first, and what it decides (R438). -/
def levelFilter (c : BChanCfg) (outputs : List Bool) (filtered : Bool) : Bool :=
  let ones := fun (n : Nat) => ((outputs.take n).filter (fun b => b)).length
  match c.mode with
  | 0 => outputs.headD filtered
  | 1 =>
    let new := outputs.headD filtered
    if c.d ≤ outputs.length ∧ (outputs.take c.d).all (fun b => b == new) then new else filtered
  | 2 => decide (3 ≤ ones 5)
  | _ => decide (5 ≤ ones 9)

/-- A channel at its first tick: history and state from the first sample, no edge (R434). -/
def BChan.first (c : BChanCfg) (comparator : Bool) : BChan :=
  let v := comparator != c.lowActive
  { comparator := comparator, samples := [v, v], outputs := List.replicate 255 v, filtered := v }

/-- A channel after a sample: glitch reject, then the level filter (R438). -/
def BChan.next (x : BChan) (c : BChanCfg) (comparator : Bool) : BChan :=
  let v := comparator != c.lowActive
  let last := x.samples.headD v
  let before := (x.samples.drop 1).headD last
  let out := if c.glitch then (if last ≠ before ∧ last ≠ v then before else last) else v
  let outputs := (out :: x.outputs).take 255
  { comparator := comparator, samples := [v, last], outputs := outputs, filtered := levelFilter c outputs x.filtered }

/-- A channel whose filter history restarts from its filtered state (R457). -/
def BChan.restart (x : BChan) : BChan :=
  { x with samples := [x.filtered, x.filtered], outputs := List.replicate 255 x.filtered }

/-- A channel entry of a program. -/
def BProgram.channel (p : BProgram) (i : Nat) : BChanCfg := p.channels.getD i ⟨false, false, false, false, 0, 0, 0⟩

/-- One channel sampled at a tick (R434, R436). -/
def State.sampleChannel (s : State) (p : BProgram) (i : Fin 4) (mv : Nat) : State :=
  let c := p.channel i.val
  if c.enable then
    let x := s.badger.chans[i]
    let (cmp, s) := s.compare c x.comparator mv
    let x := if s.badger.started then x.next c cmp else BChan.first c cmp
    { s with badger := { s.badger with chans := s.badger.chans.set i x } }
  else s

/-! ### State word, triggers (R442, R443) -/

/-- The state word (R443). -/
def Badger.word (b : Badger) : BitVec 16 :=
  let bit := fun (n : Nat) (v : Bool) => if v then 2 ^ n else 0
  BitVec.ofNat 16 (((b.chans.toList.zipIdx).map (fun p => bit p.2 p.1.filtered)).sum +
    ((b.timers.toList.zipIdx).map (fun p => bit (4 + p.2) (decide (p.1 ≠ 0)))).sum +
    bit 12 b.actEn + bit 13 b.egress + bit 14 b.tamper + bit 15 b.latch)

/-- What occurred in a tick: edges by channel (became active), guard change, notices' topics, status changes (bit, set). -/
structure Triggers where
  edges : List (Nat × Bool)
  expired : BitVec 8
  guard : Bool
  topics : List (BitVec 7)
  status : List (Nat × Bool)

/-- A qualifier of edges and status changes: 1 for set, 2 for clear, 3 for either (R442). -/
def qualifies (q : Nat) (set_ : Bool) : Bool := if set_ then q % 2 == 1 else q / 2 % 2 == 1

/-- Whether a rule's trigger occurred (R442). -/
def BRule.triggered (r : BRule) (x : Triggers) : Bool :=
  match r.source with
  | 0 => x.edges.any (fun e => e.1 == r.index && qualifies r.qualifier e.2)
  | 1 => x.expired.getLsbD r.index
  | 2 => x.guard
  | 3 => if r.qualifier = 0xFF then !x.topics.isEmpty else x.topics.any (fun n => n.toNat == r.qualifier)
  | 4 => x.status.any (fun e => e.1 == r.index && qualifies r.qualifier e.2)
  | 15 => true
  | _ => false

/-- Whether a rule fires (R442). -/
def BRule.fires (r : BRule) (x : Triggers) (word : BitVec 16) : Bool := r.triggered x && (word &&& r.mask) == r.value

/-- The status bits now: commit-low, fabric awake, LFXO qualified (R442). -/
def State.statusBits (s : State) : Bool × Bool × Bool := (s.power.commitLow, s.power.phase == .n, s.power.lfxoQualified)

/-- The changes between two readings of the status bits. -/
def statusChanges (a b : Bool × Bool × Bool) : List (Nat × Bool) :=
  (if a.1 = b.1 then [] else [(0, b.1)]) ++ (if a.2.1 = b.2.1 then [] else [(1, b.2.1)]) ++ (if a.2.2 = b.2.2 then [] else [(2, b.2.2)])

/-! ### Timers (R441) -/

/-- Timers advanced by one tick, with the expiries (R441, R445). -/
def Badger.advanceTimers (b : Badger) : Badger :=
  let ended := ((b.timers.toList.zipIdx).filter (fun p => p.1 == 1)).map (fun p => 2 ^ p.2)
  { b with timers := b.timers.map (fun n => n - 1), expired := b.expired ||| BitVec.ofNat 8 ended.sum }

/-- START and STOP of the fired rules; STOP prevails (R441, R446). -/
def Badger.timerActions (b : Badger) (p : BProgram) (fired : List BRule) : Badger :=
  let starts := fun (i : Nat) => fired.any (fun r => r.actions.getLsbD 5 && r.timer == i)
  let stops := fun (i : Nat) => fired.any (fun r => r.actions.getLsbD 6 && r.timer == i)
  { b with timers := Vector.ofFn (fun (i : Fin 8) =>
      if stops i.val then 0
      else if starts i.val then ticksOf (p.timers.getD i.val 0) (tickPeriods p.tickCode)
      else b.timers[i]) }

/-! ### E, T, ACT_EN (R453–R455) -/

/-- A hold input after a tick: active now, active before, the output and its remaining ticks; `hold` is the length in ticks. -/
def holdStep (now before was : Bool) (left hold : Nat) : Bool × Nat :=
  if now then (true, hold)
  else if was then (if before then (true, hold) else (decide (1 < left), left - 1))
  else (false, 0)

/-- The filtered state of a channel that the policy names. -/
def Badger.input (b : Badger) (c : Option (Fin 4)) : Bool := match c with | some i => b.chans[i].filtered | none => false

/-- E and T after a tick (R453, R454); `before` is the state of the channels at the previous tick. -/
def Badger.holds (b : Badger) (before : Badger) (p : BProgram) : Badger :=
  match b.policy with
  | none => { b with egress := false, egressLeft := 0, tamper := false, tamperLeft := 0 }
  | some a =>
    let k := tickPeriods p.tickCode
    let e := holdStep (b.input a.egress) (before.input a.egress) b.egress b.egressLeft (ticksOf a.egressHoldMs k)
    let t := holdStep (b.input a.tamper) (before.input a.tamper) b.tamper b.tamperLeft (ticksOf 1000 k)
    { b with egress := e.1, egressLeft := e.2, tamper := t.1, tamperLeft := t.2 }

/-- ACT_EN by the rows of R455. -/
def Badger.permit (b : Badger) : Bool :=
  if b.program.isNone ∨ b.policy.isNone then false
  else if b.egress then true
  else if b.guards.any (fun g => g.2 != .released) then false
  else if b.tamper then false
  else b.latch

/-- ACT_EN computed and driven (R445 step 6). -/
def State.drivePermit (s : State) : State :=
  let on := s.badger.permit
  { s with badger := { s.badger with actEn := on }, pads := { s.pads with actEn := if on then .high else .low } }

/-- The cause bits 1–6 of a message from the changes of ACT_EN, E and T (R448). -/
def causesOf (old new : Badger) : Nat :=
  (if new.actEn && !old.actEn then 2 else 0) + (if old.actEn && !new.actEn then 4 else 0) + (if new.egress && !old.egress then 8 else 0) +
    (if old.egress && !new.egress then 16 else 0) + (if new.tamper && !old.tamper then 32 else 0) +
    (if old.tamper && !new.tamper then 64 else 0)

/-- A Badger event raised; in S it wakes the fabric (R121, R451). -/
def State.badgerEvent (s : State) (e : Nat) : State := (s.latch e).askWake

/-- The events of the causes (R451). -/
def State.causeEvents (s : State) (causes : Nat) : State :=
  let raise_ := fun (st : State) (p : Nat × Nat) => if causes.testBit p.1 then st.badgerEvent p.2 else st
  [(1, Ev.actAsserted), (2, Ev.actWithdrawn), (3, Ev.egressStarted), (4, Ev.egressEnded), (5, Ev.tamperTripped), (6, Ev.tamperCleared)].foldl
    raise_ s

/-! ### Messages (R448, R449) -/

/-- A log message (R448). -/
def Badger.message (b : Badger) (causes : Nat) (rule event : Byte) (count : Nat) : Bytes :=
  [BitVec.ofNat 8 causes, rule, event, BitVec.ofNat 8 count] ++ be 2 b.word.toNat ++ be 4 b.tick ++ be 2 b.dropped ++ zeros 4

/-- A message dropped and counted (R449). -/
def State.dropMessage (s : State) : State :=
  { s with badger := { s.badger with dropped := sat16 (s.badger.dropped + 1) } }.badgerEvent Ev.logDropped

/-- Badger's side of a channel. -/
def ChannelDecl.badgerSide (d : ChannelDecl) : SideDecl := if d.sideA.identity = 5 then d.sideA else d.sideB

/-- A channel number. -/
def channelIndex (n : Nat) : Fin 12 := ⟨n % 12, Nat.mod_lt _ (by decide)⟩

/-- The message of a tick sent on the log channel (R445 step 7, R448, R449). -/
def State.logMessage (s : State) (p : BProgram) (causes : Nat) (rule event : Byte) (count : Nat) : State :=
  match p.logChannel with
  | none => s
  | some n =>
    let ch := channelIndex n
    match s.mailbox.channels[ch].decl with
    | none => s.dropMessage
    | some d =>
      let side := d.badgerSide
      let slots := side.len / 2
      let k := if slots = 0 then 0 else s.badger.slot % slots
      let offset := side.base + 2 * k
      let taken := s.mailbox.channels[ch].queue.any (fun w =>
        w.1.toNat / 2 ^ 28 == 5 && w.1.toNat / 2 ^ 12 % 256 == offset)
      if taken ∨ slots = 0 then s.dropMessage
      else
        let s := s.sramWrite (0xF800 + 8 * offset) (s.badger.message causes rule event count)
        let (status, s) := s.channelSend ch ⟨5, BitVec.ofNat 8 offset, 2, BitVec.ofNat 7 causes⟩
        if status = sendAccepted ∨ status = sendOverwrote then
          { s with badger := { s.badger with dropped := 0, slot := (k + 1) % slots } }
        else s.dropMessage

/-! ### Platform wake (R450) -/

/-- A pulse of 2 BDG periods on a port's ALERT# pin when its tenant is released (R450). -/
def State.platformWake (s : State) (p : Port) : State :=
  match s.portTenant p with
  | some t =>
    if (s.tenant t).life = .released then
      let stop := s.clock.rtc + 2
      let s := s.driveAlert p (!(s.tenant t).alert)
      { s with badger := { s.badger with pulse := match p with
          | .a => (stop, s.badger.pulse.2)
          | .b => (s.badger.pulse.1, stop) } }
    else s
  | none => s

/-! ### The tick (R445) -/

/-- WAKE and PLATFORM WAKE of the fired rules (R447). -/
def State.wakeActions (s : State) (fired : List BRule) : State :=
  let s := fired.foldl (fun st r => if r.actions.getLsbD 0 then st.badgerEvent (Ev.badgerWake r.wakeBit) else st) s
  let named := fun (i : Nat) => fired.any (fun r => r.actions.getLsbD 4 && r.targets.getLsbD i)
  let s := if named 0 then s.platformWake .a else s
  if named 1 then s.platformWake .b else s

/-- The BDG edge of the next tick reached: the first edge after slot 0 of lap 3, then every k periods (R434). -/
def State.toTick (s : State) (p : BProgram) : State :=
  let edge := if s.badger.started then s.badger.nextTick else s.clock.rtc + 1
  let s := s.pass (s.clock.slotsToRtc edge)
  { s with badger := { s.badger with nextTick := s.clock.rtc + tickPeriods p.tickCode } }

/-- The BDG edge of the tick that is due reached (R434). -/
def State.toEdge (s : State) : State := s.pass (s.clock.slotsToRtc s.badger.nextTick)

/-- Steps 6 and 7 of a tick: permit, message, events (R445–R448). `old` is Badger before the step, `logs` the fired rules with LOG by
number. -/
def State.settleTick (s : State) (p : BProgram) (old : Badger) (logs : List (BRule × Nat)) : State :=
  let s := s.drivePermit
  let causes := causesOf old s.badger + (if logs.isEmpty then 0 else 1)
  let (rule, event) := match logs with
    | (r, i) :: _ => (BitVec.ofNat 8 i, BitVec.ofNat 8 r.eventCode)
    | [] => ((0xFF : Byte), (0 : Byte))
  let s := if causes = 0 then s else s.logMessage p causes rule event logs.length
  s.causeEvents causes

/-- A channel of Badger. -/
def Badger.chan (b : Badger) (i : Fin 4) : BChan := b.chans[i]

/-- Edges between two readings of the filters: channel and whether it became ACTIVE (R438). -/
def edgesOf (old new : Badger) : List (Nat × Bool) :=
  (List.finRange 4).filterMap (fun i =>
    if (new.chan i).filtered = (old.chan i).filtered then none else some (i.val, (new.chan i).filtered))

/-- What the first tick sets besides the filters: the latch and the tick number (R434, R455); a guard is HELD until its decision (R235,
R452). -/
def Badger.countTick (b : Badger) (p : BProgram) : Badger :=
  if b.started then { b with tick := b.tick + 1 }
  else { b with started := true, tick := 0, latch := p.initialLatch }

/-- Steps 1–3: samples and filters, timers, latched changes (R445). -/
def State.tickInputs (s : State) (p : BProgram) (mv : Fin 4 → Nat) : State :=
  let s := (List.finRange 4).foldl (fun st i => st.sampleChannel p i (mv i)) s
  { s with badger := (s.badger.countTick p).advanceTimers }

/-- What occurred in a tick whose start found Badger as `old` (R442, R445); the first tick raises no edge (R434). -/
def State.triggers (s : State) (old : Badger) : Triggers :=
  { edges := if old.started then edgesOf old s.badger else [], expired := s.badger.expired, guard := old.guardChanged
    topics := old.notices, status := if old.started then statusChanges old.status s.statusBits else [] }

/-- Latched inputs consumed by a tick. -/
def Badger.consume (b : Badger) (status : Bool × Bool × Bool) : Badger :=
  { b with expired := 0, guardChanged := false, notices := [], status := status }

/-- The permit latch after the fired rules: WITHDRAW prevails (R446, R447). -/
def Badger.latchActions (b : Badger) (fired : List BRule) : Badger :=
  { b with latch := if fired.any (fun r => r.actions.getLsbD 3) then false
                    else if fired.any (fun r => r.actions.getLsbD 2) then true else b.latch }

/-- The rules that fire, by number (R442, R445). -/
def firedRules (p : BProgram) (x : Triggers) (word : BitVec 16) : List (BRule × Nat) :=
  (p.rules.zipIdx).filter (fun r => r.1.fires x word)

/-- One tick of a program (R434, R445). -/
def State.badgerTick (s : State) (p : BProgram) (mv : Fin 4 → Nat) : State :=
  let s := (s.toTick p).badgerReads.pmuReads
  let old := s.badger
  let s := s.tickInputs p mv
  let fired := firedRules p (s.triggers old) s.badger.word
  let rules := fired.map (·.1)
  let b := ((s.badger.consume s.statusBits).timerActions p rules).latchActions rules
  ({ s with badger := b.holds old p }.wakeActions rules).settleTick p old (fired.filter (fun r => r.1.actions.getLsbD 1))

/-! ### Loading, guards, switch (R434, R452, R457) -/

/-- The state of a guard by its tenant (R452). -/
def Tenant.guard (x : Tenant) : Guard :=
  if x.restarting then .held else match x.life with | .released => .released | .degraded => .degraded | _ => .held

/-- The guard word by the tenants' states. -/
def State.guardWord (s : State) (a : ActuatorPolicy) : List (TSlot × Guard) := a.guards.map (fun t => (t, (s.tenant t).guard))

/-- Badger's program and policy loaded in laps 0–2 (R434, R435). -/
def State.loadBadger (s : State) (m : Manifest) : State :=
  { s with badger := { Badger.reset with
      program := m.badger.map programOf, policy := m.actuator
      guards := match m.actuator with | some a => a.guards.map (fun t => (t, Guard.held)) | none => [] } }

/-- The switch to the inactive half with the state carried over (R457). -/
def State.switchBadger (s : State) (p : BProgram) : State :=
  { s with badger := { s.badger with program := some p, inactive := none, chans := s.badger.chans.map BChan.restart } }.badgerEvent
    Ev.programSwitched

end Sys2Proof.Machine
end

