-- ==== Sys2Proof/Machine/BadgerRun.lean ====
section
/-!
DEFINITION. Meanings of the Badger commands (R434–R457). A command whose condition does not hold leaves the state as it is (log 14).
-/
namespace Sys2Proof.Machine

/-- Badger runs: a program is loaded and lap 3 has begun (R434, R435). -/
def State.badgerRuns (s : State) : Option BProgram :=
  if s.isRunning ∧ (s.power.phase = .n ∨ s.power.phase = .s) then s.badger.program else none

/-- The program that waits in the inactive half once the handover is over (R425, R457). -/
def State.switchDue? (s : State) : Option BProgram := if s.running.handover.isNone then s.badger.inactive else none

/-- BADGER_TICK (R64, R445): without a program Badger only reads its channels at its edge. A switch that is due comes before the tick, since
its edge lies in lap H (R425). -/
def execBadgerTick (sense0 sense1 sense2 sense3 : Nat) (s : State) : Out :=
  let mv := fun (i : Fin 4) => [sense0, sense1, sense2, sense3].getD i.val 0
  .next (match s.badgerRuns, s.switchDue? with
  | some _, some q => (s.switchBadger q).badgerTick q mv
  | some p, none => s.badgerTick p mv
  | none, _ => if s.inReset then s else s.badgerReads.pmuReads)

/-- BADGER_TIMER_EXPIRY (R441): at the edge of its last tick a timer stops, and its expiry is latched for the rules of that tick. -/
def execBadgerTimerExpiry (i : Fin 8) (s : State) : Out :=
  .next (match s.badgerRuns with
  | some _ =>
    if s.badger.timers[i] = 1 then
      let s := s.toEdge
      { s with badger := { s.badger with timers := s.badger.timers.set i 0, expired := s.badger.expired ||| BitVec.ofNat 8 (2 ^ i.val) } }
    else s
  | none => s)

/-- EGRESS_HOLD_EXPIRY (R453): the last tick of the hold has come with the input still INACTIVE. -/
def execEgressHoldExpiry (s : State) : Out :=
  .next (match s.badgerRuns with
  | some p =>
    let inactive : Bool := match s.badger.policy with | some a => !s.badger.input a.egress | none => true
    if s.badger.egress ∧ s.badger.egressLeft = 1 ∧ inactive then
      let s := s.toEdge
      { s with badger := { s.badger with egress := false, egressLeft := 0 } }.settleTick p s.badger []
    else s
  | none => s)

/-- TAMPER_HOLD_EXPIRY (R454): the last tick of the hold has come with the input still INACTIVE. -/
def execTamperHoldExpiry (s : State) : Out :=
  .next (match s.badgerRuns with
  | some p =>
    let inactive : Bool := match s.badger.policy with | some a => !s.badger.input a.tamper | none => true
    if s.badger.tamper ∧ s.badger.tamperLeft = 1 ∧ inactive then
      let s := s.toEdge
      { s with badger := { s.badger with tamper := false, tamperLeft := 0 } }.settleTick p s.badger []
    else s
  | none => s)

/-- GUARD_WORD_WRITE (R452): at slot 0 of a lap in which a guard's state has changed. -/
def execGuardWordWrite (s : State) : Out :=
  .next (if s.awake then
    match s.badger.policy with
    | some a =>
      let new := s.guardWord a
      if new = s.badger.guards then s
      else
        let s := s.setClock s.clock.toLapStart
        { s with badger := { s.badger with guards := new, guardChanged := true } }
    | none => s
  else s)

/-- BADGER_PROGRAM_SWITCH (R457): in the lap of the handover, when the inactive half holds the new program. -/
def execBadgerProgramSwitch (s : State) : Out :=
  .next (match s.badgerRuns, s.switchDue? with
  | some _, some p => s.switchBadger p
  | _, _ => s)

end Sys2Proof.Machine
end

