-- ==== Sys2Proof/Machine/LifeOps.lean ====
section
/-!
DEFINITION. Life-cycle steps of the boot ROM: holds (R110, R135, R140, R141), transition records and wipes (R138, R142, R145),
top-up (R143), the request area and its requests (R147–R151, R154, R155), the challenge (R148).
-/
namespace Sys2Proof.Machine

/-- The unit holds: keys zeroised, fabric and vault powered down, Badger off, pads as they stand (R110, R135, R168, R435). -/
def State.hold (s : State) (stage : BootStage) : State :=
  { s.zeroiseKeys with boot := { s.boot with stage := stage }
                       power := { s.power with fabricOn := false, vaultOn := false, portOn := false, wdtOn := false } }

/-- A hold for LC_OTP_FAIL, LC_LOWBAT or NO_SCHEDULE with its record (R509). -/
def State.holdWith (s : State) (reason : Byte) : State :=
  (s.appendNow Code.strapFault 0xFF s.timeField (strapFaultBody reason 0 0 [])).hold (.held reason)

/-- A note bit of START (R469). -/
def State.noteBit (s : State) (n : Nat) : State :=
  { s with boot := { s.boot with notes := s.boot.notes ||| BitVec.ofNat 32 (2 ^ n) } }

/-- The wipe cursor word as stored (R145). -/
def State.cursorWord (s : State) : Nat := (s.vaultWord? wipeCursorAt).getD 0xFFFFFFFF

/-- The body of LIFE_CYCLE (R468). -/
def lifeBody (phase : Byte) (old new : LifeCycle) (signed completion ignored : Bool) (count bootCount cursor : Nat) : Bytes :=
  [phase, Code.life old, Code.life new, if signed then 1 else 0,
   BitVec.ofNat 8 ((if completion then 1 else 0) + (if ignored then 2 else 0)), BitVec.ofNat 8 count] ++ be 4 bootCount ++ be 4 cursor

/-- The boot counter of this start. Before B4 has advanced it, the value that B4 gives it: it advances right after the life cycle
is decoded (R172, R184). -/
def State.bootCount (s : State) : Nat := if s.boot.counter = 0 then min counterMax (s.counter bootCounterAt + 1) else s.boot.counter

/-- LIFE_CYCLE appended for a transition of a group. -/
def State.lifeRecord (s : State) (phase : Byte) (old new : LifeCycle) (signed completion ignored : Bool) : State :=
  s.appendNow Code.lifeCycle 0xFF s.timeField
    (lifeBody phase old new signed completion ignored (groupCount s.otp.groups[groupOf new]) s.bootCount s.cursorWord)

/-- GENESIS written into an erased ring with the state of the transition (R461). -/
def State.genesis (s : State) (life : LifeCycle) : State := s.writeRecord Code.genesis 0xFF s.timeField (s.genesisBody life)

/-- The vault regions that the Returned wipe erases (R145, R169). -/
def State.eraseReturned (s : State) : State :=
  ((s.vaultErase 0x10000 0x2004).vaultErase 0x12008 40).vaultErase 0x12400 0xDC00

/-- The vault regions that step D4 of a full reopen erases (R151, R485). -/
def State.eraseReopen (s : State) : State :=
  (((s.vaultErase 0x10000 0x2004).vaultErase 0x12008 40).vaultErase 0x12410 128).vaultErase 0x12800 0xD800

/-- The retire update of the wipe of Integrator to Fielded (R145). -/
def State.retireUnsigned (s : State) : State :=
  match s.ledger? with
  | none => s
  | some h =>
    let ts := allSlots.filter (fun t => entryInstalled h t && entryUnsigned h t)
    if ts = [] then s
    else (s.ledgerUpdate (ts.map (fun t => (entryAt t, entryBytes (entryImageGen h t) (entryDataGen h t) 0 [] []))) 0x04 none).1

/-- The wipe of a transition up to its flash part (R145); the second value is false when the commit monitor tripped. -/
def State.wipe (s : State) (old new : LifeCycle) : State × Bool :=
  match new with
  | .integrator =>
    let (s, ok) := s.generateKey
    if !ok then (s, false)
    else
      let s := s.vaultErase 0 0x20000
      let s := { s with audit := { Audit.reset with settled := true } }
      let s := s.genesis .integrator
      ((s.unlockKeys .integrator 0).ledgerInit.zeroiseKeys, true)
  | .fielded =>
    let s := s.unlockKeys .integrator s.epoch
    (s.retireUnsigned.zeroiseKeys, true)
  | .returned =>
    let (s, ok) := s.zeroiseKeys.destroyKey
    if !ok then (s, false) else (s.eraseReturned, true)
  | _ =>
    let (s, ok) := s.zeroiseKeys.destroyKey
    if !ok then (s, false)
    else
      let s := s.vaultErase 0 0x20000
      let s := { s with audit := { Audit.reset with settled := true } }
      (s.genesis (if new = .scrapped then .scrapped else old), true)

/-- The end of a transition after its wipe: phase 2, or every bit at a completion, the end record and the outcome (R138, R140,
R142). The second value tells whether the start goes on. -/
def State.endTransition (s : State) (old new : LifeCycle) (signed completion ignored : Bool) : State × Bool :=
  let (s, ok) := s.pulseAll (groupCells (groupOf new) (if completion then 0 else 8) 16)
  if !ok then (s.holdWith Code.lcLowbat, false)
  else
    let s := s.lifeRecord 0x02 old new signed false ignored
    if groupCount s.otp.groups[groupOf new] < 12 then (s.holdWith Code.lcOtpFail, false)
    else
      let s := { s.latch Ev.groupChanged with boot := { s.boot with life := new } }
      if new = .scrapped then (s.hold .scrapped, false) else (s, true)

/-- Top-up of every set group with fewer than 16 programmed bits (R143). -/
def State.topUp (s : State) : State :=
  let short := fun (st : State) (g : Fin 4) => groupRead st.otp.groups[g] == .set && decide (groupCount st.otp.groups[g] < 16)
  let gs := (List.finRange 4).filter (short s)
  if gs = [] then s
  else
    let t := if s.power.commitLow then s
      else (gs.foldl (fun st g => (st.pulseAll (groupCells g 0 16)).1) s).noteBit 11
    if (t.power.commitLow ∧ s.commitClear) ∨ (List.finRange 4).any (short t) then t.noteBit 13 else t

/-! ### The request area (R151, R254) -/

/-- The length word and the bytes of the request area. -/
def State.requestLength (s : State) : Nat := beNat (s.raw 0 0 4)
def State.requestBytes (s : State) : Bytes := s.raw 0 4 s.requestLength

/-- Whether the area holds a request (R151, R254). -/
def State.requestPresent (s : State) : Bool := decide (s.requestLength ≠ 0xFFFFFFFF)

/-- Whether the length lies in 1–1,024. -/
def State.requestSized (s : State) : Bool := decide (1 ≤ s.requestLength) && decide (s.requestLength ≤ 1024)

/-- The digest that the request mark holds (R151). -/
def State.requestDigest (s : State) : Bytes :=
  (sha3 (be 4 s.requestLength ++ (if s.requestSized then s.requestBytes else []))).take 16

/-- Whether the mark shows the request as already read (R151). -/
def State.requestMarked (s : State) : Bool :=
  let m := s.vaultBytes requestMarkAt 16
  !s.vaultBadIn requestMarkAt 16 && !allBytes 0xFF m && m == s.requestDigest

/-- The digest of the request that the ROM acts on or rejects kept until the mark is written (R151). -/
def State.takeRequest (s : State) : State := { s with boot := { s.boot with request := s.requestDigest } }

/-- The request mark written once the ROM has acted on or rejected the request (R151). -/
def State.writeMark (s : State) : State :=
  if s.boot.request = [] then s else { s.vaultWrite requestMarkAt s.boot.request with boot := { s.boot with request := [] } }

/-- The stored challenge and issue counter, none when a word of them is erased or invalid (R148). -/
def State.challenge? (s : State) : Option (Bytes × Nat) :=
  match s.vaultValue? challengeAt, s.vaultValue? (challengeAt + 4), s.vaultValue? (challengeAt + 8), s.vaultValue? (challengeAt + 12),
    s.vaultValue? issueAt with
  | some _, some _, some _, some _, some i => some (s.vaultBytes challengeAt 16, i)
  | _, _, _, _, _ => none

/-- A new challenge drawn when R148 asks for one; the request that ended the old one's life is then spent. -/
def State.drawChallenge (s : State) : State :=
  let due := match s.challenge? with
    | none => true
    | some (_, i) => s.boot.requestRead || decide (i + 8 ≤ s.boot.counter)
  if due then
    let (c, s) := s.random 16
    let s := { s with boot := { s.boot with requestRead := false } }
    (s.vaultWrite challengeAt c).vaultPut issueAt s.boot.counter
  else s

/-- A signed request or response read (R147, R481): its payload map, signer and whether structure, envelope and keys meet
the form. -/
structure Request where
  payload : Cbor
  form : Bool
  signer : Bytes
  signed : Bytes × Bytes × Bytes

/-- The COSE_Sign1 of R147 with a payload map whose keys are exactly a list, its values as R147 types them. -/
def readSigned (bs : Bytes) (keys : Cbor → Bool) : Request :=
  match cborDecode bs with
  | some (c, f) => match Sign1.of? c with
    | some x => match cborDecode x.payload with
      | some (p, g) =>
        { payload := p, signer := (p.bytesAt 5).getD [], signed := (x.hdr, x.payload, x.signature)
          form := f.request && g.request && x.hdr == es256Header && (match x.unprotected with | .map [] => true | _ => false) &&
            decide (x.signature.length = 64) && keys p }
      | none => ⟨.null, false, [], (x.hdr, x.payload, x.signature)⟩
    | none => ⟨.null, false, [], ([], [], [])⟩
  | none => ⟨.null, false, [], ([], [], [])⟩

/-- The fields that requests and responses share: unit, challenge, issue counter, signer with their types (R147, R481). -/
def challengeKeys (kinds : List Nat) (p : Cbor) : Bool :=
  p.keysIn [1, 2, 3, 4, 5] && decide (p.entries.length = 5) && (match p.natAt 1 with | some k => kinds.contains k | none => false) &&
    (match p.bytesAt 2 with | some b => decide (b.length = 16) | none => false) &&
    (match p.bytesAt 3 with | some b => decide (b.length = 16) | none => false) &&
    (match p.natAt 4 with | some n => decide (n ≤ 0xFFFFFFFF) | none => false) &&
    (match p.bytesAt 5 with | some b => decide (b.length = 65) && byteAt b 0 == 0x04 | none => false)

/-- The checks Unit to Freshness of R149 in order: the first failed reason, `none` when all pass. -/
def State.challengeChecks (s : State) (r : Request) (root : Bytes) : Option Byte :=
  if !r.form then some Code.reqForm
  else if r.payload.bytesAt 2 ≠ some s.unitNumber then some Code.reqUnit
  else if sha3 r.signer ≠ root then some Code.reqSigner
  else if !es256Verify r.signer r.signed.1 r.signed.2.1 r.signed.2.2 then some Code.reqSig
  else
    match s.challenge? with
    | none => some Code.reqStale
    | some (c, i) =>
      if r.payload.bytesAt 3 = some c ∧ r.payload.natAt 4 = some i ∧ i < s.boot.counter ∧ s.boot.counter ≤ i + 8 then none
      else some Code.reqStale

/-- LC_REJECT appended, with what R515 copies from the payload. -/
def State.rejectRecord (s : State) (payload : Cbor) (kinds : List Nat) (reason : Byte) : State :=
  let kind := match payload.natAt 1 with | some k => if kinds.contains k then k else 0 | none => 0
  let issue := match payload.natAt 4 with | some n => if n ≤ 0xFFFFFFFF then n else 0 | none => 0
  s.appendNow Code.lcReject 0xFF s.timeField ([BitVec.ofNat 8 kind, reason, 0, 0] ++ be 4 issue ++ be 4 s.boot.counter)

/-! ### OTP fields (R153–R155) -/

/-- A configuration word by number. -/
def wordIndex (n : Nat) : Fin 32 := ⟨n % 32, Nat.mod_lt _ (by decide)⟩

/-- One OTP field programmed or refused, with OTP_WRITE (R154): words from `first`, lock bit, values, and whether programming
also sets the lock. -/
def State.programField (s : State) (first lock : Nat) (values : List (BitVec 32)) (setsLock : Bool) : State :=
  let current := (List.range values.length).map (fun i => s.otpWord (first + i))
  let value := (values.map (fun v => be 4 v.toNat)).flatten
  let shown := if values.length = 1 then zeros 12 ++ value else value.take 16
  let write := fun (st : State) (result : Byte) => st.record Code.otpWrite 0xFF ([BitVec.ofNat 8 first, result, 0, 0] ++ shown)
  if (s.otpWord 23).getLsbD lock then write s Code.otpLocked
  else if (current.zip values).any (fun p => p.1 &&& p.2 != p.1) then write s Code.otpNotSuperset
  else
    let cells := (values.zipIdx).flatMap (fun p => wordCells (wordIndex (first + p.2)) p.1)
    let cells := if setsLock then cells ++ [.word 23 ⟨lock % 32, Nat.mod_lt _ (by decide)⟩] else cells
    write (s.pulseAll cells).1 0

/-- Field locks programmed (R154, R155): the bits of word 23 that the state may program are those of `mask`. -/
def State.programLocks (s : State) (mask v : BitVec 32) : State :=
  let current := s.otpWord 23 &&& mask
  let body := fun (result : Byte) => [23, result, 0, 0] ++ zeros 12 ++ be 4 v.toNat
  if current &&& v != current then s.record Code.otpWrite 0xFF (body Code.otpNotSuperset)
  else (s.pulseAll (wordCells 23 v)).1.record Code.otpWrite 0xFF (body 0)

/-- The bits of a configuration word that the Maker state may program (R133, R153). -/
def makerBits (w : Nat) : BitVec 32 := if w ≤ 13 then BitVec.allOnes 32 else if w = 23 then 0xF#32 else 0#32

/-- The field that holds a configuration word of the Maker state: first word, words, lock bit (R153). -/
def makerField (w : Nat) : Nat × Nat × Nat := if w ≤ 1 then (w, 1, w) else if w ≤ 5 then (2, 4, 2) else (6, 8, 3)

/-- A configuration word programmed through the maker's test access (R133, R153, R154); a field of several words takes its lock with its
last word (log 182). -/
def State.testWord (s : State) (w : Nat) (v : BitVec 32) : State :=
  if s.power.commitLow ∨ makerBits w = 0#32 ∨ v &&& ~~~ makerBits w ≠ 0#32 then s
  else if w = 23 then s.programLocks (makerBits 23) v
  else
    let (first, n, lock) := makerField w
    let values := (List.range n).map (fun i => if first + i = w then v else s.otpWord (first + i))
    s.programField first lock values (decide (1 < n ∧ w + 1 = first + n))

/-- The types of a provisioning payload and the keys that a state permits (R155). -/
def provisioningKeys (life : LifeCycle) (signed : Bool) (p : Cbor) : Bool :=
  p.keysIn ([1, 2, 7, 8, 9] ++ (if life = .integrator then [6] else []) ++ (if signed then [5] else [])) &&
    p.natAt 1 == some 3 && (match p.bytesAt 2 with | some b => decide (b.length = 16) | none => false) &&
    ([6, 7, 8, 9].any (fun k => (p.get? k).isSome)) &&
    (match p.get? 6 with | some v => v.bytesIn 32 32 | none => true) && (match p.get? 7 with | some v => v.inRange 0 0xFFFFFFFF | none => true) &&
    (match p.get? 8 with | some v => v.inRange 0 0xFFFFFFFF | none => true) && (match p.get? 9 with | some v => v.inRange 0 3 | none => true) &&
    (!signed || (match p.bytesAt 5 with | some b => decide (b.length = 65) && byteAt b 0 == 0x04 | none => false))

/-- The fields of a provisioning request programmed, the locks after them (R155). -/
def State.provision (s : State) (p : Cbor) : State :=
  let s := match p.bytesAt 6 with
    | some h => s.programField 14 4 ((pieces 4 h).map (fun w => BitVec.ofNat 32 (beNat w))) true
    | none => s
  let s := match p.natAt 7 with | some n => s.programField 0 0 [BitVec.ofNat 32 n] false | none => s
  let s := match p.natAt 8 with | some n => s.programField 1 1 [BitVec.ofNat 32 n] false | none => s
  match p.natAt 9 with | some n => s.programLocks 3#32 (BitVec.ofNat 32 n) | none => s

end Sys2Proof.Machine
end

