-- ==== Sys2Proof/Machine/BootOps.lean ====
section
/-!
DEFINITION. Parts of the boot ROM's steps: pads and straps of phase B (R77–R79, R103), notes, source order (R188, R189), source failures
(R194), the wipe's flash part (R145, R271), arming (R105–R108, R146).
-/
namespace Sys2Proof.Machine

/-! ### Time -/

/-- A span of exactly `n` slots on the RTC (R127, R459). -/
def State.spend (s : State) (n : Nat) : State := { s with clock := s.clock.advanceRtc n }

/-- A span that the spec only bounds: a free number of slots up to `n` (log 2). -/
def State.spendUpTo (s : State) (n : Nat) : State :=
  let (k, s) := s.freeBelow (n + 1)
  s.spend k

/-! ### Straps in force (R97, R99, R100, R103) -/

/-- The pads in phase B (R72, R77–R79); a strap pad whose unlocked reads disagree takes the function of the level that its keeper holds
(DESIGN CHOICE, log 181). -/
def State.padsB (s : State) : Pads :=
  let held := fun i => (s.strapInForce i).getD (s.straps.keepers.getD i false)
  { s.pads with fclk := .low, fcs0 := .high, fio := .busKeeper, fcs1 := if held 0 then .high else .keeper (s.straps.keepers.getD 0 false), fpwr := .high
                prst := allPrst .low, actEn := .low, portA := .off, haio23 := .off, portB := .off, alertA := .high
                alertB := if held 2 then .high else .low, lnk := .released, sense := .comparator, cfg0 := .off, cfg12 := .off
                xtal := .oscillator }

/-- The link role of a CFG1 code (R97); a lead is only elected later. -/
def roleOf (cfg1 : Nat) : LinkRole :=
  if cfg1 = 0 ∨ cfg1 = 3 then .off else if cfg1 = 1 ∨ cfg1 = 4 then .solo else .member

/-- Whether a CFG1 code selects 2 Mbit/s (R97). -/
def fastOf (cfg1 : Nat) : Bool := cfg1 == 4 || cfg1 == 5 || cfg1 == 6

/-- The straps and codes in force kept for the start (R103). -/
def State.applyStraps (s : State) : State :=
  let c := fun i => (s.codeInForce i).getD 0
  let d := fun i => (s.strapInForce i).getD false
  { s with boot := { s.boot with cfg0 := c 0, cfg1 := c 1, cfg2 := c 2, fstrap := d 0, astrap := d 1, alertbStrap := d 2 }
           link := { s.link with role := roleOf (c 1), fast := fastOf (c 1) } }

/-- The service selected (R99, R101): a conflict between locked codes continues as code 0. -/
def State.service (s : State) : Nat := if s.boot.cfg2 = 6 ∧ s.boot.cfg1 ≤ 2 then 0 else s.boot.cfg2

/-- The digest prefix of the patch region as read (R160). -/
def patchPrefix (o : Otp) : Bytes :=
  (sha3 ((List.finRange 128).flatMap (fun i => be 8 (o.patch0[i]).toNat ++ be 8 (o.patch1[i]).toNat))).take 16

/-- A patch entry as read: the OR of its two copies (R158). -/
def Otp.patchEntry (o : Otp) (i : Fin 128) : BitVec 64 := o.patch0[i] ||| o.patch1[i]

/-- The ROM word address and replacement of a patch entry that is VALID and not void (R158, R159). -/
def patchOf (e : BitVec 64) : Option (Nat × BitVec 32) :=
  let a := (e.extractLsb' 48 15).toNat
  if e.getLsbD 63 ∧ a ≤ 24575 then some (a, e.extractLsb' 0 32) else none

/-- The patches in force, the highest-numbered entry first, so that it applies where two name one address (R159). -/
def Otp.patches (o : Otp) : List (Nat × BitVec 32) := (List.finRange 128).reverse.filterMap (fun i => patchOf (o.patchEntry i))

/-- What a fetch from a ROM word returns (R159): the replacement of a patch in force, else the mask ROM's own word, which is open. -/
def State.romWord (s : State) (a : Nat) : BitVec 32 :=
  match s.boot.patches.find? (fun p => p.1 == a) with
  | some p => p.2
  | none => Config.romWord a

/-- Whether a reserved OTP bit of the configuration words is set (R153). -/
def State.reservedOtp (s : State) : Bool :=
  decide ((s.otpWord 0).toNat ≥ 2 ^ 18) || decide ((s.otpWord 1).toNat ≥ 2 ^ 18) || decide ((s.otpWord 23).toNat ≥ 2 ^ 5) ||
    (List.range 8).any (fun i => s.otpWord (24 + i) != 0#32)

/-! ### Source order (R96, R188, R189) -/

/-- The source of a code (R187). -/
def sourceOf (n : Nat) : Option Source :=
  match n with
  | 1 => some .fa
  | 2 => some .fb
  | 3 => some .c2
  | 4 => some .peer
  | 5 => some .pa
  | 6 => some .vr
  | _ => none

/-- The order of a CFG0 code (R96). -/
def cfg0Order (n : Nat) : List Source :=
  match n with
  | 0 => [.vr]
  | 1 => [.fa, .fb, .c2, .vr]
  | 2 => [.fb, .fa, .c2, .peer, .pa, .vr]
  | 3 => [.fa, .fb, .peer, .c2, .pa, .vr]
  | 4 => [.fa, .fb, .pa, .vr]
  | 5 => [.pa, .fa, .fb, .vr]
  | 6 => [.peer, .fa, .fb, .vr]
  | _ => [.fa, .fb, .c2, .peer, .pa, .vr]

/-- The codes of the override word before its first 0 (R188, R189). -/
def overrideCodes (w : Nat) : List Nat := ((List.range 6).map (fun i => (w >>> (3 * i)) % 8)).takeWhile (fun c => c != 0)

/-- Whether the override word is programmed (R188). -/
def overrideSet (w : Nat) : Bool := decide (w % 2 ^ 18 ≠ 0)

/-- The order of the override word with VR at its end (R189). -/
def overrideOrder (w : Nat) : List Source :=
  let l := (overrideCodes w).foldl (fun acc c => match sourceOf c with
    | some x => if acc.contains x then acc else acc ++ [x]
    | none => acc) []
  if l.contains .vr then l else l ++ [.vr]

/-- Whether the override word holds a skipped position or has a reserved bit set (R189). -/
def overrideFault (w : Nat) : Bool :=
  let cs := overrideCodes w
  overrideSet w && (cs.contains 7 || decide (cs.dedup.length ≠ cs.length) || decide (2 ^ 18 ≤ w))

/-- The source order of the start (R188, R190). -/
def State.sourceOrder (s : State) : List Source :=
  let w := (s.otpWord 1).toNat
  if overrideSet w then overrideOrder w else cfg0Order s.boot.cfg0

/-! ### Source failures (R187, R193, R194) -/

/-- The code of a source (R187). -/
def sourceByte : Source → Byte
  | .fa => 1
  | .fb => 2
  | .c2 => 3
  | .peer => 4
  | .pa => 5
  | .vr => 6

/-- SOURCE_FAIL appended, at most 12 times in a start (R194, R468). -/
def State.sourceRecord (s : State) (x : Source) (reason check : Byte) (version count : Nat) : State :=
  if 12 ≤ s.boot.failures then s
  else
    let s := { s with boot := { s.boot with failures := s.boot.failures + 1 } }
    s.appendNow Code.sourceFail 0xFF s.timeField
      ([sourceByte x, reason, check, 0] ++ be 2 count ++ be 4 s.boot.counter ++ be 4 version)

/-- The failures that one record still counts under the forced recovery wait appended (R194). -/
def State.flushRepeated (s : State) (p : Source → Bool) : State :=
  let due := s.boot.repeated.filter (fun r => p r.1)
  let s := { s with boot := { s.boot with repeated := s.boot.repeated.filter (fun r => !(p r.1)) } }
  due.foldl (fun s r => s.sourceRecord r.1 r.2.1 r.2.2.1 r.2.2.2.1 r.2.2.2.2) s

/-- A failed source recorded (R194): under the forced recovery wait repetitions are counted until the outcome changes. -/
def State.sourceFail (s : State) (x : Source) (reason check : Byte) (version : Nat) : State :=
  let s := { s with boot := { s.boot with failed := if s.boot.failed.contains x then s.boot.failed else s.boot.failed ++ [x] } }
  if s.service = 4 then
    if s.boot.repeated.any (fun r => r.1 == x && r.2.1 == reason) then
      { s with boot := { s.boot with repeated := s.boot.repeated.map (fun r =>
          if r.1 = x then (r.1, r.2.1, r.2.2.1, r.2.2.2.1, sat16 (r.2.2.2.2 + 1)) else r) } }
    else
      let s := s.flushRepeated (fun y => y == x)
      { s with boot := { s.boot with repeated := s.boot.repeated ++ [(x, reason, check, version, 1)] } }
  else s.sourceRecord x reason check version 1

/-- `schedule version` when the Header stage did not pass (R468). -/
def noVersion : Nat := 0xFFFFFFFF

/-! ### The flash part of a wipe (R145, R271) -/

/-- The first block of each chip that a wipe erases (R145, R485). -/
def wipeFirst (job : WipeJob) (chip : Nat) : Nat :=
  match job with
  | .returned _ => 0
  | .reopen => if chip = 0 then 7 else 1

/-- The 64 KB blocks of a chip that takes commands, else 0. -/
def State.wipeBlocks (s : State) (chip : Nat) : Nat :=
  let c : Fin 2 := if chip = 0 then 0 else 1
  if s.flash.dead[c] then 0 else s.sectorsOf c / 16

/-- The next block to erase at or after a place, `none` when no chip remains. -/
def State.wipeFrom (s : State) (job : WipeJob) (chip block : Nat) : Option (Nat × Nat) :=
  if chip = 0 then
    if block < s.wipeBlocks 0 then some (0, block)
    else if wipeFirst job 1 < s.wipeBlocks 1 then some (1, wipeFirst job 1) else none
  else if block < s.wipeBlocks 1 then some (1, block) else none

/-- Where a wipe stands by its cursor (R145): at its first block when no wipe was in progress. -/
def State.wipeNow (s : State) (job : WipeJob) : Option (Nat × Nat) :=
  match s.vaultValue? wipeCursorAt with
  | some w => s.wipeFrom job (min 1 (w / 65536)) (w % 65536)
  | none => s.wipeFrom job 0 (wipeFirst job 0)

/-- The cursor advanced past a block, or erased when no chip remains (R145, R271). -/
def State.advanceCursor (s : State) (job : WipeJob) (chip block : Nat) : State :=
  let s := s.latch Ev.wipeAdvanced
  match s.wipeFrom job chip (block + 1) with
  | some (c, b) => s.vaultPut wipeCursorAt (c * 65536 + b)
  | none => s.vaultErase wipeCursorAt 4

/-- The erase of a block started; none starts while the commit monitor is tripped (R141). -/
def State.eraseBlock (s : State) (job : WipeJob) (completion ignored : Bool) (chip block : Nat) : State :=
  if s.power.commitLow then s.holdWith Code.lcLowbat
  else
    let c : Fin 2 := if chip = 0 then 0 else 1
    let s := s.startTask .wipe ⟨.erase64k, c, 65536 * block, []⟩
    { s with boot := { s.boot with stage := .wiping job completion ignored }, flash := { s.flash with wipeAt := some (chip, block) } }

/-- Both chips discovered (R248), each after the 30 µs that follow its reset and within 16,000 slots in all: chip 1 only when the FSTRAP in force reads two chips. -/
def State.discoverAll (s : State) : State :=
  let one := fun (s : State) (c : Fin 2) => if s.flash.found[c].ran then s else ((s.discover c).spend 1920).spendUpTo 14080
  let s := one s 0
  if s.boot.fstrap then one s 1 else s

/-! ### Arming (R105–R108, R146) -/

/-- The target of an armed code in a state (R105, R146). -/
def State.armTarget (s : State) (code : Nat) : Option LifeCycle :=
  match s.boot.life with
  | .maker => some (if code = 1 then .integrator else .scrapped)
  | .integrator =>
    if code = 2 then some .scrapped
    else if s.operatorRootHash ≠ zeros 32 ∧ (s.otpWord 23).getLsbD 4 then some .fielded else none
  | .returned => if code = 2 then some .scrapped else none
  | _ => none

/-- The causes of an arming failure (R108, R520): bits 5–8 of the cause mask. -/
def State.armCauses (s : State) (code : Nat) : Nat :=
  trainCause code s.straps.edges + (if (s.armTarget code).isNone then 0x80 else 0) + (if s.power.commitLow then 0x100 else 0)

/-- An arming failure: STRAP_FAULT with CFG2's samples, and the hold (R108, R110, R520). -/
def State.armFault (s : State) (mask : Nat) : State :=
  let bit := ((List.range 9).find? (fun b => mask.testBit b)).getD 0
  let reason := BitVec.ofNat 8 (0x20 + bit)
  (s.appendNow Code.strapFault 0xFF s.timeField (strapFaultBody reason 38 mask ((s.straps.cfg 2).map (·.1)))).hold (.held reason)

end Sys2Proof.Machine
end

