-- ==== Sys2Proof/Machine/Start.lean ====
section
/-!
DEFINITION. The ROM lock and Warden's laps 0–2 (R201, R202, R221, R231): marks and notes, keys, the ledger, tenants, open records of the
last start, audit spill, flash directory, mailbox table, Badger, then lap 3 (R232).
-/
namespace Sys2Proof.Machine

/-- A pair that passed: its source, image, encoded manifest, decoded manifest, where the manifest lies, whether it came unsigned. -/
structure Pair where
  source : Source
  image : Bytes
  encoded : Bytes
  manifest : Manifest
  place : Option Nat
  unsigned : Bool

/-- Whether a source supplies install form (R187). -/
def Source.installs : Source → Bool
  | .peer => true
  | .pa => true
  | _ => false

/-- The marks byte of the handover block (R195, R202). -/
def State.marksOf (s : State) (p : Pair) : BitVec 8 :=
  BitVec.ofNat 8 ((if p.unsigned then 1 else 0) + (if s.boot.life = .maker then 2 else 0) + (if s.boot.life = .returned then 4 else 0) +
    (if p.source = .vr then 8 else 0) + (if p.source.installs then 16 else 0))

/-- The working SRAM outside the notice store, the Den, the cache and the buffers zeroised (R201). -/
def State.zeroiseMemories (s : State) : State :=
  let store := s.sramBytes 0xF800 0x800
  { s with sram := [], sramFill := 0, den := [], denFill := 0 }.sramWrite 0xF800 store

/-- The notes that compare the pair with the ledger entry of its source (R200, R469), and those of the manifest (R223, R273). -/
def State.pairNotes (s : State) (p : Pair) : State :=
  let entry := match p.source with
    | .fa => some (scheduleEntryDigest s.ledger 0)
    | .fb => some (scheduleEntryDigest s.ledger 1)
    | .vr => some (scheduleEntryDigest s.ledger 2)
    | _ => none
  let s := match entry with
    | some e => if s.ledger?.isSome ∧ e ≠ (scheduleDigest p.image).take 16 then s.noteBit 6 else s
    | none => s
  let s := if (p.source = .fa ∨ p.source = .fb) ∧ s.ledger?.isSome ∧ manifestEntryDigest s.ledger ≠ manifestPrefix p.encoded then s.noteBit 7
    else s
  let s := if s.link.role = .off ∧ p.manifest.link.isSome then s.noteBit 10 else s
  if p.manifest.tenants.any (fun d => d.window && decide (d.partition = 256)) then s.noteBit 4 else s

/-- The chain key and the link key with its public key, which Warden derives in laps 0–2 (R163, R166, R460). -/
def State.wardenKeys (s : State) : State :=
  let s := s.putKey .chain (s.unitNumber ++ zeros 16)
  match s.linkScalar? with
  | some d => { s.putKey .link (be 32 d) with link := { s.link with linkKey := publicKey d } }
  | none => s

/-- The image leaf keys of the declared tenants that have an image, derived in laps 0–2 (R166); a data leaf key goes to its slot only
once its tenant has passed (R168). -/
def State.tenantKeys (s : State) (m : Manifest) : State :=
  m.inOrder.foldl (fun s d => if s.stagedGen d.slot = 0 then s else s.loadImageKey d.slot (s.stagedGen d.slot)) s

/-! ### Tenants (R221, R260, R301, R305, R309) -/

/-- The index digests of a tenant whose index leaves match its tag-root record (R305, R309). -/
def State.indexesOf (s : State) (m : Manifest) (d : TenantDecl) : Option (List Bytes) :=
  match s.liveRoot? d.slot with
  | none => none
  | some (_, root) =>
    let leaf := fun (x : Nat) =>
      let n := rootSlot root x
      if n < 8 then
        let (ref, off) := s.metaPlace m d (d.leavesT + d.leavesM + x) n
        s.fetch? ref off 1024
      else none
    match (List.range d.leavesX).mapM leaf with
    | some ls => if (sha3 ls.flatten).take 16 = rootDigest root then some (ls.map (fun l => (sha3 l).take 16)) else none
    | none => none

/-- One tenant created at its place in `boot order` (R221). -/
def State.createTenant (s : State) (m : Manifest) (k : Nat) (d : TenantDecl) : State :=
  let n := m.inOrder.length
  let share := 64 / n + (if k < 64 % n then 1 else 0)
  let base := ((m.inOrder.take k).map (·.denShare)).sum
  let digests := s.indexesOf m d
  let serial := match s.liveRoot? d.slot with | some (_, b) => rootCeiling b | none => 0
  let s := if (s.liveRoot? d.slot).isNone then s.noteBit 5 else s
  s.setTenant d.slot { Tenant.reset with
    life := .created, denBase := base, groups := d.groups, denValid := List.replicate (4 * d.denShare) false
    denStaged := List.replicate (4 * d.denShare) false, cache := List.replicate share (CacheLeaf.mk .data 0 [] false), cacheSize := share
    indexDigests := digests.getD [], rootLost := digests.isNone, serial := serial }

/-- The tenants created in `boot order` (R221). -/
def State.createTenants (s : State) (m : Manifest) : State :=
  (m.inOrder.zipIdx).foldl (fun s p => s.createTenant m p.2 p.1) s

/-! ### Open records of the last start -/

/-- An open posted mark read and cleared (R325): the data was lost unless the tag root has advanced. -/
def State.readMark (s : State) (t : TSlot) : State :=
  if !s.markOpen t then s
  else
    let sector := s.vaultBytes (markAt t + 0x04) 2
    let seq := beNat (s.vaultBytes (markAt t + 0x08) 4)
    let first := s.vaultBytes (markAt t + 0x0C) 4
    let count := s.vaultBytes (markAt t + 0x10) 2
    let advanced := match s.liveRoot? t with | some (_, b) => decide (seq < rootSeq b) | none => false
    let s := s.vaultWrite (markAt t) (zeros 4)
    if advanced then s
    else (s.record Code.writeLost (slotByte t) (sector ++ first ++ count)).modTenant t (fun x => { x with lostFound := some (beNat count) })

/-- An open install state record of the last start (R417). -/
def State.readInstall (s : State) : State :=
  let b := s.vaultBytes installRecordAt 64
  if s.vaultBadIn installRecordAt 64 ∨ byteAt b 0 ≠ 0x01 then s
  else
    let s := s.installRefused (byteAt b 1) (byteAt b 3) (byteAt b 2) Code.insPower 0 (field b 4 4) (slice b 8 16)
    let s := s.closeInstall
    let n := (byteAt b 0x18).toNat
    if byteAt b 2 = 1 ∧ n < 16 then s.modTenant (slotOfNat n) (fun x => { x with headerStale := true }) else s

/-- TRIAL_LOST for a declared slot whose records are both invalid (R421). -/
def State.readTrials (s : State) (m : Manifest) : State :=
  if m.tenants.any (fun d => (s.liveTrial? d.slot).isNone) then s.noteBit 2 else s

/-! ### Audit spill (R466, R467) -/

/-- The batch that a spill sector holds (R466): by the sequence of its first record; a batch cut off in its write that the ring still
holds is not spilled. -/
def State.spillHeld (s : State) (sector : Nat) : Option Nat :=
  let b := s.sectorBytes sector 0 4096
  let seq := field b 0 4
  let low := match s.vaultValue? lowAt with | some n => n + 1 | none => 0
  let whole := (List.range 64).all (fun i =>
    let e := slice b (64 * i) 64
    decide (field e 0 4 = seq + i) && s.spillGood e)
  if seq % 64 = 0 ∧ seq + 63 < s.nextSequence ∧ low ≤ seq + 63 ∧ (whole ∨ seq + ringRecords < s.nextSequence) then some (seq / 64) else none

/-- What the spill holds at a start (R466). -/
def State.scanSpill (s : State) (m : Manifest) : State :=
  if m.spillRecords = 0 then s
  else
    let refs := (s.spillRefs m).filter (fun r => !s.flash.retired.contains r)
    let blank := refs.filter (fun r => allBytes 0xFF (s.sectorBytes r 0 4096))
    let held := refs.filterMap (fun r => (s.spillHeld r).map (fun b => (b, r)))
    let sorted := (held.map (·.1)).dedup.mergeSort |>.filterMap (fun b => held.find? (fun p => p.1 == b))
    let stale := refs.filter (fun r => !blank.contains r && !sorted.any (fun p => p.2 == r))
    let low := match s.vaultValue? lowAt with | some n => n + 1 | none => 0
    let next := s.nextSequence / 64
    let open_ := ((List.range 21).map (fun i => next - 21 + i)).dedup.filter (fun b =>
      decide (b < next) && decide (low ≤ 64 * b + 63) && !sorted.any (fun p => p.1 == b))
    let s := { s with audit := { s.audit with spilled := sorted, spillErased := blank, unspilled := open_ } }
    let s := match sorted with
      | (b, _) :: _ => if s.vaultValue? oldestSpillAt = some (64 * b) then s else s.vaultPut oldestSpillAt (64 * b)
      | [] => if (s.vaultValue? oldestSpillAt).isSome then s.vaultPut oldestSpillAt 0xFFFFFFFF else s
    stale.foldl State.queueErase s

/-! ### Flash directory (R255) -/

/-- The live directory copy taken, or a rebuild due (R255). -/
def State.readDirectory (s : State) : State :=
  match s.liveDirectory? with
  | some (sector, b) =>
    let same := slice b 8 3 == s.jedecOf 0 && slice b 11 3 == s.jedecOf 1 && slice b 16 16 == s.sfdpDigest 0 && slice b 32 16 == s.sfdpDigest 1
    let s := { s with flash := { s.flash with directory := some (field b 4 4, sector), retired := directoryRetired b
                                              directoryDue := !same } }
    if same then s else s.noteBit 1
  | none => { s with flash := { s.flash with directory := none, retired := [], directoryDue := s.chipServes 0 } }

/-! ### Handover (R201, R202) -/

/-- The mailbox table written and locked (R55, R226). -/
def State.writeTable (s : State) (m : Manifest) : State :=
  let chan := fun (i : Fin 12) => Channel.mk (m.mailbox.find? (fun c => c.channel == i.val)) [] false false 0 0
  { s with mailbox := { s.mailbox with channels := Vector.ofFn chan, locked := true } }

/-- The pads of phase N for a pair; port A is the intake of a run under a recovery schedule (R72, R80, R196, R222). -/
def State.padsN (s : State) (m : Manifest) : Pads :=
  let bound := fun a => if m.tenants.any (fun d => d.attach == a) ∨ (a = .portA ∧ s.recoveryRun) then Pad.inputOn else Pad.off
  { s.pads with portA := bound .portA, haio23 := if s.boot.astrap then bound .portA else .off, portB := bound .portB, cfg12 := if s.boot.debugReach.isSome then .debug else .off }

/-- The 64 bytes that the ROM leaves for Warden (R202). -/
def State.handoverBlock (s : State) : Bytes :=
  [Code.life s.boot.life, BitVec.ofNat 8 s.boot.cfg0, BitVec.ofNat 8 s.boot.cfg1, BitVec.ofNat 8 s.boot.cfg2,
    BitVec.ofNat 8 ((if s.boot.fstrap then 1 else 0) + (if s.boot.astrap then 2 else 0) + (if s.boot.alertbStrap then 4 else 0)),
    (match s.boot.source with | some x => sourceByte x | none => 0), s.boot.marks, BitVec.ofNat 8 s.boot.failures] ++
    be 4 s.boot.counter ++ be 4 (s.boot.manifestAddr.getD 0xFFFFFFFF) ++
    fit 16 0 (match s.running.schedule with | some x => x.digest | none => []) ++ fit 16 0 s.manifestDigest ++ zeros 16

/-- Warden's first action: the handover block copied and cleared (R202). -/
def State.takeBlock (s : State) : State :=
  { s with boot := { s.boot with block := s.sramBytes 0 64 } }.sramWrite 0 (zeros 64)

/-- The pair taken as running with its handover block in SRAM, phase N from lap 0 (R201, R202). -/
def State.enterN (s : State) (p : Pair) : State :=
  let s := (s.flushRepeated (fun _ => true)).zeroiseMemories
  let s := { s with boot := { s.boot with marks := s.marksOf p } }
  let s : State :=
    { s with
      power := { s.power with phase := .n, wdtOn := true }
      clock := { s.clock with lap := 0, slot := 0, startLap := 0 }
      pads := s.padsN p.manifest
      boot := { s.boot with stage := .running, source := some p.source, manifestAddr := p.place, tripAfter := none
                            bindingForm := bindingCode p.manifest }
      running := { Running.reset with manifest := some p.manifest, schedule := some (scheduleOf p.image), manifestBytes := p.encoded
                                      image := p.image, startPair := some (p.image, p.encoded) }
      portA := { s.portA with mode := .unbound }
      update := { s.update with intake := none, intakeHeader := []
                                pendingPair := if p.source.installs then some (p.image, p.encoded) else none }
      probe := { s.probe with reach := s.boot.debugReach } }
  s.sramWrite 0 s.handoverBlock

/-- Laps 0–2 (R55, R166, R175, R206, R221, R263, R325, R417, R421, R433). -/
def State.wardenLaps (s : State) (p : Pair) : State :=
  let m := p.manifest
  let s := s.takeBlock.latchIf s.probe.reach.isSome Ev.debugEnabled
  let s := (((s.settleHead.wardenKeys).ledgerStart).pairNotes p).tenantKeys m
  let s := ((s.readDirectory).scanSpill m).writeTable m
  let s := s.createTenants m
  let s := allSlots.foldl State.readMark s
  let s := ((s.readInstall).parcelStart exportRecordAt 0).parcelStart importRecordAt 1
  ((s.readTrials m).loadBadger m).versionsPair

/-- The ROM lock, laps 0–2, and staging begun at slot 0 of lap 3 (R201, R231, R232). -/
def State.handOver (s : State) (p : Pair) : State :=
  let s := (s.enterN p).wardenLaps p
  (s.setClock (s.clock.toLap 3)).beginStaging

end Sys2Proof.Machine
end

