-- ==== Sys2Proof/Machine/Sources.lean ====
section
/-!
DEFINITION. Schedule sources (R187–R198): the stages of R193 on a sealed source and on a pair in install form, the order of attempts, the
attempts of PA and PEER and the recovery wait (R190–R192, R197).
-/
namespace Sys2Proof.Machine

/-- What an attempt at a source gives (R187, R193). -/
inductive Attempt where
  | absent
  | failed (reason : Byte) (check version : Nat)
  | passed (p : Pair)

/-- The time of an attempt up to its failing stage: the slots that its reads take at most, and the slots that its checks take exactly
(R47, R228, R231). -/
structure Cost where
  atMost : Nat
  exact : Nat

/-- Reading and hashing `n` bytes of a sealed source, at most (R231). -/
def readSlots (n : Nat) : Nat := 4096 * (ceilDiv n 1024 + 1)

/-- The length of the stored form of a manifest of `n` bytes (R214). -/
def storedLength (n : Nat) : Nat := 36 + 4 * ceilDiv n 4

/-- The checks' exact slots for a manifest and an image, admission only when the form stage passed (R47, R228). -/
def checkSlots (encoded : Option Nat) (image : Bytes) (admits : Bool) : Nat :=
  formSlots encoded + (if admits then 5 * chargedLength image / 4 else 0)

/-- The fixed time of an attempt at VR, 0.8 ms (R187). -/
def vaultSlots : Nat := 51200

/-! ### Sealed sources (R187, R193, R196) -/

/-- The chip and address of a flash slot (R253). -/
def slotPlace (x : Source) : Fin 2 × Nat :=
  match x with
  | .fb => (0, 0x40000)
  | .c2 => (1, 0x10000)
  | _ => (0, 0x10000)

/-- `magic` of a schedule image (R36). -/
def imageMagic : Nat := 0x42585343

/-- The Header stage on 128 bytes (R193): its reason when it fails; `room` is what the carrier holds. -/
def headerStage (head : Bytes) (room : Nat) : Option Byte :=
  if allBytes 0xFF head then some Code.srcEmpty
  else if field head 0 4 = imageMagic ∧ imageLengthOk head ∧ imageLength head ≤ room then none
  else some Code.srcHeader

/-- The stored manifest of a slot (R214): its encoding and whether its padding is zero; none when its length does not fit or its seal
fails. -/
def State.storedManifest (s : State) (c : Fin 2) (addr : Nat) : Option (Bytes × Bool) :=
  let n := field (s.raw c addr 4) 0 4
  let pad := ceilDiv n 4 * 4
  if 16348 < n then none
  else
    let body := s.raw c addr (4 + pad)
    if (s.key? .imageSeal).isSome ∧ s.raw c (addr + 4 + pad) 32 = s.mac .imageSeal "BX4016 MANIFEST" body 32 then
      some (slice body 4 n, allBytes 0 (body.drop (4 + n)))
    else none

/-- The seal of R39 under this unit's key. -/
def State.sealGood (s : State) (img : Bytes) : Bool :=
  match s.key? .scheduleSeal with
  | some k => carriedSeal img == scheduleSeal k img
  | none => false

/-- Whether unsigned code runs from a sealed pair in the Integrator state (R133, R165; DEDUCED, log 30). -/
def State.runsUnsigned (s : State) (encoded : Bytes) : Bool :=
  s.boot.life == .integrator &&
    (!signatureGood none encoded || allSlots.any (fun t => entryInstalled s.ledger t && entryUnsigned s.ledger t))

/-- The stages Manifest form and Admission on an encoded manifest (R193): `padded` is whether a stored form's padding is zero. -/
def State.lastStages (s : State) (x : Source) (img encoded : Bytes) (padded : Bool) (place : Option Nat) (unsigned : Bool) : Attempt :=
  let version := field img 16 4
  let check := manifestCheck s.formEnv encoded
  let check := if !padded ∧ (check = 0 ∨ 2 < check) then 2 else check
  if check ≠ 0 then .failed Code.srcMform check version
  else match decodeManifest encoded with
    | none => .failed Code.srcMform 2 version
    | some m =>
      let a := admission m none false img
      if a ≠ 0 then .failed Code.srcAdmit a version else .passed ⟨x, img, encoded, m, place, unsigned⟩

/-- Whether an attempt came to Admission. -/
def Attempt.admits : Attempt → Bool
  | .absent => false
  | .failed r _ _ => r == Code.srcAdmit
  | .passed _ => true

/-- An attempt at a flash slot (R193, R249) with its time. -/
def State.trySlot (s : State) (x : Source) : Attempt × Cost :=
  let (c, addr) := slotPlace x
  if !s.chipServes c then (.failed Code.srcHeader 0 noVersion, ⟨0, 0⟩)
  else
    let head := s.raw c addr 128
    match headerStage head 131072 with
    | some r => (.failed r 0 noVersion, ⟨readSlots 128, 0⟩)
    | none =>
      let img := s.raw c addr (imageLength head)
      let version := field head 16 4
      let n := field (s.raw c (addr + 0x20000) 4) 0 4
      let reads := readSlots img.length + readSlots (storedLength (chargedManifest (some n)))
      if !s.sealGood img then (.failed Code.srcSeal 0 version, ⟨readSlots img.length, 0⟩)
      else match s.storedManifest c (addr + 0x20000) with
        | none => (.failed Code.srcMseal 0 version, ⟨reads, 0⟩)
        | some (encoded, padded) =>
          let a := s.lastStages x img encoded padded (some (addr + 0x20000 + (if c = 0 then 0 else 2 ^ 26))) (s.runsUnsigned encoded)
          (a, ⟨reads, checkSlots (some n) img a.admits⟩)

/-- An attempt at the vault recovery schedule (R187, R196). -/
def State.tryVault (s : State) : Attempt :=
  let region := s.vaultBytes 0x16000 40960
  if allBytes 0xFF region then .absent
  else
    let head := region.take 128
    match if s.vaultBadIn 0x16000 128 then some Code.srcHeader else headerStage head 40960 with
    | some r => .failed r 0 noVersion
    | none =>
      let img := region.take (imageLength head)
      let version := field head 16 4
      if s.vaultBadIn 0x16000 (imageLength head) || !s.sealGood img then .failed Code.srcSeal 0 version
      else
        let m := recoveryManifest (scheduleDigest img)
        let a := admission m none true img
        if a ≠ 0 then .failed Code.srcAdmit a version else .passed ⟨.vr, img, [], m, none, false⟩

/-- An attempt at a source that the ROM reads by itself, with its time (R187, R231). -/
def State.trySealed (s : State) (x : Source) : Attempt × Cost :=
  match x with
  | .vr => (s.tryVault, ⟨0, vaultSlots⟩)
  | .c2 => if s.boot.fstrap then s.trySlot .c2 else (.absent, ⟨0, 0⟩)
  | _ => s.trySlot x

/-- The time of an attempt passes (R231). -/
def State.spendCost (s : State) (c : Cost) : State := (s.spendUpTo c.atMost).spend c.exact

/-! ### Install form (R193, R195, R411) -/

/-- The slots that an ES256 verification takes: 2 laps (R195). -/
def signatureSlots : Nat := 131072

/-- The stages on an object that PA or PEER delivered whole (R193): Header, Manifest signature, Manifest form, Admission, with their time
(R231). -/
def State.tryObject (s : State) (x : Source) (object : Bytes) : Attempt × Cost :=
  let body := slice object 64 (field object 8 4)
  let head := body.take 128
  if !headerForm (object.take 64) ∨ byteAt object 4 ≠ 0x02 ∨ body.length < 128 then (.failed Code.srcHeader 0 noVersion, ⟨0, 0⟩)
  else match headerStage head body.length with
    | some r => (.failed r 0 noVersion, ⟨0, 0⟩)
    | none =>
      let img := body.take (imageLength head)
      let encoded := body.drop (imageLength head)
      let (good, unsigned) := s.signatureStage encoded
      if !good then (.failed Code.srcSig 0 (field head 16 4), ⟨0, signatureSlots⟩)
      else
        let a := s.lastStages x img encoded true none unsigned
        (a, ⟨0, signatureSlots + checkSlots (statedLength encoded) img a.admits⟩)

/-! ### The attempts -/

/-- The front end of port A serves the intake of the ROM, or nothing (R191). -/
def State.romIntake (s : State) (on : Bool) : State :=
  { s with portA := { PortSt.reset with mode := if on then .intake else .unbound, early := s.portA.early }
           pads := { s.pads with portA := if on then .inputOn else .off, haio23 := if on && s.boot.astrap then .inputOn else .off }
           update := { s.update with intake := none, intakeHeader := if on then [] else s.update.intakeHeader } }

/-- An attempt at PA or PEER begun (R187, R191, R192). -/
def State.beginAttempt (s : State) (x : Source) (stage : BootStage) : State :=
  let s := s.romIntake (x == .pa)
  { s with boot := { s.boot with stage := stage, attemptAt := s.clock.rtc, heard := false }, link := { s.link with receiving := none } }

/-- An attempt at PA or PEER ended. -/
def State.endAttempt (s : State) : State := let s := s.romIntake false; { s with link := { s.link with receiving := none } }

/-- PEER passed over (R187, R190). -/
def State.peerAbsent (s : State) : Bool := s.link.role == .off || s.link.role == .solo

/-- The recovery wait begun with PA (R190, R197). -/
def State.enterRecovery (s : State) (forced : Bool) : State :=
  let s := { s with boot := { s.boot with recoveryAt := s.clock.rtc } }
  s.beginAttempt .pa (.recovery .pa forced)

/-- The next attempt of the recovery wait after one has failed (R190). -/
def State.nextRecovery (s : State) (x : Source) (forced : Bool) : State :=
  if x = .pa then
    if s.peerAbsent then (s.sourceFail .peer Code.srcAbsent 0 noVersion).beginAttempt .pa (.recovery .pa forced)
    else s.beginAttempt .peer (.recovery .peer forced)
  else s.beginAttempt .pa (.recovery .pa forced)

/-- The sources tried in order until one passes, an attempt at PA or PEER begins, or none is left (R187, R193, R197). -/
def State.trySources : List Source → State → State
  | [], s => s.enterRecovery false
  | x :: rest, s =>
    match x with
    | .pa => s.beginAttempt .pa (.attempt .pa rest)
    | .peer =>
      if s.peerAbsent then State.trySources rest (s.sourceFail .peer Code.srcAbsent 0 noVersion)
      else s.beginAttempt .peer (.attempt .peer rest)
    | _ =>
      match s.trySealed x with
      | (.absent, _) => State.trySources rest (s.sourceFail x Code.srcAbsent 0 noVersion)
      | (.failed r c v, k) => State.trySources rest ((s.spendCost k).sourceFail x r (BitVec.ofNat 8 c) v)
      | (.passed p, k) => (s.spendCost k).handOver p

/-- A failed attempt at PA or PEER recorded, and the next source (R190, R193, R197). -/
def State.attemptFailed (s : State) (reason check : Byte) (version : Nat) : State :=
  match s.boot.stage with
  | .attempt x rest => State.trySources rest (s.endAttempt.sourceFail x reason check version)
  | .recovery x forced => (s.endAttempt.sourceFail x reason check version).nextRecovery x forced
  | _ => s

/-- An object of PA or PEER that has arrived whole (R193, R197). -/
def State.objectArrived (s : State) (x : Source) (object : Bytes) : State :=
  match s.tryObject x object with
  | (.absent, _) => s
  | (.failed r c v, k) => (s.spendCost k).attemptFailed r (BitVec.ofNat 8 c) v
  | (.passed p, k) => (s.spendCost k).endAttempt.handOver p

/-- A page absorbed by the ROM's intake; the last one of an object ends the attempt (R191, R414). -/
def State.romArrived (s : State) : State :=
  match s.update.intake with
  | some (_, bytes, false) =>
    if 64 ≤ bytes.length ∧ 64 + field bytes 8 4 ≤ bytes.length ∧ objectSubmitted bytes then s.objectArrived .pa bytes else s
  | _ => s

/-- RTC counts of the bounds of R187: to the first sign of the partner, and in all. -/
def attemptTicks (x : Source) (begun : Bool) : Nat :=
  match x, begun with
  | .pa, false => 1639
  | .pa, true => 327680
  | _, false => 8192
  | _, true => 65536

/-- Whether the partner of the present attempt has been heard. -/
def State.attemptBegun (s : State) (x : Source) : Bool :=
  if x = .pa then s.boot.heard else s.link.receiving.isSome

/-- The RTC moved forward to a count; no change when it has passed. -/
def State.toRtc (s : State) (n : Nat) : State :=
  if s.clock.rtc < n then { s with clock := { s.clock with rtc := n, rtcAcc := 0 } } else s

/-- The source of the attempt in progress. -/
def State.attempting? (s : State) : Option Source :=
  match s.boot.stage with
  | .attempt x _ => some x
  | .recovery x _ => some x
  | _ => none

end Sys2Proof.Machine
end

