-- ==== Sys2Proof/Machine/Boot.lean ====
section
/-!
DEFINITION. The boot ROM's steps B1–B10 (R184–R202): life cycle (R137, R142, R143), requests and provisioning (R149–R155), transitions
(R138, R145), services of CFG2 (R475, R480–R487), and the meanings of the commands that start and continue it.
-/
namespace Sys2Proof.Machine

/-! ### B8: services (R99, R185) -/

/-- B9 (R185, R188, R190). -/
def State.bootB9 (s : State) : State :=
  let s := { s with boot := { s.boot with order := s.sourceOrder } }
  if s.service = 4 then s.enterRecovery true else State.trySources s.boot.order s

/-- The readout start (R475). -/
def State.beginReadout (s : State) : State :=
  let s := s.appendNow Code.readout 0xFF s.timeField (be 4 s.boot.counter)
  let s := match s.linkScalar? with | some d => s.putKey .link (be 32 d) | none => s
  { s with boot := { s.boot with stage := .readout }, pads := { s.pads with portA := .inputOn, haio23 := if s.boot.astrap then .inputOn else .off }
           portA := { s.portA with mode := .readout } }

/-- What remains of B8: the challenge drawn (R148), then the readout start or B9 (R185). -/
def State.endB8 (s : State) : State :=
  let s := s.drawChallenge
  if s.service = 5 ∧ s.boot.life ≠ .maker then s.beginReadout else s.bootB9

/-- Chip 0 power-cycled by the ROM: FPWR low for 655,360 slots, then discovery; beyond the limit the chip has failed (R268, R269, R271). -/
def State.romCycle (s : State) (op : Byte) : State :=
  if s.flash.cycles < 3 then
    let s := { s.spend 655360 with flash := { s.flash with cycles := s.flash.cycles + 1 } }
    (s.latch Ev.powerCycled).latch Ev.discovered |>.order 0 (s.chip 0).discoveryOps
  else s.killChip 0 op

/-- A program or erase of the ROM in chip 0; whether it ends well, with its error bit, or beyond its time with the chip ready or still busy
after 66h and 99h is the chip's (R269, log 2). The second value tells that it ended well. -/
def State.romFlash (s : State) (t : FlashTask) : State × Bool :=
  let (end_, s) := s.freeBelow 4
  let s := s.order 0 [0x06, (s.chip 0).sfdp.taskOp t.kind, (s.chip 0).sfdp.pollOp]
  let fault := fun (st : State) (cause : Byte) => (st.spoilTask t).flashFault (refOf 0 t.addr) cause t.kind.code false
  if end_ = 0 then (s.applyTask t, true)
  else if end_ = 1 then (fault s t.kind.errorCause, false)
  else
    let s := fault (s.order 0 [(s.chip 0).sfdp.pollOp, 0x66, 0x99]) t.kind.timeoutCause
    (if end_ = 2 then s else s.romCycle t.kind.code, false)

/-- The debug exchange area's address (R253). -/
def exchangeAt : Nat := 0x001000

/-- The block that the device writes into the exchange area (R480). -/
def State.exchangeBlock (s : State) : Bytes → Byte → Bytes := fun challenge reason =>
  be 4 0x42584443 ++ [0x01, reason, 0, 0] ++ s.unitNumber ++ challenge ++ be 4 s.boot.counter ++
    [BitVec.ofNat 8 s.epoch, Code.life s.boot.life, 0, 0] ++ s.boot.patchDigest.take 12

/-- The area erased and the block written with the challenge that holds at the next start (R483); in the commit-low state nothing is
written (R122), and a failed operation is not repeated (R517). -/
def State.writeExchange (s : State) (reason : Byte) : State :=
  if s.power.commitLow ∨ !s.chipServes 0 then s
  else
    let (s, ok) := s.romFlash ⟨.erase4k, 0, exchangeAt, []⟩
    if !ok then s
    else
      let (c, i) := (s.challenge?).getD (zeros 16, 0)
      (s.romFlash ⟨.program, 0, exchangeAt, s.exchangeBlock (c ++ be 4 i) reason⟩).1

/-- LIFE_CYCLE of an opening (R484, R485). -/
def State.openingRecord (s : State) (signed : Bool) : State :=
  s.appendNow Code.lifeCycle 0xFF s.timeField (lifeBody 0x01 s.boot.life s.boot.life signed false false 0 s.boot.counter s.cursorWord)

/-- The failed checks of R482 in order, `none` when all pass; the second value tells that Energy alone failed. -/
def State.responseChecks (s : State) (r : Request) : Option Byte × Bool :=
  let kind := (r.payload.natAt 1).getD 0
  let spent := kind != 5 && decide (16 ≤ s.epoch)
  match s.challengeChecks r s.makerRootHash with
  | some e => (some e, false)
  | none =>
    if kind = 6 ∧ s.power.commitLow then (some Code.reqLowbat, !spent)
    else if spent then (some Code.dbgEpochSpent, false)
    else (none, false)

/-- The batches of the spill that the ring no longer holds, newest last: those in sectors that the largest spill could take (R485 D2,
R466). -/
def State.oldSpill (s : State) : List (Nat × Nat) :=
  let n := usableSectors (s.sectorsOf 0) (s.sectorsOf 1)
  let refs := (List.range (min 1040 n)).map s.usableRef
  let held := refs.filterMap (fun r => (s.spillHeld r).map (fun b => (b, r)))
  let old := held.filter (fun p => decide (64 * p.1 + ringRecords < s.nextSequence))
  ((old.map (·.1)).dedup.mergeSort).filterMap (fun b => old.find? (fun p => p.1 == b))

/-- D2: every spilled batch not held in the ring dropped with one GAP (R485). -/
def State.dropSpill (s : State) : State :=
  match s.vaultValue? oldestSpillAt, s.oldSpill.getLast? with
  | some _, some (_, sector) =>
    let last := s.sectorBytes sector (63 * 64) 64
    let s := s.vaultPut oldestSpillAt 0xFFFFFFFF
    s.makeRoom.dropBatch (last.take 48) (s.spillGood last)
  | some _, none => s.vaultPut oldestSpillAt 0xFFFFFFFF
  | none, _ => s

/-- The first pair of word 22 with exactly one bit programmed (R486). -/
def tornPair (w : BitVec 32) : Option (Fin 16) :=
  (List.finRange 16).find? (fun k => w.getLsbD (2 * k.val) != w.getLsbD (2 * k.val + 1))

/-- The cell of a pair of word 22 that is not programmed. -/
def pairCell (w : BitVec 32) (k : Fin 16) : OtpCell :=
  let bit := if w.getLsbD (2 * k.val) then 2 * k.val + 1 else 2 * k.val
  .word 22 ⟨bit % 32, Nat.mod_lt _ (by decide)⟩

/-- D6 and D7 (R485): the second value tells whether the start goes on. -/
def State.endReopen (s : State) (completion : Bool) : State × Bool :=
  let s := s.vaultErase wipeCursorAt 4
  match tornPair (s.otpWord 22) with
  | none => (s, true)
  | some k =>
    let (s, ok) := s.pulseAll [pairCell (s.otpWord 22) k]
    if !ok then (s.holdWith Code.lcLowbat, false)
    else
      let s := (s.unlockKeys s.boot.life s.epoch).ledgerInit
      let s := s.appendNow Code.otpWrite 0xFF s.timeField ([22, 0, 0, 0] ++ zeros 12 ++ be 4 (s.otpWord 22).toNat)
      let s := s.appendNow Code.lifeCycle 0xFF s.timeField
        (lifeBody 0x02 s.boot.life s.boot.life true completion false s.epoch s.bootCount s.cursorWord)
      ({ s with boot := { s.boot with debugReach := if completion then s.boot.debugReach else some .halt } }, true)

/-- D4 and D5 begun or resumed (R485, R486): `next` follows when no block is left to erase. -/
def State.beginD4 (s : State) (completion acted : Bool) (next : State → State) : State :=
  let s := s.zeroiseKeys.eraseReopen.discoverAll
  match s.wipeNow .reopen with
  | some (c, b) => s.eraseBlock .reopen completion acted c b
  | none => match s.endReopen completion with
    | (s, true) => next s
    | (s, false) => s

/-- D1–D3 and the rest of a full reopen (R485). -/
def State.fullReopen (s : State) : State :=
  let s := s.openingRecord true
  let s := s.dropSpill
  let cell : OtpCell := .word 22 ⟨2 * s.epoch % 32, Nat.mod_lt _ (by decide)⟩
  let (s, ok) := s.pulseAll [cell]
  if !ok then s.holdWith Code.lcLowbat else s.beginD4 false false State.endB8

/-- The exchange area read and answered in the Fielded state (R482–R485). -/
def State.readResponse (s : State) : State :=
  let s := s.spend 196608
  let len := beNat (s.raw 0 (exchangeAt + 0x400) 4)
  let present := s.chipServes 0 && decide (len ≠ 0xFFFFFFFF)
  let sized := decide (1 ≤ len) && decide (len ≤ 1024)
  let r := if sized then readSigned (s.raw 0 (exchangeAt + 0x404) len) (challengeKeys [5, 6]) else readSigned [] (challengeKeys [5, 6])
  if !present then (s.drawChallenge.writeExchange 0).endB8
  else
    match s.responseChecks r with
    | (some e, onlyEnergy) =>
      let s := s.rejectRecord r.payload [5, 6] e
      if onlyEnergy then s.endB8
      else ({ s with boot := { s.boot with requestRead := true } }.drawChallenge.writeExchange e).endB8
    | (none, _) =>
      let s := { s with boot := { s.boot with requestRead := true } }
      if r.payload.natAt 1 = some 6 then s.fullReopen
      else
        let s := s.openingRecord true
        { s with boot := { s.boot with debugReach := some .observe } }.endB8

/-- B8 (R184, R185, R249, R475, R477): discovery, then the service that acts here. -/
def State.bootB8 (s : State) : State :=
  let s := s.discoverAll
  let s := if s.flash.found.toList.any (fun f => f.ran && f.row != 0) then s.noteBit 12 else s
  if s.service ≠ 6 then s.endB8
  else
    match s.boot.life with
    | .maker => { s with boot := { s.boot with debugReach := some .maker } }.endB8
    | .fielded => s.readResponse
    | _ =>
      let s := s.openingRecord false
      { s with boot := { s.boot with debugReach := some .halt } }.endB8

/-- B6 and B7 (R166, R231). -/
def State.bootB6 (s : State) : State := ((s.unlockKeys s.boot.life s.epoch).spendUpTo 24576).bootB8

/-! ### Transitions (R138, R142, R145) -/

/-- The end of the Returned wipe: its cursor erased, then phase 2 (R138, R145). -/
def State.endReturned (s : State) (signed completion ignored : Bool) : State × Bool :=
  (s.vaultErase wipeCursorAt 4).endTransition .fielded .returned signed completion ignored

/-- The wipe and what follows it; a wipe with a flash part goes on block by block (R145, R271). -/
def State.runWipe (s : State) (old new : LifeCycle) (signed completion ignored : Bool) (next : State → State) : State :=
  match s.wipe old new with
  | (s, false) => s.holdWith Code.lcLowbat
  | (s, true) =>
    if new = .returned then
      let s := s.discoverAll
      match s.wipeNow (.returned signed) with
      | some (c, b) => s.eraseBlock (.returned signed) completion ignored c b
      | none => match s.endReturned signed completion ignored with
        | (s, true) => next s
        | (s, false) => s
    else match s.endTransition old new signed completion ignored with
      | (s, true) => next s
      | (s, false) => s

/-- A fresh transition: record, phase 1, wipe, phase 2 (R138). -/
def State.transition (s : State) (new : LifeCycle) (signed : Bool) (next : State → State) : State :=
  let old := s.boot.life
  let s := s.lifeRecord 0x01 old new signed false false
  let (s, ok) := s.pulseAll (groupCells (groupOf new) 0 8)
  if !ok then s.holdWith Code.lcLowbat else s.runWipe old new signed false false next

/-! ### B5 (R107, R149, R155) -/

/-- A life-cycle request of the Fielded state (R149–R151). -/
def State.lifeRequest (s : State) (r : Request) : State :=
  let s := s.spend signatureSlots
  match s.challengeChecks r s.makerRootHash with
  | some e =>
    let s := s.takeRequest.rejectRecord r.payload [1, 2, 3] e
    ({ s with boot := { s.boot with requestRead := true } }.writeMark).bootB6
  | none =>
    if s.power.commitLow then (s.rejectRecord r.payload [1, 2, 3] Code.reqLowbat).bootB6
    else
      let s := s.takeRequest
      let s := { s with boot := { s.boot with requestRead := true } }
      s.transition (if r.payload.natAt 1 = some 1 then .returned else .scrapped) true (fun s => s.writeMark.bootB6)

/-- The checks of a provisioning request: those of R149 without Freshness (R155). -/
def State.provisionChecks (s : State) (r : Request) (signed : Bool) : Option Byte :=
  if !r.form then some Code.reqForm
  else if r.payload.bytesAt 2 ≠ some s.unitNumber then some Code.reqUnit
  else if signed ∧ sha3 r.signer ≠ s.operatorRootHash then some Code.reqSigner
  else if signed ∧ !es256Verify r.signer r.signed.1 r.signed.2.1 r.signed.2.2 then some Code.reqSig
  else if s.power.commitLow then some Code.reqLowbat
  else none

/-- A provisioning request (R151, R155): programmed or rejected, with its mark unless Energy alone failed. -/
def State.provisionRequest (s : State) (r : Request) (signed : Bool) : State :=
  let s := if signed then s.spend signatureSlots else s
  match s.provisionChecks r signed with
  | some e =>
    let s := s.rejectRecord r.payload [1, 2, 3] e
    (if e = Code.reqLowbat then s else s.takeRequest.writeMark).bootB6
  | none => ((s.takeRequest.provision r.payload).writeMark).bootB6

/-- The unsigned provisioning request of the Integrator state (R155). -/
def readMap (bs : Bytes) : Request :=
  match cborDecode bs with
  | some (c, f) =>
    match c with
    | .map _ => ⟨c, f.request && provisioningKeys .integrator false c, [], ([], [], [])⟩
    | _ => { readSigned bs (fun _ => true) with form := false }
  | none => ⟨.null, false, [], ([], [], [])⟩

/-- B5 (R107, R108, R149, R151, R155, R184 note). -/
def State.bootB5 (s : State) : State :=
  let code := s.boot.cfg2
  if code = 1 ∨ code = 2 then
    let mask := s.armCauses code
    match mask, s.armTarget code with
    | 0, some new => s.transition new false State.bootB6
    | _, _ => s.armFault mask
  else if !s.requestPresent ∨ s.requestMarked then s.bootB6
  else
    let bs := if s.requestSized then s.requestBytes else []
    match s.boot.life with
    | .fielded =>
      let any := readSigned bs (fun _ => true)
      if any.payload.natAt 1 = some 3 then s.provisionRequest (readSigned bs (provisioningKeys .fielded true)) true
      else s.lifeRequest (readSigned bs (challengeKeys [1, 2]))
    | .integrator => s.provisionRequest (readMap bs) false
    | _ => s.bootB6

/-! ### B1–B4 -/

/-- B4 (R172); a start that has completed a transition does nothing at B5 (R144). -/
def State.bootB4 (s : State) (acted : Bool) : State :=
  let s := s.countUpTo bootCounterAt counterMax
  let s := { s with boot := { s.boot with counter := s.counter bootCounterAt } }
  if acted then s.bootB6 else s.bootB5

/-- A reopen that was cut off is completed (R486). -/
def State.bootReopen (s : State) (acted : Bool) : State :=
  match tornPair (s.otpWord 22) with
  | none => s.bootB4 acted
  | some _ =>
    if s.power.commitLow then s.holdWith Code.lcLowbat else s.beginD4 true acted (fun s => s.bootB4 acted)

/-- The completion of a torn transition (R141, R142, R144). -/
def State.complete (s : State) (old new : LifeCycle) : State :=
  if s.power.commitLow then s.holdWith Code.lcLowbat
  else
    let signed := old == .fielded
    let armed := s.boot.cfg2 == 1 || s.boot.cfg2 == 2
    let ignored := armed || (s.requestPresent && s.requestSized && !s.requestMarked)
    let s := s.lifeRecord 0x01 old new signed true ignored
    s.runWipe old new signed true ignored (fun s => s.bootReopen true)

/-- B3 (R137, R142, R143, R157). -/
def State.bootB3 (s : State) : State :=
  match decodeLife s.otp with
  | .whole .scrapped => s.hold .scrapped
  | .whole l =>
    let s := if l = .maker ∧ !s.power.commitLow then s.generateKey.1 else s
    s.topUp.bootReopen false
  | .torn old new => s.complete old new

/-- The notes that B2 finds (R101, R104, R153, R189). -/
def State.strapNotes (s : State) : State :=
  let s := if s.reservedOtp then s.noteBit 8 else s
  let s := if overrideFault (s.otpWord 1).toNat then s.noteBit 9 else s
  if s.codesConflict ∧ s.conflictLocked then s.noteBit 16 else s

/-- B2 (R94, R103, R109, R110, R520): a strap fault holds, with its record except in the Scrapped state. -/
def State.bootB2 (s : State) : State :=
  let life := match decodeLife s.otp with | .whole l => l | .torn old _ => old
  let s := (s.applyStraps).strapNotes
  let s := { s with boot := { s.boot with life := life } }
  match s.strapFault with
  | some (mask, bit, pad, samples) =>
    let reason := BitVec.ofNat 8 (0x20 + bit)
    let s := if life = .scrapped then s else s.appendNow Code.strapFault 0xFF s.timeField (strapFaultBody reason pad mask samples)
    s.hold (.held reason)
  | none => s.bootB3

/-- Phase B begins; B1 loads OTP and applies the ROM patches (R77, R159, R160, R184, R231). -/
def State.bootB1 (s : State) (tripAfter : Option Nat) : State :=
  let s := { s with
    clock := s.clock.toWindow 64512, power := { s.power with phase := .b }, pads := s.padsB
    boot := { Boot.reset with patchDigest := patchPrefix s.otp, patches := s.otp.patches, tripAfter := tripAfter } }
  (s.spend 38400).bootB2

/-! ### The flash part of a wipe goes on (R145, R271) -/

/-- What follows the last block of a wipe. -/
def State.wipeEnded (s : State) (job : WipeJob) (completion ignored : Bool) : State :=
  match job with
  | .returned signed => match s.endReturned signed completion ignored with
    | (s, true) => if completion then s.bootReopen true else s.writeMark.bootB6
    | (s, false) => s
  | .reopen => match s.endReopen completion with
    | (s, true) => if completion then s.bootB4 ignored else s.endB8
    | (s, false) => s

/-- The cursor advanced past a block and the next erase started, or the wipe ended (R145, R271). -/
def State.wipePast (s : State) (chip block : Nat) : State :=
  match s.boot.stage with
  | .wiping job completion ignored =>
    let s := { s with flash := { s.flash with wipeAt := none } }
    let s := s.advanceCursor job chip block
    match s.wipeFrom job chip (block + 1) with
    | some (c, b) => s.eraseBlock job completion ignored c b
    | none => s.wipeEnded job completion ignored
  | _ => s

/-- The operation value of a wipe's erase in FLASH_FAULT (R513). -/
def wipeOperation : Byte := 0x05

/-- An erase of a wipe ended: a failure is recorded, and the wipe moves on (R271). -/
def State.wipeStep (s : State) (o : FlashOp) (cause : Option Byte) : State :=
  match s.flash.wipeAt with
  | some (c, b) =>
    let s := match cause with
      | some e => s.flashFault (refOf o.task.chip o.task.addr) e wipeOperation false
      | none => s
    s.wipePast c b
  | none => s

/-! ### Meanings -/

/-- KEEPER_GAP_END (R77): phase B begins, and the boot ROM runs as far as nothing outside it is awaited. -/
def execKeeperGapEnd (tripAfter : Option Nat) (s : State) : Out :=
  .next (if s.power.phase = .k then s.bootB1 tripAfter else s)

/-- SOURCE_ATTEMPT_TIMEOUT (R187): the attempt's bound has passed. -/
def execSourceAttemptTimeout (s : State) : Out :=
  .next (match s.attempting? with
  | some x => (s.toRtc (s.boot.attemptAt + attemptTicks x (s.attemptBegun x))).attemptFailed Code.srcTimeout 0 noVersion
  | none => s)

/-- RECOVERY_WAIT_TIMEOUT (R197): 60 s have passed; a forced wait does not end. -/
def execRecoveryWaitTimeout (s : State) : Out :=
  .next (match s.boot.stage with
  | .recovery _ false => (s.toRtc (s.boot.recoveryAt + 1966080)).endAttempt.holdWith Code.noSchedule
  | _ => s)

end Sys2Proof.Machine
end

