-- ==== Sys2Proof/Machine/ExportOps.lean ====
section
/-!
DEFINITION. Parcels at work: the export steps E1–E3 (R429–R431, R433), the import of a complete parcel (R432).
-/
namespace Sys2Proof.Machine

/-! ### Export (R430) -/

/-- The export aborted for a cause that the spec gives no reason value for (R433). -/
def State.abortExportFree (s : State) : State :=
  let (r, s) := s.freeReason
  s.abortExport r

/-- The start key and boot counter of a unit by its verified BEACON (R355, R430). -/
def State.startKeyOf (s : State) (unit : Bytes) : Option (Bytes × Nat) :=
  match s.link.heard.find? (fun h => h.number == unit && h.verified == some true) with
  | some h => some (h.startKey, h.boot)
  | none => none

/-- E1: the tenant is frozen at slot 0 of the next lap, with step 1 recorded before it (R430). -/
def State.beginExport (s : State) (t : TSlot) (target order : Bytes) : State :=
  let (transfer, s) := s.newTransfer
  let s := s.writeParcel exportRecordAt 1 (slotByte t) transfer target
  let s := (s.setClock (s.clock.nextLap true)).modTenant t (fun x => { x with frozen := true })
  let e : Export :=
    { slot := t, target := target, order := order, transfer := transfer, step := 1, parcel := [], count := 0, next := 0, lastSent := 0, digest := [] }
  { s with update := { s.update with exporting := some e } }

/-- Whether a frozen tenant's writes have drained: bounce buffer empty, posted mark closed, no commit of it (R430 E1). -/
def State.drained (s : State) (t : TSlot) : Bool :=
  let x := s.tenant t
  x.bounce.state == .empty && x.eraseWait.isNone && s.markClosed t && (match s.commit with | some c => c.tenant != t | none => true)

/-- E3: the parcel sealed, its data leaves fetched one a lap, and its first fragment sent (R430, R431). -/
def State.sendParcel (s : State) (m : Manifest) (d : TenantDecl) (e : Export) (key eph : Bytes) (boot : Nat) : State :=
  match s.parcelPlain m e.slot d with
  | none => s.abortExport CryptoResult.badTag.code
  | some plain =>
    let header := parcelHeader (slotByte e.slot) plain.length s.unitNumber e.target boot eph e.order
    let bytes := parcelBytes key header plain
    let s := s.writeParcel exportRecordAt 3 (slotByte e.slot) e.transfer e.target
    let s := s.setClock (s.clock.skipLaps (4 * field (plain.headD []) 62 2) true)
    let e := { e with step := 3, parcel := bytes, count := ceilDiv bytes.length 240, next := 0, digest := sha3 bytes }
    { s with update := { s.update with exporting := some e } }.sendFragment

/-- E2, then E3: an ephemeral key pair, ECDH with the target's start key, KP (R430). -/
def State.sealExport (s : State) (m : Manifest) (d : TenantDecl) (e : Export) : State :=
  match s.startKeyOf e.target with
  | none => s.abortExportFree
  | some (peerKey, boot) =>
    let s := s.writeParcel exportRecordAt 2 (slotByte e.slot) e.transfer e.target
    let (v, s) := s.random 48
    let own := scalarOf v
    let eph := publicKey own
    let z := ecdh own peerKey
    let s := s.setClock (s.clock.skipLaps 2 true)
    if z.2 = .ok then
      let key := parcelKey z.1 s.unitNumber e.target boot eph e.order
      (s.putKey .parcel key).sendParcel m d e key eph boot
    else s.abortExport z.2.code

/-- The export taken on from where it stands: E1 for a checked order, E2 and E3 once the tenant's writes have drained (R430). -/
def State.exportOn (s : State) (m : Manifest) : State :=
  let s := match s.update.exporting, s.update.install with
    | none, some i =>
      let order := i.object.drop 64
      if i.kind = 3 ∧ i.checked then
        s.beginExport (slotOfNat i.slot.toNat) (((payloadOf order).bind (fun p => p.bytesAt 4)).getD []) order
      else s
    | _, _ => s
  match s.update.exporting with
  | some e =>
    if e.step = 1 ∧ s.drained e.slot then
      match s.decl? e.slot with
      | some d => s.sealExport m d e
      | none => s
    else s
  | none => s

/-! ### Import (R432) -/

/-- The writes of an install or import started; with none to send its end is at once (R416, R420, R432). -/
def State.startWork (s : State) : State := if s.update.flashTasks.isEmpty then s.workDone else s.pump

/-- Whether the import in work has begun to write: step 2 of its record. -/
def State.importBegun (s : State) : Bool := byteAt (s.vaultBytes importRecordAt 1) 0 == 2

/-- The import in work whose parcel is complete and not yet opened. -/
def State.importReady? (s : State) : Option Transfer :=
  match s.update.importing with
  | some x => if x.complete ∧ !s.importBegun then some x else none
  | none => none

/-- The checks of R432 on a complete parcel, then its writes; the laps of its engines, 2 for the order's signature and 1 for ECDH, pass
whatever the parcel holds (R18, R430, R432). -/
def State.importOn (s : State) (m : Manifest) (x : Transfer) : State :=
  let s := s.setClock (s.clock.skipLaps 3 true)
  match parcelOf x.bytes with
  | none => s.abortImport Code.insForm
  | some p =>
    match s.importFit x.peer p with
    | some r => s.abortImport r
    | none =>
      match s.decl? p.slot with
      | none => s.abortImport Code.insMismatch
      | some d =>
        match s.openParcel p with
        | none => s.abortImport CryptoResult.badTag.code
        | some blocks =>
          match parcelContent d blocks with
          | none => s.abortImport Code.insMismatch
          | some c =>
            if s.power.commitLow then s.abortImport Code.lowbat
            else
              let s := s.beginImport m d x c
              if s.update.importing.isSome then s.startWork else s

end Sys2Proof.Machine
end

