-- ==== Sys2Proof/WellFormed.lean ====
section
/-!
DEFINITION. Which commands are well formed: operands that the outside world can present at all.
-/
namespace Sys2Proof

/-- Eight conversions or reads for each pad of the strap window (R93). -/
def StrapInputs.wf (i : StrapInputs) : Bool :=
  [i.cfg0, i.cfg1, i.cfg2].all (fun l => l.length == 8) && [i.fstrap, i.astrap, i.alertb].all (fun l => l.length == 8)

/-- The field lengths of R348. -/
def Frame.wf (f : Frame) : Bool :=
  decide (f.priority < 16) && decide (f.kind < 16) && f.srcUnit.length == (if f.srcNode = 0 then 16 else 0) &&
    f.dstUnit.length == (if f.dstNode = 0 then 16 else 0) && decide (f.payload.length ≤ 255) &&
    f.check.length == (if f.flags.getLsbD 0 then 8 else 2)

/-- A debug access word within its transfer: up to 256 bytes of flash data (R251, R478). -/
def DebugOp.wf (o : DebugOp) : Bool :=
  match o with
  | .flashProgram _ _ data => decide (1 ≤ data.length) && decide (data.length ≤ 256)
  | .flashRead _ _ len => decide (1 ≤ len)
  | _ => true

/-- A command that some sender can present. -/
def Instr.wf (i : Instr) : Bool :=
  match i with
  | .strapWindowOpen x => x.wf
  | .pageProgram _ _ data _ => decide (1 ≤ data.length)
  | .intakePageProgram _ data => decide (1 ≤ data.length) && decide (data.length ≤ 256)
  | .readoutStatementRequest nonce => nonce.length == 16
  | .confirmationPulseEdge slot _ => decide (slot ≤ 64512)
  | .beacon f | .beaconRequest f | .join f | .admitFrame f _ | .waitFrame f | .refuseFrame f | .readFrame f | .writeProgram f
  | .writeErase4k f | .writeErase64k f | .ackFrame f | .statementRequest f | .statementFragment f | .parcelTenantFragment f
  | .parcelResult f | .parcelRecoveryPair f | .parcelImageFragment f | .parcelRecoveryRequest f | .cross f | .timeFrame f
  | .elect f | .leave f | .noticeFrame f | .dataFrame f => f.wf
  | .beaconVerify u | .memberLossTimeout u | .recoveryPairCycle u => u.length == 16
  | .debugAccessWord op => op.wf
  | _ => true

end Sys2Proof
end

