-- ==== Sys2Proof/Machine/LinkOps.lean ====
section
/-!
DEFINITION. Frames of the Rarvo link (R348–R351), their protection (R359), the receive checks of R352, sessions (R360).
-/
namespace Sys2Proof.Machine

/-! ### Frames (R348–R351) -/

/-- The fixed priority of a kind (R350). -/
def kindPriority (k : Nat) : Nat := [2, 9, 3, 3, 3, 8, 6, 8, 6, 5, 10, 12, 7, 1, 2, 4].getD k 15

/-- The kinds that are always sealed (R350); PARCEL goes by its content. -/
def alwaysSealed (k : Nat) : Bool :=
  [Code.fAdmit, Code.fRead, Code.fData, Code.fWrite, Code.fAck, Code.fNotice, Code.fStatement, Code.fCross, Code.fTime, Code.fLeave].contains k

/-- The kinds that are never sealed (R350). -/
def neverSealed (k : Nat) : Bool := [Code.fBeacon, Code.fJoin, Code.fElect].contains k

/-- The payload lengths that a kind allows (R351). -/
def lengthOk (k : Nat) (unit : Bool) (n : Nat) : Bool :=
  if k = Code.fBeacon then n == 0 || (unit && n == 145)
  else if k = Code.fJoin then n == (if unit then 40 else 69)
  else if k = Code.fAdmit then n == 21
  else if k = Code.fWait then n == 3
  else if k = Code.fRefuse then n == 7
  else if k = Code.fRead then n == 4
  else if k = Code.fData then decide (6 ≤ n) && decide (n ≤ 245)
  else if k = Code.fWrite then decide (5 ≤ n) && decide (n ≤ 245)
  else if k = Code.fAck then n == (if unit then 1 else 0)
  else if k = Code.fNotice then n == 64
  else if k = Code.fStatement then decide (4 ≤ n) && decide (n ≤ 243)
  else if k = Code.fParcel then decide (8 ≤ n) && decide (n ≤ 247)
  else if k = Code.fCross then n == 98
  else if k = Code.fTime then n == 8
  else if k = Code.fElect then n == 9
  else n == 1

/-- A refusal reason (R508). -/
def isRefusal (b : Byte) : Bool := decide (0x10 ≤ b.toNat) && decide (b.toNat ≤ 0x18)

/-- The operation and data of a WRITE (R351). -/
def writeForm (p : Bytes) : Bool :=
  let n := (byteAt p 4).toNat
  if byteAt p 0 = 1 then decide (1 ≤ n) && decide (n ≤ 240) && decide (p.length = 5 + n)
  else (byteAt p 0 == 2 || byteAt p 0 == 3) && n == 0 && decide (p.length = 5)

/-- The content, index, count and bytes of a PARCEL: a fragment, a result or a request (R351, R384, R432). -/
def parcelForm (p : Bytes) : Bool :=
  let index := field p 3 2
  let count := field p 5 2
  let code := byteAt p 7
  if count = 0 then
    index == 65535 && ((byteAt p 0 == 1 && decide (p.length = 8) && (code == 0 || Code.reasons.contains code)) ||
      (byteAt p 0 == 3 && decide (p.length = 24)))
  else (byteAt p 0 == 1 || byteAt p 0 == 2 || byteAt p 0 == 3) && decide (index < count)

/-- Whether the opened payload of a kind carries no reserved value (R351, R352, R514). -/
def contentOk (k : Nat) (p : Bytes) : Bool :=
  if k = Code.fBeacon then p.isEmpty || (byteAt p 0 &&& 0xF8) == 0
  else if k = Code.fAdmit then (byteAt p 4 &&& 0xFE) == 0
  else if k = Code.fWait then decide ((byteAt p 0).toNat < 16)
  else if k = Code.fRefuse then isRefusal (byteAt p 0) && decide ((byteAt p 1).toNat < 16)
  else if k = Code.fRead then decide (1 ≤ (byteAt p 3).toNat) && decide ((byteAt p 3).toNat ≤ 240)
  else if k = Code.fData then decide ((byteAt p 4).toNat = p.length - 5)
  else if k = Code.fWrite then writeForm p
  else if k = Code.fStatement then (byteAt p 0 == 0 && decide (p.length = 17)) || byteAt p 0 == 1
  else if k = Code.fParcel then parcelForm p
  else if k = Code.fTime then (byteAt p 6 &&& 0xFE) == 0 && byteAt p 7 == 0
  else if k = Code.fLeave then byteAt p 0 == 0 || byteAt p 0 == 1 || isRefusal (byteAt p 0)
  else true

end Sys2Proof.Machine

namespace Sys2Proof
open Sys2Proof.Machine

/-- The source of a frame. -/
def Frame.peer (f : Frame) : Peer := if f.srcNode = 0 then .unit f.srcUnit else .module f.srcNode

/-- The SEALED and REPEAT flags of a frame (R348). -/
def Frame.isSealed (f : Frame) : Bool := f.flags.getLsbD 0
def Frame.isRepeat (f : Frame) : Bool := f.flags.getLsbD 1

/-- Every byte from the first arbitration byte to before the payload (R348, R359). -/
def Frame.head (f : Frame) : Bytes :=
  be 2 (f.priority * 4096 + f.srcNode.toNat * 16 + f.kind) ++ f.srcUnit ++ [f.flags, f.dstNode] ++ f.dstUnit ++
    [f.request, BitVec.ofNat 8 f.payload.length] ++ (if f.isSealed then be 4 f.counter.toNat else [])

/-- Whether a frame is one the unit acts on (R352). -/
def Frame.addresses (f : Frame) (unit : Bytes) : Bool := f.dstNode == 0xFF || (f.dstNode == 0 && f.dstUnit == unit)

/-- The Form row of R352 on what can be read before the frame is opened. -/
def Frame.formOk (f : Frame) : Bool :=
  f.wf && f.priority == kindPriority f.kind && f.srcNode != 0xFF && (f.flags &&& 0xFC) == 0 && lengthOk f.kind (f.srcNode == 0) f.payload.length &&
    !(f.isSealed && neverSealed f.kind) && (f.isSealed || contentOk f.kind f.payload)

end Sys2Proof

namespace Sys2Proof.Machine

/-- Whether a kind shall be sealed: PARCEL by its content (R350). -/
def mustSeal (k : Nat) (p : Bytes) : Bool := alwaysSealed k || (k == Code.fParcel && byteAt p 0 == 1)

/-! ### Sessions (R357–R360) -/

/-- The 12-byte nonce of a sealed frame (R359). -/
def sealNonce (ident : Bytes) (fromJoiner : Bool) (counter : Nat) : Bytes :=
  fit 4 0 ident ++ [if fromJoiner then 0x01 else 0x02, 0, 0, 0] ++ be 4 counter

/-- A session changed by a function. -/
def State.modSession (s : State) (p : Peer) (g : Session → Session) : State :=
  { s with sessions := s.sessions.map (fun x => if x.peer == p then g x else x) }

/-- A session put into the table; it replaces an older one (R358, R360). -/
def State.putSession (s : State) (x : Session) : State := { s with sessions := s.sessions.filter (fun y => y.peer != x.peer) ++ [x] }

/-- The parcel in work that a session's end breaks off (R433). -/
def State.breakParcel (s : State) (p : Peer) : State :=
  let s := match s.update.exporting with
    | some e => if p = Peer.unit e.target then s.abortExportFree else s
    | none => s
  match s.update.importing with
  | some x =>
    if p = Peer.unit x.peer ∧ !s.importBegun then
      let (r, s) := s.freeReason
      s.abortImport r
    else s
  | none => s

/-- Whether a queued frame or an exchange due belongs to a peer's session. -/
def OutFrame.under (o : OutFrame) (p : Peer) : Bool := o.sealed && o.dest == .peer p

/-- A session ended (R360): its queued frames and the exchange of its ADMIT go with it, and an unanswered NOTICE of its tenant waits no
more. -/
def State.endSession (s : State) (p : Peer) : State :=
  if (s.session? p).isNone then s
  else
    let s := { s with sessions := s.sessions.filter (fun x => x.peer != p)
                      link := { s.link with outbox := s.link.outbox.filter (fun o => !o.under p)
                                            crossJoins := s.link.crossJoins.filter (fun x => Peer.unit x.1 != p) } }
    let s := allSlots.foldl (fun st t => match st.decl? t with
      | some d => if d.attach = .link ∧ d.peer = p then st.modTenant t (fun x => { x with notice := none }) else st
      | none => st) s
    s.breakParcel p

/-! ### Receiving (R352, R363) -/

/-- The five counts of R352, in the order of LINK_DROP. -/
def dropForm : Fin 5 := 0
def dropCheck : Fin 5 := 1
def dropSource : Fin 5 := 2
def dropReplay : Fin 5 := 3
def dropEarly : Fin 5 := 4

/-- A dropped frame counted, with its record (R352, R468). -/
def State.countDrop (s : State) (i : Fin 5) : State :=
  let s := { s with link := { s.link with counts := s.link.counts.set i (sat16 (s.link.counts[i] + 1)) } }
  s.recordLimited Code.linkDrop 0xFF (fun _ => (s.link.counts.toList.map (be 2)).flatten)

/-- Frames that arrive in the listen span count as EARLY instead (R237, R352). -/
def State.listening (s : State) : Bool := decide (s.clock.startLap < 35)

/-- A receive error, by stuffing, form or check: nothing is sent or received until an idle (R346, R510). -/
def State.receiveError (s : State) : State := { s.latch Ev.receiveError with link := { s.link with idleSeen := false } }

/-- A drop for a row of R352. -/
def State.drop (s : State) (i : Fin 5) : State :=
  (if i = dropForm ∨ i = dropCheck then s.receiveError else s).countDrop (if s.listening then dropEarly else i)

/-- REFUSE with NOT_ADMITTED, unsealed, at most once for a source in any 16 laps (R352). -/
def State.tellNotAdmitted (s : State) (f : Frame) : State :=
  if s.listening ∨ s.link.told.any (fun x => x.1 == f.peer && decide (s.clock.boundaries < x.2 + 16)) then s
  else
    let s := { s with link := { s.link with told := s.link.told.filter (fun (x : Peer × Nat) => x.1 != f.peer) ++ [(f.peer, s.clock.boundaries)] } }
    s.sendRefuse (.peer f.peer) f.request.toNat f.kind Code.notAdmitted 0xFFFFFF 0 false

/-- A frame that opened under its session and passed the Replay row taken (R352). -/
def State.acceptSealed (s : State) (f : Frame) : State :=
  s.modSession f.peer (fun x => { x with heard := some f.counter.toNat, lastFrame := s.clock.boundaries })

/-- The rows Check to Replay for a sealed frame (R352); the payload when it passes. -/
def State.openSealed (s : State) (f : Frame) : State × Option Bytes :=
  if f.peer = Peer.unit s.unitNumber then ((s.drop dropSource).tellNotAdmitted f, none)
  else match s.session? f.peer with
    | none => ((s.drop dropSource).tellNotAdmitted f, none)
    | some x =>
      match gcmOpen x.toUs (sealNonce x.ident (!x.joiner) f.counter.toNat) f.head f.payload f.check with
      | none => (s.drop dropCheck, none)
      | some p =>
        if !contentOk f.kind p ∨ (f.kind = Code.fParcel ∧ !mustSeal f.kind p) then (s.drop dropForm, none)
        else if (match x.heard with | some n => decide (f.counter.toNat ≤ n) | none => false) then (s.drop dropReplay, none)
        else (s.acceptSealed f, some p)

/-- The rows Check to Seal for an unsealed frame (R348, R352). -/
def State.openPlain (s : State) (f : Frame) : State × Option Bytes :=
  if f.check ≠ be 2 (crc16 (f.head ++ f.payload)).toNat then (s.drop dropCheck, none)
  else if f.peer = Peer.unit s.unitNumber then ((s.drop dropSource).tellNotAdmitted f, none)
  else if mustSeal f.kind f.payload then ((s.drop dropForm).tellNotAdmitted f, none)
  else (s, some f.payload)

/-- The table of R352, rows in order. -/
def State.checkFrame (s : State) (f : Frame) : State × Option Bytes :=
  if !f.formOk then (s.drop dropForm, none)
  else if f.isSealed then s.openSealed f
  else s.openPlain f

/-- The unit receives: link open, fabric running, an idle seen since (R346, R363). -/
def State.canHear (s : State) : Bool := s.awake && s.link.opened && s.link.idleSeen

/-- The dominant edge of a frame in S wakes the fabric (R121, R363). -/
def State.lnkEdge (s : State) : State :=
  if s.power.phase = .s ∧ s.link.opened then { s.askWake with sleep := { s.askWake.sleep with lnkWoke := true } } else s

/-- A frame that the unit acts on has arrived: its event, and the count of laps before the next sleep (R363, R510). -/
def State.noteFrame (s : State) (f : Frame) : State :=
  let own := f.dstNode == 0
  let s := s.latch (if own then Ev.frameForUnit else Ev.frameForAll)
  if own ∧ s.sleep.lnkWakeAt.isSome then { s with sleep := { s.sleep with lnkWakeAt := some s.clock.boundaries } } else s

/-- A frame arrives: its payload when every check passes (R237, R238, R352, R363). `check` are the rows of R352 for it. -/
def State.hear (s : State) (f : Frame) (check : State → State × Option Bytes) : State × Option Bytes :=
  if s.power.phase = .s then (s.lnkEdge, none)
  else if !s.canHear ∨ !f.addresses s.unitNumber then (s, none)
  else
    let s := s.noteFrame f
    if s.listening ∧ (f.dstNode = 0 ∨ (f.kind = Code.fBeacon ∧ f.payload.isEmpty)) then (s.countDrop dropEarly, none)
    else check s

/-- A frame arrives and goes through every row of R352. -/
def State.receive (s : State) (f : Frame) : State × Option Bytes := s.hear f (fun x => x.checkFrame f)

/-- A frame of a row: its kind is the row's, and the opened payload is of the row's form; else it is another command's and the state
stays (log 14). -/
def State.frame (s : State) (f : Frame) (kind : Nat) (fits : Bytes → Bool) (act : State → Bytes → State) : State :=
  if f.kind ≠ kind then s
  else match s.receive f with
    | (s', some p) => if fits p then act s' p else s
    | (s', none) => s'

/-! ### Replies -/

/-- Whether a session exists with a peer, so that WAIT and REFUSE go sealed (R350). -/
def State.sealedTo (s : State) (p : Peer) : Bool := (s.session? p).isSome

/-- REFUSE to the sender of a frame (R351). -/
def State.refuseFrame (s : State) (f : Frame) (reason : Byte) (addr retry : Nat) : State :=
  s.sendRefuse (.peer f.peer) f.request.toNat f.kind reason addr retry (s.sealedTo f.peer)

/-- WAIT to the sender of a frame (R351). -/
def State.waitFrame (s : State) (f : Frame) (retry : Nat) : State :=
  s.send (outFrame (.peer f.peer) Code.fWait f.request (s.sealedTo f.peer) (BitVec.ofNat 8 f.kind :: be 2 retry))

/-- The link tenant at a source node whose module sends a frame (R291, R361). -/
def State.linkTenant? (s : State) (node : Byte) : Option (TSlot × TenantDecl) :=
  match s.running.manifest with
  | some m => (m.tenants.find? (fun d => d.attach == .link && d.linkNode == node)).map (fun d => (d.slot, d))
  | none => none

/-! ### Times -/

/-- Forward to slot 0 of a lap counted from the start, S not counted (R427); no change when it has begun. -/
def Clock.toStartLap (c : Clock) (n : Nat) : Clock :=
  if c.startLap < n then (c.nextLap true).skipLaps (n - c.startLap - 1) true else c

/-- A boundary count reached in phase N; in S the fabric is asked to wake a lap before, so that it runs again at that boundary (R120,
R353). -/
def State.reach (s : State) (b : Nat) : State :=
  if s.power.phase = .s then (s.setClock (s.clock.toBoundary (b - 1) false)).askWake
  else s.setClock (s.clock.toBoundary b true)

end Sys2Proof.Machine
end

