-- ==== Sys2Proof/Machine/LinkSend.lean ====
section
/-!
DEFINITION. What the unit sends on the link: its identity in the group (R223, R351), BEACONs (R353), JOINs (R357, R366), the link-open
record (R240), the making of a frame and its counter (R348, R359).
-/
namespace Sys2Proof.Machine

/-! ### Identity in the group -/

/-- The `link` map of the manifest in force (R223). -/
def State.linkDecl? (s : State) : Option LinkDecl := s.running.manifest.bind (·.link)

/-- The units of `peers` (R223). -/
def State.peers (s : State) : List Bytes := match s.linkDecl? with | some l => l.peers | none => []

/-- The unit joins other units (R97). -/
def State.inGroup (s : State) : Bool := s.link.role == .member || s.link.role == .lead

/-- `group`, zero for a solo unit (R351). -/
def State.group (s : State) : Bytes :=
  if s.inGroup then (match s.linkDecl? with | some l => fit 8 0 l.group | none => zeros 8) else zeros 8

/-- A lead-eligible member (R97). -/
def State.leadEligible (s : State) : Bool := s.inGroup && (s.boot.cfg1 == 6 || s.boot.cfg1 == 7)

/-- `lead rank`, 0xFF when never-lead or solo (R351). -/
def State.leadRank (s : State) : Byte :=
  if s.leadEligible then (match s.linkDecl? with | some l => BitVec.ofNat 8 l.leadRank | none => 0xFF) else 0xFF

/-- A better candidate: a lower lead rank, or an equal one and a lower unit number (R241). -/
def State.better (s : State) (rank : Byte) (unit : Bytes) : Bool :=
  decide (rank.toNat < s.leadRank.toNat) || (rank == s.leadRank && decide (beNat unit < beNat s.unitNumber))

/-- A unit heard by its BEACON. -/
def State.heardUnit? (s : State) (u : Bytes) : Option HeardUnit := s.link.heard.find? (fun h => h.number == u)

/-- A unit heard, changed by a function. -/
def State.modHeard (s : State) (u : Bytes) (g : HeardUnit → HeardUnit) : State :=
  { s with link := { s.link with heard := s.link.heard.map (fun h => if h.number == u then g h else h) } }

/-! ### BEACON (R351, R353) -/

/-- The BEACON fields from `group` to the start key. -/
def State.beaconFields (s : State) : Bytes :=
  s.group ++ [s.leadRank, BitVec.ofNat 8 s.epoch] ++ be 4 s.boot.counter ++ fit 33 0 s.link.linkKey ++ fit 33 0 s.link.startKey

/-- The flags byte of a BEACON. -/
def State.beaconFlags (s : State) : Byte :=
  BitVec.ofNat 8 ((if s.link.role = .lead then 1 else 0) + (if s.inGroup then 2 else 0) + (if s.leadEligible then 4 else 0))

/-- What a BEACON signature covers: not the flags (R353). -/
def beaconSigned (unit fields : Bytes) : Bytes := ascii "BX4016 BEACON" ++ unit ++ fields

/-- The BEACON signed with the link key (R353). -/
def State.signBeacon (s : State) : State :=
  let (sig, s) := s.signHash (sha256 (beaconSigned s.unitNumber s.beaconFields))
  { s with link := { s.link with beaconSig := sig.1 } }

/-- A signature that the engine did not give is made again in its next interval (R396). -/
def State.resignBeacon (s : State) : State := if s.link.beaconSig = zeros 64 then s.signBeacon else s

/-- A BEACON queued to every node. -/
def State.sendBeacon (s : State) : State :=
  let s := s.resignBeacon
  s.send (outFrame .everyone Code.fBeacon 0 false (s.beaconFlags :: s.beaconFields ++ fit 64 0 s.link.beaconSig))

/-- A BEACON request queued to a unit (R351, R371). -/
def State.askBeacon (s : State) (u : Bytes) : State := s.send (outFrame (.peer (.unit u)) Code.fBeacon 0 false [])

/-- A member that has heard no BEACON yet asks every node for one (R365; log 191). -/
def State.firstContact (s : State) : State :=
  if s.link.role = .member ∧ !s.link.heardAny then s.send (outFrame .everyone Code.fBeacon 0 false []) else s

/-- A BEACON with LEAD answered within 4 laps (R241, R372). -/
def State.answerAsLead (s : State) : State := s.sendBeacon

/-! ### Join keys (R357) -/

/-- The transcript of a join. -/
def joinTranscript (responder : Bytes) (boot : Nat) (startKey joiner joinerKey nonce : Bytes) : Bytes :=
  responder ++ be 4 boot ++ startKey ++ joiner ++ joinerKey ++ nonce

/-- K: 32 bytes for the frames from the joiner, 32 for the frames from the responder. -/
def joinKeys (z transcript : Bytes) : Bytes := kmac z "BX4016 LINK" transcript 64

/-- The confirm field. -/
def joinConfirm (keys transcript : Bytes) : Bytes := (kmac (keys.take 32) "BX4016 JOIN" transcript 32).take 16

/-- A joiner's identity in the transcript. -/
def Peer.identity (p : Peer) : Bytes := match p with | .module n => [n] | .unit u => u

/-- The start private key (R353). -/
def State.startScalar (s : State) : Nat := beNat ((s.key? .start).getD [])

/-- A result of the Curve engine other than OK latches its event (R510). -/
def State.noteCurve (s : State) (r : CryptoResult) : State := s.latchIf (r != .ok) Ev.curveBad

/-! ### JOIN to a lead (R366) -/

/-- Whether a JOIN may go to a unit: its lead BEACON verified, no lead yet, no request waiting (R355, R366). -/
def State.mayJoin (s : State) (h : HeardUnit) : Bool :=
  s.link.beaconing && s.link.role == .member && s.link.lead.isNone && s.link.request.isNone && h.verified == some true && h.leadFlag &&
    h.group == s.group

/-- JOIN sent to a lead (R351, R357). -/
def State.joinUnit (s : State) (h : HeardUnit) : State :=
  if s.mayJoin h then
    let (nonce, s) := s.random 16
    let z := ecdh s.startScalar h.startKey
    let s := s.noteCurve z.2
    if z.2 = .ok then
      let t := joinTranscript h.number h.boot h.startKey s.unitNumber s.link.startKey nonce
      let payload := be 4 h.boot ++ be 4 s.boot.counter ++ nonce ++ joinConfirm (joinKeys z.1 t) t
      { s with link := { s.link with joinNonce := nonce } }.ask (.peer (.unit h.number)) Code.fJoin false payload
    else s
  else s

/-- JOIN sent to a unit by its number. -/
def State.joinLead (s : State) (u : Bytes) : State := match s.heardUnit? u with | some h => s.joinUnit h | none => s

/-! ### The link-open record (R240) -/

/-- LINK_OPEN, once in a start (R240, R468). -/
def State.recordLinkOpen (s : State) : State :=
  if s.link.openRecorded then s
  else
    let body := [BitVec.ofNat 8 s.link.role.code] ++ be 2 (s.link.counts.toList.getD 4 0) ++ fit 16 0 (s.link.lead.getD []) ++ [0]
    { s with link := { s.link with openRecorded := true } }.record Code.linkOpen 0xFF body

/-! ### Frames made (R348, R359) -/

/-- The bytes of a destination: node and unit (R348). -/
def Dest.node (d : Dest) : Byte := match d with | .everyone => 0xFF | .peer (.module n) => n | .peer (.unit _) => 0
def Dest.unitBytes (d : Dest) : Bytes := match d with | .peer (.unit u) => u | _ => []

/-- The session a frame goes under, none when it goes unsealed or none is held. -/
def State.sendSession? (s : State) (o : OutFrame) : Option Session :=
  match o.dest with
  | .peer p => if o.sealed then s.session? p else none
  | .everyone => none

/-- Whether a queued frame can go out: a sealed one needs its session (R350, R360). -/
def State.sendable (s : State) (o : OutFrame) : Bool := !o.sealed || (s.sendSession? o).isSome

/-- TIME as it goes out: the lead's time at the SOF edge (R374). -/
def State.timePayload (s : State) : Bytes := s.timeField ++ [(byteAt s.timeField 0) >>> 7, 0]

/-- The next counter on a session: ADMIT uses 0 (R359). -/
def nextCounter (o : OutFrame) (x : Session) : Nat := if o.kind = Code.fAdmit then 0 else x.sent + 1

/-- A frame as it goes on the wire under a counter (R348, R359). -/
def State.wire (s : State) (o : OutFrame) (x : Option Session) (counter : Nat) : Frame :=
  let payload := if o.kind = Code.fTime then s.timePayload else o.payload
  let flags : Byte := BitVec.ofNat 8 ((if x.isSome then 1 else 0) + (if o.rep then 2 else 0))
  let f : Frame :=
    { priority := kindPriority o.kind, srcNode := 0, kind := o.kind, srcUnit := s.unitNumber, flags := flags, dstNode := o.dest.node
      dstUnit := o.dest.unitBytes, request := o.request, counter := BitVec.ofNat 32 counter, payload := payload, check := [] }
  match x with
  | some y =>
    let c := gcmSeal y.fromUs (sealNonce y.ident y.joiner counter) f.head payload
    { f with payload := c.1, check := c.2.take 8 }
  | none => { f with check := be 2 (crc16 (f.head ++ payload)).toNat }

end Sys2Proof.Machine
end

