-- ==== Sys2Proof/Machine/LinkCmd.lean ====
section
/-!
DEFINITION. Meanings of the link commands that every role shares: opening (R237, R353), pacing (R353), the link-open record (R240), frames
sent (R344–R347, R359), errors and idle (R346), replies to the unit's own requests (R239, R337, R365), BEACON requests (R238, R353),
frames that no unit may send (R387). A command whose condition does not hold leaves the state as it is (log 14).
-/
namespace Sys2Proof.Machine

/-- LINK_OPEN (R237, R353): slot 0 of lap 3; the start key is drawn and the BEACON signed. -/
def execLinkOpen (s : State) : Out :=
  .next (if s.awake ∧ !s.link.opened ∧ s.link.role ≠ .off then
    let (v, s) := (s.setClock (s.clock.toStartLap 3)).random 48
    let d := scalarOf v
    let s := s.putKey .start (be 32 d)
    let s := { s with pads := { s.pads with lnk := .function }
                      link := { s.link with opened := true, idleSeen := false, startKey := publicKey d } }
    s.signBeacon
  else s)

/-- The cold window opened at a boundary (R241, R242, R370). -/
def State.openCold (s : State) (b : Nat) : State := { s with link := { s.link with cold := some (b, false, b) } }

/-- A lead of the group that was heard, by its BEACON's flag. -/
def State.leadHeard? (s : State) : Option HeardUnit := s.link.heard.find? (fun h => h.leadFlag && h.group == s.group)

/-- FIRST_BEACON (R237, R241): slot 0 of lap 35. A member that heard a lead joins it; another opens its cold window. -/
def execFirstBeacon (s : State) : Out :=
  .next (if s.awake ∧ s.link.opened ∧ !s.link.beaconing then
    let s := s.setClock (s.clock.toStartLap 35)
    let s := { s with link := { s.link with beaconing := true, lastBeacon := s.clock.boundaries, lastLead := s.clock.boundaries } }.sendBeacon.firstContact
    if s.link.role = .member then
      match s.leadHeard? with
      | some h => s.joinUnit h
      | none => s.openCold s.clock.boundaries
    else s
  else s)

/-- The units that hold a session with this one. -/
def State.unitSessions (s : State) : List Bytes := s.sessions.filterMap (fun x => match x.peer with | .unit u => some u | .module _ => none)

/-- The boundary count at which the next periodic BEACON is due (R237, R353). -/
def State.beaconDue (s : State) : Nat :=
  let soon := s.link.lastBeacon + 16
  let lapThen := s.clock.startLap + (soon - s.clock.boundaries)
  if s.link.longPace ∨ 1024 ≤ lapThen then s.link.lastBeacon + 8192 else soon

/-- BEACON_PERIOD (R237, R353, R374): a unit in S wakes first. -/
def execBeaconPeriod (s : State) : Out :=
  .next (if s.link.beaconing ∧ s.power.phase = .s then s.reach s.beaconDue
  else if s.link.beaconing ∧ s.awake then
    let s := (s.reach s.beaconDue).sendBeacon.firstContact
    let due := if s.link.role = .lead then s.unitSessions else s.link.timeDue
    { s with link := { s.link with lastBeacon := s.clock.boundaries, timeDue := due } }
  else s)

/-- LINK_OPEN_RECORD_DEADLINE (R240). -/
def execLinkOpenRecordDeadline (s : State) : Out :=
  .next (if s.awake ∧ s.link.opened ∧ !s.link.openRecorded then (s.setClock (s.clock.toStartLap 1024)).recordLinkOpen else s)

/-! ### Frames sent -/

/-- Whether a queued frame may go: the ADMIT of its session goes before every other sealed frame (R358). -/
def mayGo (q : List OutFrame) (f : OutFrame) : Bool :=
  !f.sealed || f.kind == Code.fAdmit || !q.any (fun a => a.kind == Code.fAdmit && a.dest == f.dest)

/-- The queued frame that goes next: the lowest priority value, then the oldest (R349, R350); and the rest. -/
def nextFrame? (q : List OutFrame) : Option (OutFrame × List OutFrame) :=
  let m := (q.filter (mayGo q)).foldl (fun a f => min a (kindPriority f.kind)) 16
  match q.findIdx? (fun f => mayGo q f && kindPriority f.kind == m) with
  | some i => (q[i]?).map (fun f => (f, q.eraseIdx i))
  | none => none

/-- The queue of frames replaced. -/
def State.setOutbox (s : State) (q : List OutFrame) : State := { s with link := { s.link with outbox := q } }

/-- The last counter used on a frame's session (R359). -/
def State.useCounter (s : State) (o : OutFrame) (x : Option Session) (n : Nat) : State :=
  match x with
  | some y => if o.kind = Code.fAdmit then s else s.modSession y.peer (fun z => { z with sent := n })
  | none => s

/-- Whether a frame is the unit's request that waits for its reply. -/
def OutRequest.isFrame (r : OutRequest) (o : OutFrame) : Bool := r.frame.kind == o.kind && r.frame.request == o.request && r.frame.dest == o.dest

/-- The last bit of a frame has gone: LDIR rose at its SOF and fell at its end (R343), and a request's wait begins (R365). -/
def State.noteSent (s : State) (o : OutFrame) (f : Frame) : State :=
  let request := s.link.request.map (fun r => if r.isFrame o then { r with sentAt := some (s.clock.boundaries, s.clock.slot) } else r)
  { s with link := { s.link with lastSent := some f, ldir := if s.servesLdir then [true, false] else [], request := request } }.latch Ev.frameSent

/-- A frame that went out whole; LEAVE ends the session (R359, R360). -/
def State.frameOut (s : State) (o : OutFrame) (x : Option Session) (n : Nat) : State :=
  let s := (s.useCounter o x n).noteSent o (s.wire o x n)
  match x with
  | some y => if o.kind = Code.fLeave then s.endSession y.peer else s
  | none => s

/-- LEAVE in place of a frame whose counter would pass its end; its own counter is free (R359, log 2). -/
def State.counterSpent (s : State) (y : Session) : State :=
  let (b, s) := s.freeBytes 4
  let o := outFrame (.peer y.peer) Code.fLeave 0 true [0x01]
  (s.noteSent o (s.wire o (some y) (beNat b))).endSession y.peer

/-- A frame tried without success: sent at most four times (R347). -/
def State.frameFailed (s : State) (o : OutFrame) (rest : List OutFrame) : State :=
  if o.tries + 1 < 4 then s.setOutbox ({ o with tries := o.tries + 1 } :: rest)
  else (s.setOutbox rest).latch Ev.frameDropped

/-- How an attempt ends: on a transceiver segment a sender reads no bit of its own back, so a mismatch goes unseen (R343). -/
def State.seenOutcome (s : State) (outcome : TxOutcome) : TxOutcome :=
  if s.servesLdir ∧ outcome = .mismatch then .sent else outcome

/-- One transmission of a frame. On a transceiver segment a lost arbitration is another sender's SOF seen before the own start bit: the
frame waits for the next idle, untried (R344). -/
def State.transmit (s : State) (o : OutFrame) (rest : List OutFrame) (outcome : TxOutcome) : State :=
  let x := s.sendSession? o
  let n := match x with | some y => nextCounter o y | none => 0
  if s.servesLdir ∧ outcome = .arbitrationLost then s
  else match s.seenOutcome outcome, x with
  | .arbitrationLost, _ => (s.latch Ev.arbitrationLost).frameFailed o rest
  | .sent, some y => if 0xFFFFFFFF < n then (s.setOutbox rest).counterSpent y else (s.setOutbox rest).frameOut o x n
  | .sent, none => (s.setOutbox rest).frameOut o x n
  | .mismatch, _ =>
    let s := (s.useCounter o x n).frameFailed o rest
    { s with link := { s.link with idleSeen := false } }

/-- FRAME_TRANSMIT (R346, R347, R359): nothing is sent in the listen span or before an idle. -/
def execFrameTransmit (outcome : TxOutcome) (s : State) : Out :=
  .next (if s.awake ∧ s.link.opened ∧ s.link.beaconing ∧ s.link.idleSeen then
    let q := s.link.outbox.filter s.sendable
    match nextFrame? q with
    | some (o, rest) => (s.toStart 5).transmit o rest outcome
    | none => s.setOutbox q
  else s)

/-- LINK_RECEIVE_ERROR (R346, R352). -/
def execLinkReceiveError (s : State) : Out :=
  .next (if s.power.phase = .s then s.lnkEdge
  else if s.canHear then
    s.drop dropForm
  else s)

/-- BUS_IDLE (R346). -/
def execBusIdle (s : State) : Out :=
  .next (if s.awake ∧ s.link.opened then { s.latch Ev.busIdle with link := { s.link with idleSeen := true } } else s)

/-! ### Replies to the unit's own requests (R239, R337, R365) -/

/-- The unit's request that a reply of a kind answers. -/
def State.requestOf? (s : State) (f : Frame) (kind : Nat) : Option OutRequest :=
  match s.link.request with
  | some r => if r.frame.dest = .peer f.peer ∧ r.frame.request = f.request ∧ r.frame.kind = kind then some r else none
  | none => none

/-- The waiting request replaced. -/
def State.setRequest (s : State) (r : Option OutRequest) : State := { s with link := { s.link with request := r } }

/-- The waiting request given up for a refusal: a parcel fragment aborts the export (R433). -/
def State.requestRefused (s : State) (r : OutRequest) (reason : Byte) : State :=
  let s := s.setRequest none
  if r.frame.kind = Code.fParcel ∧ byteAt r.frame.payload 0 = 0x01 then s.abortExport reason else s

/-- WAIT (R239, R337). -/
def execWaitFrame (f : Frame) (s : State) : Out :=
  .next (s.frame f Code.fWait (fun _ => true) (fun s p =>
    match s.requestOf? f (byteAt p 0).toNat with
    | some r => s.setRequest (some { r with retryAt := some (s.clock.boundaries + field p 1 2) })
    | none => s))

/-- REFUSE (R239, R351, R433): with a retry-after the request waits, without one it ends. -/
def execRefuseFrame (f : Frame) (s : State) : Out :=
  .next (s.frame f Code.fRefuse (fun _ => true) (fun s p =>
    match s.requestOf? f (byteAt p 1).toNat with
    | some r =>
      if field p 5 2 = 0 then s.requestRefused r (byteAt p 0)
      else s.setRequest (some { r with retryAt := some (s.clock.boundaries + field p 5 2) })
    | none => s))

/-- A request queued again with REPEAT set (R348, R365). -/
def State.repeatRequest (s : State) (r : OutRequest) (n : Nat) : State :=
  let f := { r.frame with rep := true, tries := 0 }
  (s.send f).setRequest (some ⟨f, n, none, none⟩)

/-- Whether a request still waits to be sent. -/
def State.unsent (s : State) (r : OutRequest) : Bool := s.link.outbox.any (fun o => o.kind == r.frame.kind && o.request == r.frame.request)

/-- 2.048 ms, two laps, after the last bit of a request (R9, R365); in S the fabric is asked to wake for it. -/
def State.afterReply (s : State) (sent : Nat × Nat) : State :=
  let s := s.reach (sent.1 + 2)
  if s.awake ∧ s.clock.boundaries = sent.1 + 2 then s.setClock (s.clock.toSlot sent.2) else s

/-- A request without an answer repeated, at most three times, and then given up (R365, R433). -/
def State.repeatOrGiveUp (s : State) (r : OutRequest) : State :=
  if r.repeats < 3 then s.repeatRequest r (r.repeats + 1)
  else if r.frame.kind = Code.fParcel ∧ byteAt r.frame.payload 0 = 0x01 then (s.setRequest none).abortExportFree
  else s.setRequest none

/-- REQUEST_REPEAT_TIMEOUT (R365, R433; log 84). -/
def execRequestRepeatTimeout (s : State) : Out :=
  .next (match s.link.request with
    | some r =>
      match r.retryAt, r.sentAt with
      | none, some sent =>
        let t := s.afterReply sent
        if s.unsent r then s else if s.power.phase = .s then t else if s.awake then t.repeatOrGiveUp r else s
      | _, _ => s
    | none => s)

/-- RETRY_AFTER_EXPIRY (R239, R337). -/
def execRetryAfterExpiry (s : State) : Out :=
  .next (match s.link.request with
    | some r =>
      match r.retryAt with
      | some b =>
        if s.power.phase = .s then s.reach b
        else if s.awake then (s.reach b).repeatRequest r r.repeats
        else s
      | none => s
    | none => s)

/-! ### BEACON requests, frames that ask for nothing -/

/-- BEACON_REQUEST (R238, R352, R353): at most one answer in any 4 laps. -/
def execBeaconRequest (f : Frame) (s : State) : Out :=
  .next (s.frame f Code.fBeacon (fun p => p.isEmpty) (fun s _ =>
    let s := s.latch Ev.beacon
    let soon := match s.link.lastAnswer with | some b => decide (s.clock.boundaries < b + 4) | none => false
    if soon then s else { s with link := { s.link with lastAnswer := some s.clock.boundaries } }.sendBeacon))

/-- NOTICE_FRAME_RECEIVED (R387). -/
def execNoticeFrame (f : Frame) (s : State) : Out :=
  .next (s.frame f Code.fNotice (fun _ => true) (fun s _ => s.refuseFrame f Code.policy 0xFFFFFF 0))

/-- DATA_FRAME_RECEIVED (R352, R387): the drop checks; the unit asks for no data, so nothing more. -/
def execDataFrame (f : Frame) (s : State) : Out := .next (s.frame f Code.fData (fun _ => true) (fun s _ => s))

end Sys2Proof.Machine
end

