-- ==== Sys2Proof/Machine/JoinCmd.lean ====
section
/-!
DEFINITION. Meanings of the joins: JOIN (R356), JOIN_ADMIT (R239, R357, R358), ADMIT (R357–R360, R366).
-/
namespace Sys2Proof.Machine

/-! ### JOIN (R356) -/

/-- How a JOIN is answered: refused with a reason and a retry-after, or none of the refusals. -/
abbrev JoinBar := Option (Byte × Nat)

/-- The rows of R356 for a tenant module. -/
def State.moduleBar (s : State) (node : Byte) (boot : Nat) : JoinBar :=
  match s.linkTenant? node with
  | none => some (Code.policy, 0)
  | some (t, _) =>
    let x := s.tenant t
    if x.life ≠ .released ∧ x.life ≠ .degraded ∨ boot ≠ s.boot.counter then some (Code.notReady, 16)
    else if x.frozen then some (Code.frozen, 0)
    else none

/-- The units of the group that hold a place: this one and those in session, the joiner aside (R338). -/
def State.placesTaken (s : State) (joiner : Bytes) : Nat := 1 + (s.unitSessions.filter (fun u => u != joiner)).length

/-- The rows of R356 for a unit; a member that is no lead admits none (R366). -/
def State.unitBar (s : State) (u : Bytes) (boot joinerBoot : Nat) : JoinBar :=
  if s.link.role ≠ .lead ∨ !s.peers.contains u then some (Code.policy, 0)
  else match s.heardUnit? u with
    | none => some (Code.notReady, 8)
    | some h =>
      if h.group ≠ s.group then some (Code.policy, 0)
      else if h.verified ≠ some true ∨ h.boot ≠ joinerBoot then some (Code.notReady, 8)
      else if boot ≠ s.boot.counter then some (Code.notReady, 16)
      else if 16 ≤ s.placesTaken u then some (Code.full, 4096)
      else none

/-- The refusal of a JOIN by its joiner. -/
def State.joinBar (s : State) (p : Peer) (payload : Bytes) : JoinBar :=
  match p with
  | .module n => s.moduleBar n (field payload 0 4)
  | .unit u => s.unitBar u (field payload 0 4) (field payload 4 4)

/-- A pending JOIN read from its payload (R351). -/
def pendingJoin (f : Frame) (p : Bytes) (now : Nat) : PendingJoin :=
  if f.srcNode = 0 then
    { peer := f.peer, request := f.request, joinerBoot := field p 4 4, key := [], nonce := slice p 8 16, confirm := slice p 24 16, arrival := now }
  else { peer := f.peer, request := f.request, joinerBoot := 0, key := slice p 4 33, nonce := slice p 37 16, confirm := slice p 53 16, arrival := now }

/-- A JOIN that passed the drop checks (R239, R356). -/
def State.takeJoin (s : State) (f : Frame) (p : Bytes) : State :=
  let s := s.latch Ev.join
  match s.joinBar f.peer p with
  | some (reason, retry) => s.refuseFrame f reason 0xFFFFFF retry
  | none =>
    if s.link.joins.any (fun j => j.peer == f.peer && j.request == f.request) then s
    else if 4 ≤ s.link.joins.length then s.waitFrame f 12
    else { s with link := { s.link with joins := s.link.joins ++ [pendingJoin f p s.clock.boundaries] } }

/-- JOIN (R356). -/
def execJoin (f : Frame) (s : State) : Out :=
  .next (s.frame f Code.fJoin (fun _ => true) (fun s p => if f.dstNode = 0 then s.takeJoin f p else s))

/-! ### JOIN_ADMIT (R239, R357) -/

/-- The joiner's key and Z with the results of the Curve engine (R357). -/
def State.joinSecret (s : State) (j : PendingJoin) : Option (Bytes × Bytes × CryptoResult) :=
  let u := s.startScalar
  match j.peer with
  | .module n => (s.linkTenant? n).map (fun d =>
      let a := ecdh u j.key
      let b := ecdh u d.2.linkKey
      (j.key, a.1 ++ b.1, if a.2 = .ok then b.2 else a.2))
  | .unit x => match s.heardUnit? x with
    | some h => if h.verified = some true ∧ h.boot = j.joinerBoot then
        let a := ecdh u h.startKey
        some (h.startKey, a.1, a.2)
      else none
    | none => none

/-- The session of a joiner put in the table and ADMIT queued under it (R358–R360). -/
def State.admitJoin (s : State) (j : PendingJoin) (keys : Bytes) : State :=
  let (ident, s) := s.random 4
  let b := s.clock.boundaries
  let s := s.endSession j.peer
  let s := s.putSession
    { peer := j.peer, ident := ident, toUs := keys.take 32, fromUs := keys.drop 32, joiner := false, sent := 0, heard := none, boot := j.joinerBoot
      bornAt := b, lastFrame := b }
  let payload := ident ++ [if s.link.role = .lead then 1 else 0] ++ j.nonce
  let s := s.send (outFrame (.peer j.peer) Code.fAdmit j.request true payload)
  match j.peer with
  | .unit u =>
    { s with link := { s.link with
        timeDue := s.link.timeDue.filter (fun x => x != u) ++ [u], lostMembers := s.link.lostMembers.filter (fun x => x.1 != u), crossJoins := s.link.crossJoins.filter (fun x => x.1 != u) ++ [(u, b)] } }
  | .module _ => s

/-- The oldest pending join decided: ADMIT, or REFUSE with SPOOF at the same slot (R357). -/
def State.decideJoin (s : State) (j : PendingJoin) : State :=
  let dest := Dest.peer j.peer
  let spoof := fun (st : State) => st.sendRefuse dest j.request.toNat Code.fJoin Code.spoof 0xFFFFFF 0 (st.sealedTo j.peer)
  match s.joinSecret j with
  | none => spoof s
  | some (key, z, r) =>
    let t := joinTranscript s.unitNumber s.boot.counter s.link.startKey j.peer.identity key j.nonce
    let keys := joinKeys z t
    if r ≠ .ok then spoof (s.noteCurve r)
    else if joinConfirm keys t = j.confirm then s.admitJoin j keys
    else spoof (s.latch Ev.confirmMismatch)

/-- JOIN_ADMIT (R239): slot 0 of the third lap after the previous ADMIT, or after the arrival if that is later. -/
def execJoinAdmit (s : State) : Out :=
  .next (match s.awake && s.link.beaconing, s.link.joins with
    | true, j :: rest =>
      let due := match s.link.lastJoin with | some b => max (b + 3) (j.arrival + 3) | none => j.arrival + 3
      let s := s.reach due
      { s with link := { s.link with joins := rest, lastJoin := some s.clock.boundaries } }.decideJoin j
    | _, _ => s)

/-! ### ADMIT at the joiner (R357–R359) -/

/-- The lead that the unit's waiting JOIN went to, when the frame answers it. -/
def State.joinedUnit? (s : State) (f : Frame) : Option HeardUnit :=
  match s.requestOf? f Code.fJoin, f.peer with
  | some _, .unit u => s.heardUnit? u
  | _, _ => none

/-- The session that an ADMIT opens, with its payload; none when the tag, the identifier or the nonce does not match (R358, R359). -/
def State.openAdmit (s : State) (f : Frame) (h : HeardUnit) (ident : Word32) : Option Session :=
  let z := ecdh s.startScalar h.startKey
  let t := joinTranscript h.number h.boot h.startKey s.unitNumber s.link.startKey s.link.joinNonce
  let keys := joinKeys z.1 t
  let id := be 4 ident.toNat
  match gcmOpen (keys.drop 32) (sealNonce id false f.counter.toNat) f.head f.payload f.check with
  | some p =>
    if f.counter = 0 ∧ p.take 4 = id ∧ slice p 5 16 = s.link.joinNonce ∧ contentOk Code.fAdmit p then
      some { peer := .unit h.number, ident := id, toUs := keys.drop 32, fromUs := keys.take 32, joiner := true, sent := 0, heard := some 0
             boot := h.boot, bornAt := s.clock.boundaries, lastFrame := s.clock.boundaries }
    else none
  | none => none

/-- A unit that has joined its lead (R240, R241, R366, R379). -/
def State.joined (s : State) (x : Session) (h : HeardUnit) : State :=
  let b := s.clock.boundaries
  let s := (s.setRequest none).putSession x
  { s with link := { s.link with
      lead := some h.number, cold := none, foreign := none, former := none, lastLead := h.leadHeard, leadBoot := h.boot
      crossJoins := [(h.number, b)] } }.recordLinkOpen

/-- The rows of R352 for an ADMIT: one that answers the unit's JOIN opens its session, any other needs one. -/
def State.checkAdmit (s : State) (f : Frame) (ident : Word32) : State :=
  if !f.formOk ∨ !f.isSealed then (s.checkFrame f).1
  else match s.joinedUnit? f with
    | none => (s.checkFrame f).1
    | some h =>
      match s.openAdmit f h ident with
      | some x => s.joined x h
      | none => s.drop dropCheck

/-- ADMIT (R358). -/
def execAdmitFrame (f : Frame) (session : Word32) (s : State) : Out :=
  .next (if f.kind = Code.fAdmit then (s.hear f (fun x => (x.checkAdmit f session, none))).1 else s)

end Sys2Proof.Machine
end

