-- ==== Sys2Proof/Machine/PortOps.lean ====
section
/-!
DEFINITION. The port front ends: what a port serves (R236, R272, R275–R278, R414, R475), reads through the Den, the cache and the fault
page (R273, R274, R299, R306, R316), programs and erases taken (R275, R285, R314), filtered opcodes (R276), SFDP (R284).
-/
namespace Sys2Proof.Machine

/-! ### What a port serves -/

/-- The tenant that a port serves now: released or degraded, not in a restart, in N or in S (R117, R272, R419). -/
def State.servedOn (s : State) (p : Port) : Option (TSlot × TenantDecl) :=
  if s.power.portOn ∧ (s.power.phase = .n ∨ s.power.phase = .s) then
    match (s.port p).mode with
    | .tenant t =>
      let x := s.tenant t
      if (x.life == .released || x.life == .degraded) && !x.restarting then (s.decl? t).map (fun d => (t, d)) else none
    | _ => none
  else none

/-- A lane event latched with its source of R511; in S it wakes the fabric (R121). -/
def State.report (s : State) (t : TSlot) (e : LaneEvent) (source : Option Nat) : State :=
  let s := s.modTenant t (fun x => { x with events := x.events ++ [e] })
  let s := match source with
    | some k => s.latch (Ev.tenant t.val k)
    | none => s
  s.askWake

/-- The bytes that a front end drove in a command. -/
def State.drive (s : State) (p : Port) (bs : Bytes) : State := s.modPort p (fun x => { x with out := bs })

/-- What a command finds at its port. -/
inductive PortView where
  | silent
  | intake
  | readout
  | tenant (t : TSlot) (d : TenantDecl)
deriving DecidableEq, Repr

/-- Port A serves the sequential intake: while the ROM tries PA, in a run under a recovery schedule, and for a held port-A tenant whose
`source` is PORTA (R191, R196, R209, R414). -/
def State.servesIntake (s : State) (p : Port) : Bool :=
  p == .a && ((s.port .a).mode == .intake || (s.isRunning && s.power.phase == .n &&
    (s.recoveryRun || match s.portTenant .a with
     | some t => (s.tenant t).life == .held && !(s.tenant t).restarting && s.recoverySource? t == some .portA
     | none => false)))

/-- What answers a command at a port: nothing else does (R72, R272). -/
def State.view (s : State) (p : Port) : PortView :=
  if s.servesIntake p then .intake
  else match (s.port p).mode with
    | .readout => .readout
    | .tenant _ => match s.servedOn p with | some (t, d) => .tenant t d | none => .silent
    | _ => .silent

/-- The fall of HACS# seen by the ROM while it tries PA (R187). -/
def State.hearFall (s : State) (p : Port) : State :=
  if p = .a ∧ s.portA.mode = .intake then { s with boot := { s.boot with heard := true } } else s

/-- The start of a command at a port: only 66h keeps 99h armed (R278), and nothing is driven yet. -/
def State.beginCommand (s : State) (p : Port) : State := (s.hearFall p).modPort p (fun x => { x with resetArmed := false, out := [] })

/-- Whether a port takes commands other than those R277 lists, and is not in deep power-down (R277, R278). -/
def PortSt.takes (x : PortSt) : Bool := !x.wip && !x.deepDown

/-! ### Filtered opcodes (R276) -/

/-- A filtered opcode: no output, no effect, a report to the lane. -/
def State.filter (s : State) (p : Port) (t : TSlot) (opcode : Byte) (addr : Option (BitVec 24)) : State :=
  if (s.port p).takes then
    s.report t (.filtered opcode (match addr with | some a => a.setWidth 32 | none => 0xFFFFFFFF)) (some 4)
  else s

/-- The bits at the given places of an address and of the mode bits, as one line carries them (R275, R276). -/
def lineBits (a : Nat) (places : List Nat) : Nat := places.foldl (fun acc i => 2 * acc + (if a.testBit i then 1 else 0)) 0

/-- The three bytes on IO0 after a filtered BBh: address and mode bits, then 8 open bits; none when chip select rises before them. -/
def State.dualIoBytes (s : State) (addr : BitVec 24) (mode : Byte) (count : Nat) : Option (BitVec 24) × State :=
  if count = 0 then (none, s)
  else
    let (n, s) := s.freeBelow 256
    let a := lineBits addr.toNat ((List.range 12).map (fun i => 22 - 2 * i))
    let m := lineBits mode.toNat [6, 4, 2, 0]
    (some (BitVec.ofNat 24 (a * 4096 + m * 256 + n)), s)

/-- The three bytes on IO0 after a filtered EBh: address and mode bits, then 16 open bits. -/
def State.quadIoBytes (s : State) (addr : BitVec 24) (mode : Byte) (count : Nat) : Option (BitVec 24) × State :=
  if count < 6 then (none, s)
  else
    let (n, s) := s.freeBelow 65536
    let a := lineBits addr.toNat ((List.range 6).map (fun i => 20 - 4 * i))
    let m := lineBits mode.toNat [4, 0]
    (some (BitVec.ofNat 24 (a * 262144 + m * 65536 + n)), s)

/-! ### Reads at a port -/

/-- A tenant's read: the bytes driven and the reports of the command, in the order tampered, refused, missed. -/
def State.tenantRead (s : State) (p : Port) (t : TSlot) (d : TenantDecl) (opcode : Byte) (a n : Nat) : State :=
  let w := s.walkRead t d (s.port p).wip (n / 1024 + 2) a n ⟨[], none, none, none, none⟩
  let s := s.drive p w.out
  let s := match w.tampered with | some x => s.report t (.tampered x) none | none => s
  let s := match w.spoof with | some x => s.report t (.spoof opcode x) none | none => s
  let s := match w.denied with | some x => s.report t (.denied opcode x) none | none => s
  match w.missed with | some x => s.report t (.miss opcode x) (some 0) | none => s

/-- A read at the sequential intake: the header as the unit last wrote it; any other byte is free (R414, log 2). -/
def State.intakeRead (s : State) (p : Port) (a n : Nat) : State :=
  let (fill, s) := s.freeBytes n
  let byte := fun (i : Nat) =>
    let x := addrAt a i
    if x < s.update.intakeHeader.length then byteAt s.update.intakeHeader x else byteAt fill i
  s.drive p ((List.range n).map byte)

/-- A byte that the readout serves, none where R475 names no content. -/
def State.readoutByte (s : State) (a : Nat) : Option Byte :=
  if a < 0x10000 then some (byteAt (s.vaultBytes a 1) 0)
  else if a < 0x10000 + s.statements.readout.length then some (byteAt s.statements.readout (a - 0x10000))
  else if 0x100000 ≤ a ∧ a / 4096 - 256 < usableSectors (s.sectorsOf 0) (s.sectorsOf 1) then
    some (byteAt (s.sectorBytes (s.usableRef (a / 4096 - 256)) (a % 4096) 1) 0)
  else none

/-- A read in the readout start; a byte where R475 names no content is free (log 2). -/
def State.readoutRead (s : State) (p : Port) (a n : Nat) : State :=
  let (fill, s) := s.freeBytes n
  s.drive p ((List.range n).map (fun i => (s.readoutByte (addrAt a i)).getD (byteAt fill i)))

/-! ### Programs and erases (R275, R285, R314) -/

/-- A program or erase of a tenant taken with WIP set (R314); a program of a porch page goes to the lane (R285). -/
def State.takeWrite (s : State) (p : Port) (t : TSlot) (d : TenantDecl) (opcode : Byte) (op : WriteOp) : State :=
  let s := s.modPort p (fun x => { x with wip := true })
  match op with
  | .program a data =>
    let r := d.region a
    if r.isPage ∧ (s.tenant t).life = .released then
      let bytes := pageWrites a data
      let covers := bytes.any (fun b => b.1 == d.pageStart r)
      s.report t (.porchProgram a bytes) (some (if covers then 2 else 1))
    else
      ((s.modTenant t (fun x => { x with write := some ⟨op, s.clock.boundaries, false, opcode, none⟩ })).latch (Ev.tenant t.val 1)).askWake
  | _ =>
    ((s.modTenant t (fun x => { x with write := some ⟨op, s.clock.boundaries, false, opcode, none⟩ })).latch (Ev.tenant t.val 1)).askWake

/-- Whether WEL is set and chip select rises on a byte boundary (R275). -/
def PortSt.mayWrite (x : PortSt) (onByte : Bool) : Bool := x.takes && x.wel && onByte

/-! ### SFDP (R284) -/

/-- The sixteen DWORDs of a tenant's basic table (R284, JESD216B). -/
def sfdpDwords (x : Tenant) (d : TenantDecl) : List Nat :=
  let has := fun (g : Group) => x.hasGroup g
  let on := fun (g : Group) (n : Nat) => if has g then n else 0
  [ (if has .erase4k then 1 + 0x2000 else 3 + 0xFF00) + 4 + 0xE0 + on .dual (2 ^ 16 + 2 ^ 20) + on .quad (2 ^ 21 + 2 ^ 22) + 0x1FF * 2 ^ 23,
    524288 * d.partition - 1,
    on .quad (4 + 2 * 32 + 0xEB * 256 + 8 * 65536 + 0x6B * 2 ^ 24),
    on .dual (8 + 0x3B * 256 + 4 * 65536 + 4 * 2 ^ 21 + 0xBB * 2 ^ 24),
    0xFFFFFFEE, 0x0000FFFF, 0x0000FFFF,
    (if has .erase4k then 0x200C else 0xFF00) + (if has .erase64k then 0xD810 * 65536 else 0xFF00 * 65536),
    0xFF00FF00,
    15 + 1 * 16 + 3 * 2 ^ 11,
    (if d.writeMode = .synchronous then 15 + 31 * 256 + 2 ^ 13 else 7 + 7 * 256) + 8 * 16 + 2 ^ 31,
    2 ^ 31, 0,
    (if has .powerDown then 0xB9 * 2 ^ 23 + 0xAB * 2 ^ 15 + 2 ^ 13 else 2 ^ 31) + 0x0F,
    0xFF000000, 0x1080 ]

/-- A tenant's SFDP space up to 0x70; every byte beyond reads 0xFF (R284). -/
def sfdpBytes (x : Tenant) (d : TenantDecl) : Bytes :=
  [0x53, 0x46, 0x44, 0x50, 0x06, 0x01, 0x00, 0xFF] ++ [0x00, 0x06, 0x01, 0x10, 0x30, 0x00, 0x00, 0xFF] ++ List.replicate 32 0xFF ++
    ((sfdpDwords x d).map (le 4)).flatten

/-- `n` bytes of SFDP from an address. -/
def sfdpRead (x : Tenant) (d : TenantDecl) (a n : Nat) : Bytes :=
  let t := sfdpBytes x d
  (List.range n).map (fun i => (t[addrAt a i]?).getD 0xFF)

/-! ### ID bytes (R275, R414, R475) -/

/-- The ID bytes that an intake at port A answers: those of the held tenant, or the ROM's (R414). -/
def State.intakeId (s : State) : Bytes :=
  match s.portTenant .a with
  | some t => match s.decl? t with | some d => d.idBytes | none => [0x42, 0x58, 0x00]
  | none => [0x42, 0x58, 0x00]

end Sys2Proof.Machine
end

