-- ==== Sys2Proof/Machine/Writes.lean ====
section
/-!
DEFINITION. Meanings of the write commands: acceptance (R314), the idle close of a posted buffer (R315), commits (R317), the release of
the commit monitor (R318).
-/
namespace Sys2Proof.Machine

/-- A write refused at its poll: WIP and WEL clear in the same publication (R314). -/
def State.refuseWrite (s : State) (t : TSlot) (w : PendingWrite) (reason : Byte) : State :=
  let s := s.modTenant t (fun x => { x with write := none })
  ((s.refuse t reason w.opcode w.op.addr 2).clearWip t).endWrite t (some w) reason

/-- A posted buffer open for a sector that a decided write does not touch closes, whatever the decision (R315). -/
def State.closeOther (s : State) (t : TSlot) (d : TenantDecl) (op : WriteOp) : State :=
  s.modTenant t (fun x => if op.covers (x.bounce.sector + d.denShare) then x else x.closeBuffer)

/-- The decision on a waiting write (R314, R315). -/
def State.decideAt (s : State) (t : TSlot) (d : TenantDecl) (w : PendingWrite) : State :=
  match s.decideWrite t d w.op with
  | .refuse reason => (s.closeOther t d w.op).refuseWrite t w reason
  | .wait => s.closeOther t d w.op
  | .accept =>
    match w.op with
    | .program a data => s.acceptProgram t d w a data
    | _ => s.acceptErase t d w

/-- WRITE_ACCEPTANCE (R314): the waiting program or erase of a tenant is decided at its lane poll. -/
def execWriteAcceptance (t : TSlot) (s : State) : Out :=
  .next (if s.awake ∧ ((s.tenant t).life = .released ∨ (s.tenant t).life = .degraded) then
    match s.decl? t, (s.tenant t).write with
    | some d, some w => ((s.decideAt t d w).modTenant t Tenant.liveBits).publish t
    | _, _ => s
  else s)

/-- BOUNCE_BUFFER_IDLE_CLOSE (R315): slot 0 of the fifth lap after the lap of the last merge. -/
def execBounceBufferIdleClose (t : TSlot) (s : State) : Out :=
  .next (if s.awake ∧ (s.tenant t).bounce.state = .opened then
    let s := s.setClock (s.clock.toBoundary ((s.tenant t).bounce.lastMerge + 5) true)
    s.modTenant t Tenant.closeBuffer
  else s)

/-- COMMIT_START (R317): the next closed buffer, erase or header write in lane rotation. -/
def execCommitStart (s : State) : Out :=
  .next (if s.awake ∧ s.commit.isNone ∧ s.commitClear then
    match s.commitTurn, s.running.manifest with
    | some t, some m => match s.decl? t with
      | some d => ((s.toStart 1).startCommit m t d).pump
      | none => s
    | _, _ => s
  else s)

/-- Erases suspended in the commit-low state go on (R123), but for the block erase of a wipe, which this start does not resume (R141). -/
def State.resumeErases (s : State) : State :=
  let go := fun (st : State) (c : Fin 2) => match st.flash.op[c] with
    | some x => if x.suspended && x.owner != .wipe then st.order c [(st.chip c).sfdp.suspendOps.2] else st
    | none => st
  let s := go (go s 0) 1
  { s with flash := { s.flash with op := s.flash.op.map (fun o => o.map (fun x => { x with suspended := x.owner == .wipe })) } }

/-- A commit that met the commit-low state resumes at C1, an erase at C4 (R318). -/
def State.resumeCommit (s : State) : State :=
  match s.commit with
  | some c => s.commitRestart c
  | none => s

/-- COMMIT_MONITOR_RELEASE (R112, R318). -/
def execCommitMonitorRelease (s : State) : Out :=
  .next (if s.inReset ∨ !s.power.commitLow then s
    else
      let s := { s with power := { s.power with commitLow := false } }.latch Ev.commitReleased
      if s.power.phase = .s then s else (s.resumeErases.resumeCommit).pump)

end Sys2Proof.Machine
end

