-- ==== Sys2Proof/Machine/LinkTenant.lean ====
section
/-!
DEFINITION. Meanings of the frames of link tenants: READ, WRITE, STATEMENT, ACK (R285, R287, R306, R314, R320, R337, R361), the repeat of a
NOTICE (R362), and what a unit may not send (R387). A frame that is not of the row's kind and form leaves the state as it is (log 14).
-/
namespace Sys2Proof.Machine

/-- What a frame of a module finds: its tenant, served or not (R272, R361). -/
inductive ClientView where
  | unit
  | unknown
  | notReady
  | tenant (t : TSlot) (d : TenantDecl)

/-- The sender of a frame that asks for a service. -/
def State.clientOf (s : State) (f : Frame) : ClientView :=
  match f.peer with
  | .unit _ => .unit
  | .module n => match s.linkTenant? n with
    | none => .unknown
    | some (t, d) =>
      let x := s.tenant t
      if (x.life = .released ∨ x.life = .degraded) ∧ !x.restarting then .tenant t d else .notReady

/-- Source 5 of a module's tenant latched (R511). -/
def State.noteClient (s : State) (f : Frame) : State :=
  match f.peer with
  | .module n => match s.linkTenant? n with
    | some (t, _) => s.latch (Ev.tenant t.val 5)
    | none => s
  | .unit _ => s

/-- A request of a module served; one of a unit refused with POLICY, one of a tenant not served with NOT_READY (R340, R356, R361, R387). -/
def State.serveClient (s : State) (f : Frame) (addr : Nat) (serve : State → TSlot → TenantDecl → State) : State :=
  let s := s.noteClient f
  match s.clientOf f with
  | .unit => s.refuseFrame f Code.policy addr 0
  | .unknown => s
  | .notReady => s.refuseFrame f Code.notReady addr 16
  | .tenant t d => serve s t d

/-- The kept request of a tenant that a repeated frame names (R337). -/
def State.keptRequest? (s : State) (t : TSlot) (f : Frame) : Option LinkRequest :=
  if f.isRepeat then (s.tenant t).linkReq.find? (fun r => r.request == f.request && r.kind == f.kind) else none

/-- A request of a tenant refused: in its flags and by REFUSE (R280, R291, R351). -/
def State.refuseClient (s : State) (t : TSlot) (f : Frame) (reason : Byte) (addr attempt : Nat) : State :=
  ((s.refuse t reason (BitVec.ofNat 8 f.kind) addr attempt).refuseFrame f reason addr 0).keepRequest t ⟨f.request, f.kind, addr, 1, some reason, false⟩

/-! ### READ (R306, R337, R361) -/

/-- A READ of a served tenant: a miss in the data region is told by WAIT, one that the next poll fills waits for its DATA (R337, R361). -/
def State.readClient (s : State) (t : TSlot) (d : TenantDecl) (f : Frame) (addr n : Nat) : State :=
  let w := s.walkRead t d false (n / 1024 + 2) addr n ⟨[], none, none, none, none⟩
  let code := BitVec.ofNat 8 Code.fRead
  let kept := s.keptRequest? t f
  match kept.bind (·.outcome) with
  | some reason => s.refuseFrame f reason addr 0
  | none =>
    match w.spoof, w.denied, w.missed with
    | some a, _, _ => s.refuseClient t f Code.spoof a 1
    | none, some a, _ => s.refuseClient t f Code.policy a 0
    | none, none, some a =>
      let waits := kept.isSome || d.region a == .data
      let s := if kept.isSome then s else (s.report t (.miss code a) (some 0)).keepRequest t ⟨f.request, f.kind, addr, n, none, waits⟩
      if waits then s.waitFrame f 1 else s
    | none, none, none =>
      let s := match w.tampered with | some a => s.report t (.tampered a) none | none => s
      let s := s.modTenant t (fun x => { x with linkReq := x.linkReq.filter (fun q => q.request != f.request) })
      s.replyData t f.peer f.request addr w.out w.tampered.isSome

/-- READ (R361). -/
def execReadFrame (f : Frame) (s : State) : Out :=
  .next (s.frame f Code.fRead (fun _ => true) (fun s p =>
    s.serveClient f (field p 0 3) (fun s t d => s.readClient t d f (field p 0 3) (byteAt p 3).toNat)))

/-! ### WRITE (R285, R314, R320, R361) -/

/-- A program of a porch page: the next lane poll takes it and acknowledges it, or refuses it (R285, R361). -/
def State.writePage (s : State) (t : TSlot) (d : TenantDecl) (f : Frame) (addr : Nat) (data : Bytes) : State :=
  let covers := (pageWrites addr data).any (fun b => b.1 == d.pageStart (d.region addr))
  (s.report t (.porchFrame f.request addr data) (some (if covers then 2 else 1))).keepRequest t ⟨f.request, f.kind, addr, 1, none, false⟩

/-- Whether the decision on a write comes at the next lane poll, so that no WAIT precedes it (R314, R320). -/
def State.soonDecided (s : State) (t : TSlot) (d : TenantDecl) (op : WriteOp) : Bool :=
  match s.decideWrite t d op with
  | .refuse _ => true
  | .accept => d.writeMode == .posted && op.isProgram
  | .wait => false

/-- A program or erase taken for the lane, behind those that wait (R314, R337). -/
def State.queueWrite (s : State) (t : TSlot) (d : TenantDecl) (f : Frame) (op : WriteOp) : State :=
  let soon := s.soonDecided t d op
  let w : PendingWrite := ⟨op, s.clock.boundaries, false, BitVec.ofNat 8 Code.fWrite, some f.request⟩
  let x := s.tenant t
  let first := x.write.isNone && x.accepted.isNone && x.writes.isEmpty
  let y := if first then { x with write := some w } else { x with writes := x.writes ++ [w] }
  let s := ((s.setTenant t y).latch (Ev.tenant t.val 1)).keepRequest t ⟨f.request, f.kind, op.addr, 1, none, false⟩
  if first && soon then s else s.waitFrame f 1

/-- A WRITE of a served tenant. -/
def State.writeClient (s : State) (t : TSlot) (d : TenantDecl) (f : Frame) (op : WriteOp) : State :=
  match s.keptRequest? t f with
  | some r =>
    match r.outcome with
    | none => s.waitFrame f 1
    | some reason =>
      if reason = 0 then s.send (outFrame (.peer f.peer) Code.fAck f.request true [(s.tenant t).flagByte false])
      else s.refuseFrame f reason op.addr 0
  | none =>
    let x := s.tenant t
    if x.life = .degraded ∨ d.writeMode = .readOnly then s.refuseClient t f Code.policy op.addr 0
    else match op with
      | .program a data => if (d.region a).isPage then s.writePage t d f a data else s.queueWrite t d f op
      | _ => s.queueWrite t d f op

/-- A WRITE frame of one operation. -/
def State.writeFrame (s : State) (f : Frame) (code : Byte) (op : Bytes → WriteOp) : State :=
  s.frame f Code.fWrite (fun p => byteAt p 0 == code) (fun s p =>
    s.serveClient f (field p 1 3) (fun s t d => s.writeClient t d f (op p)))

/-- WRITE_PROGRAM (R361): 02h with count bytes. -/
def execWriteProgram (f : Frame) (s : State) : Out := .next (s.writeFrame f 0x01 (fun p => .program (field p 1 3) (p.drop 5)))

/-- WRITE_ERASE_4K (R361): 20h. -/
def execWriteErase4k (f : Frame) (s : State) : Out := .next (s.writeFrame f 0x02 (fun p => .erase4k (field p 1 3)))

/-- WRITE_ERASE_64K (R361): D8h. -/
def execWriteErase64k (f : Frame) (s : State) : Out := .next (s.writeFrame f 0x03 (fun p => .erase64k (field p 1 3)))

/-! ### STATEMENT (R287, R339, R351, R361, R387) -/

/-- Whether a request for a statement is in the queue. -/
def State.statementAsked (s : State) (a : StmtAsker) : Bool := s.statements.queue.any (fun q => q.asker == a)

/-- A statement asked for by a unit in session (R339, R387). -/
def State.statementForUnit (s : State) (f : Frame) (u nonce : Bytes) : State :=
  let a := StmtAsker.unit u f.request
  if s.statementAsked a then s.waitFrame f 1
  else
    let r := s.askStatement a nonce
    if r.2 then r.1 else s.refuseFrame f Code.full 0xFFFFFF 0

/-- A statement page request by frame (R287, R361): the next lane poll takes or refuses it (R339). -/
def State.statementForClient (s : State) (t : TSlot) (f : Frame) (nonce : Bytes) : State :=
  let waits := (s.tenant t).events.any (fun e => match e with | .statementFrame q _ => q == f.request | _ => false)
  if (s.tenant t).life = .degraded then s.refuseClient t f Code.policy 0xFFFFFF 0
  else match (s.keptRequest? t f).bind (·.outcome) with
    | some reason => s.refuseFrame f reason 0xFFFFFF 0
    | none =>
      if waits ∨ s.statementAsked (.linkTenant t f.request) then s.waitFrame f 1
      else (s.report t (.statementFrame f.request nonce) (some 5)).keepRequest t ⟨f.request, f.kind, 0xFFFFFF, 1, none, false⟩

/-- STATEMENT_REQUEST (R361, R387). -/
def execStatementRequest (f : Frame) (s : State) : Out :=
  .next (s.frame f Code.fStatement (fun p => byteAt p 0 == 0x00) (fun s p =>
    match f.peer with
    | .unit u => s.statementForUnit f u (slice p 1 16)
    | .module _ => s.serveClient f 0xFFFFFF (fun s t _ => s.statementForClient t f (slice p 1 16))))

/-- A fragment of a peer's statement kept: a new sender or count begins a new statement (R351). -/
def keepFragment (x : Option Transfer) (u : Bytes) (index count : Nat) (bytes : Bytes) : Transfer :=
  let fresh : Transfer := { peer := u, content := 0, transfer := 0, count := count, parts := [] }
  match x with
  | some y => (if y.peer = u ∧ y.count = count ∧ !y.complete then y else fresh).store index bytes
  | none => fresh.store index bytes

/-- STATEMENT_FRAGMENT (R351). -/
def execStatementFragment (f : Frame) (s : State) : Out :=
  .next (s.frame f Code.fStatement (fun p => byteAt p 0 == 0x01) (fun s p =>
    match f.peer with
    | .unit u => { s with statements := { s.statements with heard := some (keepFragment s.statements.heard u (byteAt p 1).toNat (byteAt p 2).toNat (p.drop 3)) } }
    | .module _ => s.noteClient f))

/-! ### ACK and NOTICE (R362, R430) -/

/-- An ACK of a parcel fragment: the next one goes out (R430). -/
def State.fragmentAcked (s : State) (r : OutRequest) : State :=
  match s.update.exporting with
  | some e =>
    if byteAt r.frame.payload 0 = 0x01 then
      { (s.setRequest none) with update := { s.update with exporting := some { e with next := e.next + 1 } } }.sendFragment
    else s
  | none => s

/-- ACK (R362, R430); a degraded tenant's is refused (R361). -/
def execAckFrame (f : Frame) (s : State) : Out :=
  .next (s.frame f Code.fAck (fun _ => true) (fun s _ =>
    match f.peer with
    | .unit _ => match s.requestOf? f Code.fParcel with
      | some r => s.fragmentAcked r
      | none => s
    | .module n =>
      let s := s.noteClient f
      match s.linkTenant? n with
      | some (t, _) =>
        if (s.tenant t).life = .degraded then s.refuseClient t f Code.policy 0xFFFFFF 0
        else s.modTenant t (fun x => { x with notice := none })
      | none => s))

/-- NOTICE_REPEAT (R362): every 8 laps with the content then current, at most four times. -/
def execNoticeRepeat (t : TSlot) (s : State) : Out :=
  .next (match s.awake, s.decl? t, (s.tenant t).notice with
    | true, some d, some (n, b) =>
      let s := (s.reach (b + 8)).latch (Ev.noticeTimer t.val)
      if n < 4 then
        (s.queueNotice t d).modTenant t (fun x => { x with notice := some (n + 1, s.clock.boundaries) })
      else s.modTenant t (fun x => { x with notice := none })
    | _, _, _ => s)

end Sys2Proof.Machine
end

