-- ==== Sys2Proof/Machine/GroupCmd.lean ====
section
/-!
DEFINITION. Meanings of the group: BEACON and its verification (R353, R355, R371, R372), elections (R241, R242, R370), loss of the lead and
of members (R369, R371, R373), LEAVE (R360), shared time (R374–R376). A command whose condition does not hold leaves the state as it is
(log 14).
-/
namespace Sys2Proof.Machine

/-! ### Losses (R369, R373) -/

/-- A waiting request to a unit forgotten. -/
def State.forgetRequest (s : State) (u : Bytes) : State :=
  match s.link.request with
  | some r => if r.frame.dest = .peer (.unit u) then s.setRequest none else s
  | none => s

/-- The lead declared lost (R369–R371, R468): its session ends, LEAD_LOST; a lead-eligible member opens a cold window at the next lap
unless it joins a lead that it has heard. -/
def State.loseLead (s : State) (l : Bytes) (cause : Byte) (window : Bool) : State :=
  let s := (s.endSession (.unit l)).forgetRequest l
  let s := { s with link := { s.link with lead := none, former := some l, foreign := none, lastLead := s.clock.boundaries } }
  let s := s.record Code.leadLost 0xFF (fit 16 0 l ++ [cause])
  if window && s.leadEligible then s.openCold (s.clock.boundaries + 1) else s

/-- A member declared lost (R373, R468). -/
def State.loseMember (s : State) (u : Bytes) (cause : Byte) : State :=
  let s := s.endSession (.unit u)
  let s := { s with link := { s.link with
      lostMembers := s.link.lostMembers.filter (fun (x : Bytes × Nat) => x.1 != u) ++ [(u, s.clock.boundaries)], timeDue := s.link.timeDue.filter (fun x => x != u) } }
  s.record Code.memberLost 0xFF (fit 16 0 u ++ [cause])

/-! ### BEACON (R353, R355, R365, R371, R372) -/

/-- What a BEACON tells of its sender (R351). -/
def heardOf (u p : Bytes) (now : Nat) : HeardUnit :=
  { number := u, boot := field p 11 4, epoch := byteAt p 10, group := slice p 1 8, leadRank := byteAt p 9, linkKey := slice p 15 33
    startKey := slice p 48 33, signature := slice p 81 64, verified := none, leadFlag := (byteAt p 0).getLsbD 0, leadHeard := now }

/-- A unit of `peers` put in the table of units heard: a new boot counter begins anew (R355). -/
def State.hearUnit (s : State) (h : HeardUnit) : State :=
  if !s.inGroup ∨ !s.peers.contains h.number then s
  else
    let same := match s.heardUnit? h.number with | some o => o.boot == h.boot | none => false
    if same then s.modHeard h.number (fun o => { o with leadFlag := h.leadFlag, leadRank := h.leadRank, leadHeard := if h.leadFlag then h.leadHeard else o.leadHeard })
    else
      let s := s.forgetRequest h.number
      let others := s.link.heard.filter (fun o => o.number != h.number)
      { s with link := { s.link with heard := others.drop (others.length - 14) ++ [h] } }

/-- The session of a unit heard: kept alive, or ended by another boot counter (R365, R369, R373). -/
def State.touchSession (s : State) (h : HeardUnit) : State :=
  match s.session? (.unit h.number) with
  | none => s
  | some x =>
    if x.boot = h.boot then s.modSession x.peer (fun y => { y with lastFrame := s.clock.boundaries })
    else if s.link.lead = some h.number then s.loseLead h.number 0x03 true
    else s.endSession x.peer

/-- A lead steps down for a better one (R372). -/
def State.stepDown (s : State) (u : Bytes) : State :=
  let s := s.unitSessions.foldl (fun st m => st.send (outFrame (.peer (.unit m)) Code.fLeave 0 true [0x00])) s
  let s := s.record Code.leadChange 0xFF (fit 16 0 u)
  let joins := s.link.joins.filter (fun j => match j.peer with | .module _ => true | .unit _ => false)
  { s with link := { s.link with
      role := .member, lead := none, leadSince := none, timeDue := [], joins := joins, lastLead := s.clock.boundaries } }.joinLead u

/-- A BEACON with LEAD of the own group (R241, R369, R371, R372). -/
def State.hearLead (s : State) (h : HeardUnit) : State :=
  let now := s.clock.boundaries
  if s.link.role = .lead then (if s.better h.leadRank h.number then s.stepDown h.number else s.answerAsLead)
  else match s.link.lead with
    | some l =>
      if l = h.number then { s with link := { s.link with lastLead := now, foreign := none } }
      else if s.link.foreign.isSome then s
      else { s.askBeacon l with link := { (s.askBeacon l).link with foreign := some (h.number, now) } }
    | none => { s with link := { s.link with cold := none, lastLead := now } }.joinLead h.number

/-- BEACON (R353, R355). -/
def execBeacon (f : Frame) (s : State) : Out :=
  .next (s.frame f Code.fBeacon (fun p => p.length == 145) (fun s p =>
    let h := heardOf f.srcUnit p s.clock.boundaries
    let s := { s with link := { s.link with heardAny := true } }.latch (if h.leadFlag then Ev.leadBeacon else Ev.beacon)
    let s := (s.hearUnit h).touchSession h
    if s.inGroup ∧ h.group = s.group ∧ h.leadFlag then s.hearLead h else s))

/-- BEACON_VERIFY (R241, R355): two laps of the Curve engine that joins do not take. -/
def execBeaconVerify (unit : Bytes) (s : State) : Out :=
  .next (match s.awake && s.inGroup, s.heardUnit? unit with
    | true, some h =>
      if h.verified.isSome ∨ h.group ≠ s.group ∨ !s.link.joins.isEmpty then s
      else
        let s := (s.toStart 4).setClock ((s.toStart 4).clock.skipLaps 2 true)
        let fields := h.group ++ [h.leadRank, h.epoch] ++ be 4 h.boot ++ h.linkKey ++ h.startKey
        let r := ecdsaVerify h.linkKey (sha256 (beaconSigned h.number fields)) h.signature
        ((s.noteCurve r).modHeard unit (fun o => { o with verified := some (r == .ok) })).joinLead unit
    | _, _ => s)

/-! ### Elections (R241–R243, R370) -/

/-- ELECT (R241, R370): a lead answers; in a cold window a better candidate silences the unit; a member with a lead ignores it. -/
def execElect (f : Frame) (s : State) : Out :=
  .next (s.frame f Code.fElect (fun _ => true) (fun s p =>
    let s := s.latch Ev.electHeard
    if !s.inGroup ∨ p.take 8 ≠ s.group then s
    else if s.link.role = .lead then s.answerAsLead
    else if s.link.lead.isSome ∨ !s.better (byteAt p 8) f.srcUnit then s
    else { s with link := { s.link with lastLead := s.clock.boundaries, cold := s.link.cold.map (fun c => (c.1, true, c.2.2)) } }))

/-- The candidacy of a lead-eligible member in its cold window: first boundary and boundary of its next ELECT. -/
def State.candidacy? (s : State) : Option (Nat × Nat) :=
  match s.link.cold with
  | some (start, silenced, due) =>
    if (s.awake ∨ s.power.phase = .s) ∧ s.link.beaconing ∧ s.link.role = .member ∧ s.leadEligible ∧ !silenced then some (start, due)
    else none
  | none => none

/-- The first boundary of an ELECT after a boundary count: every 16th lap of the window (R241, R370). -/
def electAfter (start now : Nat) : Nat := start + 16 * ((now - start) / 16 + 1)

/-- ELECT_SEND (R241, R370): in the window's first lap and every 16th lap after it; a unit in S wakes first (log 192). -/
def execElectSend (s : State) : Out :=
  .next (match s.candidacy? with
    | some (start, due) =>
      let t := s.reach due
      if start + 255 < due then s
      else if s.power.phase = .s then t
      else
        let t := { t with link := { t.link with cold := some (start, false, electAfter start t.clock.boundaries) } }
        if t.clock.boundaries ≤ start + 255 then t.send (outFrame .everyone Code.fElect 0 false (t.group ++ [t.leadRank])) else t
    | none => s)

/-- The unit becomes lead (R240, R242, R373). -/
def State.becomeLead (s : State) : State :=
  let s := { s with link := { s.link with role := .lead, lead := some s.unitNumber, cold := none, foreign := none, leadSince := some s.clock.boundaries } }
  let s := match s.link.former with
    | some u => { (s.loseMember u 0x04) with link := { (s.loseMember u 0x04).link with former := none } }
    | none => s
  s.recordLinkOpen.sendBeacon

/-- LEAD_ELECTION (R242, R370): slot 0 of the 257th lap of the window, once its ELECTs are sent; a unit in S wakes first. -/
def execLeadElection (s : State) : Out :=
  .next (match s.candidacy? with
    | some (start, due) =>
      let t := s.reach (start + 256)
      if max due s.clock.boundaries ≤ start + 255 then s else if s.power.phase = .s then t else t.becomeLead
    | none => s)

/-- COLD_WINDOW_RENEW (R242): 64 laps with no lead BEACON and no better ELECT. -/
def execColdWindowRenew (s : State) : Out :=
  .next (if s.awake ∧ s.link.beaconing ∧ s.link.role = .member ∧ s.leadEligible ∧ s.link.lead.isNone ∧ s.candidacy?.isNone then
    let s := s.reach (s.link.lastLead + 64)
    s.openCold s.clock.boundaries
  else s)

/-! ### Silence and LEAVE -/

/-- LEAD_LOSS_TIMEOUT (R369): a unit in S wakes first. -/
def execLeadLossTimeout (s : State) : Out :=
  .next (match s.link.role, s.link.lead with
    | .member, some l =>
      if s.power.phase = .s then s.reach (s.link.lastLead + 24640)
      else if s.awake then (s.reach (s.link.lastLead + 24640)).loseLead l 0x01 true
      else s
    | _, _ => s)

/-- LEAD_CONFIRM_TIMEOUT (R371): no rule says which of the causes of R513 this loss carries, so it is a free one of the four (log 193). -/
def execLeadConfirmTimeout (s : State) : Out :=
  .next (match s.awake, s.link.lead, s.link.foreign with
    | true, some l, some (u, b) =>
      let (c, s) := (s.reach (b + 8)).freeBelow 4
      (s.loseLead l (BitVec.ofNat 8 (c + 1)) false).joinLead u
    | _, _, _ => s)

/-- MEMBER_LOSS_TIMEOUT (R373): a lead in S wakes first. -/
def execMemberLossTimeout (unit : Bytes) (s : State) : Out :=
  .next (match s.link.role, s.session? (.unit unit) with
    | .lead, some x =>
      if s.power.phase = .s then s.reach (x.lastFrame + 24640)
      else if s.awake then (s.reach (x.lastFrame + 24640)).loseMember unit 0x01
      else s
    | _, _ => s)

/-- LEAVE of a tenant module: it ends the session, but a degraded tenant's is refused (R360, R361; log 194). -/
def State.leaveModule (s : State) (f : Frame) (n : Byte) : State :=
  let s := s.noteClient f
  match s.linkTenant? n with
  | some (t, _) => if (s.tenant t).life = .degraded then s.refuseClient t f Code.policy 0xFFFFFF 0 else s.endSession f.peer
  | none => s.endSession f.peer

/-- LEAVE (R360, R361, R369, R373). -/
def execLeave (f : Frame) (s : State) : Out :=
  .next (s.frame f Code.fLeave (fun _ => true) (fun s _ =>
    let s := s.latch Ev.leave
    match f.peer with
    | .module n => s.leaveModule f n
    | .unit u =>
      if s.link.role = .lead then s.loseMember u 0x02
      else if s.link.lead = some u then s.loseLead u 0x02 true
      else s.endSession f.peer))

/-! ### Shared time (R374–R376) -/

/-- A signed count in 8 bytes (R468). -/
def signed8 (n : Int) : Bytes := be 8 (n % (2 ^ 64 : Int)).toNat

/-- The offset set by a TIME; a change of more than 1 ms is recorded (R374, R375). -/
def State.setTime (s : State) (leadCount captured : Nat) (approx : Bool) : State :=
  let old := s.link.offset
  let new : Int := (leadCount : Int) - (captured : Int)
  let s := { s with link := { s.link with offset := new, shared := true, timeApprox := approx } }
  if 32768 < 1000 * (new - old).natAbs then s.record Code.timeStep 0xFF (signed8 old ++ signed8 new) else s

/-- TIME (R374, R376): only from the lead, on the lead's session; the command falls at the SOF edge, where the member captures its own
time. -/
def execTimeFrame (f : Frame) (s : State) : Out :=
  .next (s.frame f Code.fTime (fun _ => true) (fun s p =>
    if s.link.role = .member ∧ s.link.lead.map Peer.unit = some f.peer then
      (s.latch Ev.time).setTime (field p 0 6 % 2 ^ 46) s.clock.rtc ((byteAt p 6).getLsbD 0)
    else s.drop dropSource))

/-- TIME_SEND (R246, R374): at slot 0 of a lap, once the LFXO of the lead is qualified, or 1,024 laps after it became lead. -/
def execTimeSend (s : State) : Out :=
  .next (match s.awake && s.link.role == .lead, s.link.timeDue, s.link.leadSince with
    | true, u :: us, some b =>
      let s := if s.power.lfxoQualified then s.setClock s.clock.toLapStart else (s.reach (b + 1024)).setClock (s.reach (b + 1024)).clock.toLapStart
      let s := (u :: us).foldl (fun st m => st.send (outFrame (.peer (.unit m)) Code.fTime 0 true (zeros 8))) s
      { s with link := { s.link with timeDue := [] } }
    | _, _, _ => s)

end Sys2Proof.Machine
end

