-- ==== Sys2Proof/Machine/CrossCmd.lean ====
section
/-!
DEFINITION. Meanings of cross-signing (R377–R381). A command whose condition does not hold leaves the state as it is (log 14).
-/
namespace Sys2Proof.Machine

/-! ### CROSS payloads (R351) -/

/-- What a CROSS signature covers: group, sender, the fields before the signature. -/
def crossSigned (group sender fields : Bytes) : Bytes := ascii "BX4016 CROSS" ++ group ++ sender ++ fields

/-- The head of the own chain: its sequence and tag, zeros while it holds no record. -/
def State.headFields (s : State) : Bytes :=
  match s.ringRecord? (s.nextSequence - 1) with
  | some r => slice r 0 4 ++ recordTag r
  | none => zeros 20

/-- A CROSS over the current head, signed with the link key: two laps of the Curve engine (R377); none when the engine gives no
signature (R396). -/
def State.makeCross (s : State) : Option Bytes × State :=
  let s := (s.toStart 4).setClock ((s.toStart 4).clock.skipLaps 2 true)
  let fields := s.headFields ++ s.timeField ++ fit 8 0 s.ledgerId
  let (sig, s) := s.signHash (sha256 (crossSigned s.group s.unitNumber fields))
  (if sig.2 = .ok then some (fields ++ sig.1) else none, s)

/-- A peer's CROSS verified under its link key: two laps of the Curve engine (R355, R377). -/
def State.checkCross (s : State) (u payload : Bytes) : CryptoResult × State :=
  let s := (s.toStart 4).setClock ((s.toStart 4).clock.skipLaps 2 true)
  let key := match s.heardUnit? u with | some h => if h.verified = some true then h.linkKey else [] | none => []
  let r := ecdsaVerify key (sha256 (crossSigned s.group u (payload.take 34))) (slice payload 34 64)
  (r, s.noteCurve r)

/-- CROSS_IN and CROSS_BAD (R377, R468). -/
def State.recordCrossIn (s : State) (u payload : Bytes) : State := s.record Code.crossIn 0xFF (slice payload 0 4 ++ slice payload 4 8 ++ unit8 u)
def State.recordCrossBad (s : State) (u payload : Bytes) (r : CryptoResult) : State :=
  s.record Code.crossBad 0xFF (unit8 u ++ slice payload 0 4 ++ [r.code])

/-- The last CROSS of a peer kept, for up to 15 peers (R381). -/
def State.keepCross (s : State) (u payload : Bytes) : State :=
  let others := s.crossTable.filter (fun x => x.1 != u)
  { s with crossTable := others.drop (others.length - 14) ++ [(u, payload)] }

/-- An exchange completed: the next one waits for a record, or for an ADMIT's turn (R379). -/
def State.crossDone (s : State) : State := { s with link := { s.link with crossDue := none } }

/-! ### The initiator -/

/-- The lowest of some unit numbers. -/
def lowestUnit (us : List Bytes) : Option Bytes :=
  us.foldl (fun a u => match a with | some b => if beNat u < beNat b then some u else some b | none => some u) none

/-- The next of some units in rotation by unit number (R379). -/
def State.rotate (s : State) (us : List Bytes) : Option Bytes :=
  match lowestUnit (us.filter (fun u => decide (beNat s.link.crossLast < beNat u))) with
  | some u => some u
  | none => lowestUnit us

/-- The peers of exchanges: the lead for a member, the members for a lead (R366, R379). -/
def State.crossPeers (s : State) : List Bytes :=
  if s.link.role = .lead then s.unitSessions else s.unitSessions.filter (fun u => s.link.lead == some u)

/-- The next exchange: its peer and the boundary count at which it is due. An ADMIT's goes before the one that a record made due
(R379; log 195). -/
def State.crossNext? (s : State) : Option (Bytes × Nat) :=
  match s.rotate (s.crossPeers.filter (fun u => s.link.crossJoins.any (fun x => x.1 == u))) with
  | some u => (s.link.crossJoins.find? (fun x => x.1 == u)).map (fun x => (u, x.2))
  | none => match s.link.crossDue, s.rotate s.crossPeers with
    | some b, some u => some (u, b)
    | _, _ => none

/-- X1 sent: its reply is awaited, and the exchange that the peer's ADMIT made due is begun (R377, R379). -/
def State.sendCross (s : State) (u payload : Bytes) : State :=
  let (r, s) := s.newRequest
  let s := s.send (outFrame (.peer (.unit u)) Code.fCross r true payload)
  let joins := s.link.crossJoins.filter (fun x => x.1 != u)
  { s with link := { s.link with crossOut := some (u, field payload 0 4, s.clock.boundaries), crossJoins := joins, crossLast := u } }

/-- CROSS_INITIATE (R377, R379): without a signature it stays due (R396). -/
def execCrossInitiate (s : State) : Out :=
  .next (match s.awake && s.inGroup && s.link.crossOut.isNone, s.crossNext? with
    | true, some (u, due) =>
      match (s.reach (max due s.link.crossNotBefore)).makeCross with
      | (some payload, s) => s.sendCross u payload
      | (none, s) => s
    | _, _ => s)

/-- The next exchange due 4,096 laps on, after one without a good reply (R378, R379). -/
def State.crossLater (s : State) : State :=
  { s with link := { s.link with crossOut := none, crossDue := some (s.clock.boundaries + 4096) } }

/-- X3: the reply verified (R377). -/
def State.crossReply (s : State) (u payload : Bytes) : State :=
  let (r, s) := s.checkCross u payload
  if r = .ok then
    let s := ((s.keepCross u payload).recordCrossIn u payload).crossDone
    { s with link := { s.link with crossOut := none } }
  else (s.recordCrossBad u payload r).crossLater

/-- CROSS_REPLY_TIMEOUT (R378). -/
def execCrossReplyTimeout (s : State) : Out :=
  .next (match s.awake, s.link.crossOut with
    | true, some (u, seq, b) =>
      let s := s.reach (b + 256)
      let s := (s.record Code.crossMiss 0xFF (unit8 u ++ be 4 seq)).crossLater
      { s with link := { s.link with crossNotBefore := s.clock.boundaries + 4096 } }
    | _, _ => s)

/-! ### The responder -/

/-- CROSS (R377, R380, R387): queued, or taken as the reply to the unit's own. -/
def execCross (f : Frame) (s : State) : Out :=
  .next (s.frame f Code.fCross (fun _ => true) (fun s p =>
    let s := s.latch Ev.cross
    match f.peer with
    | .unit u =>
      if s.link.crossOut.map (·.1) = some u then s.crossReply u p
      else { s with link := { s.link with crossIn := s.link.crossIn ++ [(u, f.request, p)] } }
    | .module _ => s))

/-- X2 with a good signature: CROSS_IN, then the CROSS over the head that includes it (R377); without a signature it is made once more
(R396). -/
def State.crossAnswer (s : State) (u : Bytes) (request : Byte) (payload : Bytes) : State :=
  let s := (s.keepCross u payload).recordCrossIn u payload
  let first := s.appendAll.makeCross
  let last := if first.1.isSome then first else first.2.makeCross
  (match last.1 with
    | some own => last.2.send (outFrame (.peer (.unit u)) Code.fCross request true own)
    | none => last.2).crossDone

/-- The Curve engine is free of join work and of BEACON verification (R355, R357, R378; log 196). -/
def State.curveFree (s : State) : Bool :=
  s.link.joins.isEmpty && s.link.heard.all (fun h => h.verified.isSome || h.group != s.group)

/-- CROSS_RESPONDER_TURN (R377, R378): four laps of the Curve engine, whatever the outcome. -/
def execCrossResponderTurn (s : State) : Out :=
  .next (match s.awake && s.curveFree, s.link.crossIn with
    | true, (u, request, payload) :: rest =>
      let (r, s) := { s with link := { s.link with crossIn := rest } }.checkCross u payload
      if r = .ok then s.crossAnswer u request payload
      else
        let s := s.recordCrossBad u payload r
        let s := s.setClock (s.clock.skipLaps 2 true)
        s.sendRefuse (.peer (.unit u)) request.toNat Code.fCross Code.spoof 0xFFFFFF 0 (s.sealedTo (.unit u))
    | _, _ => s)

end Sys2Proof.Machine
end

