-- ==== Sys2Proof/Machine/DebugCmd.lean ====
section
/-!
DEFINITION. Meanings of the debug port's commands: halt and resume (R479), access words within a reach (R133, R251, R477, R478). Where an
access word finds a byte of a space is the model's own map, as no rule gives one (log 33). A command whose condition does not hold leaves
the state as it is (log 14).
-/
namespace Sys2Proof.Machine

/-! ### Halt and resume (R479) -/

/-- The rank of a reach: each includes the ones above it in R478. -/
def Reach.rank (r : Reach) : Nat := match r with | .observe => 0 | .halt => 1 | .maker => 2

/-- Whether the port is enabled with at least a reach (R477, R478). -/
def State.reaches (s : State) (n : Nat) : Bool := match s.probe.reach with | some r => decide (n ≤ r.rank) | none => false

/-- PROBE_HALT_REQUEST (R479). -/
def execProbeHaltRequest (s : State) : Out :=
  .next (if s.reaches 1 ∧ s.power.phase = .n ∧ !s.probe.halted then
    { s.latch Ev.haltRequest with probe := { s.probe with haltAsked := true } }
  else s)

/-- Whether a halt may take effect: no ledger update, commit, staging, tenant restart or handover in progress (R479). -/
def State.mayHalt (s : State) : Bool :=
  s.update.ledger.isEmpty && s.commit.isNone && s.stagingPlace.isNone && s.running.handover.isNone &&
    allSlots.all (fun t => (s.tenant t).staging.isNone && !(s.tenant t).restarting)

/-- The next frame boundary: slot 0 of a lap whose number the frame length divides (R32). -/
def Clock.toFrame (c : Clock) (laps : Nat) : Clock :=
  let n := if laps = 0 then 1 else laps
  if c.slot = 0 ∧ c.lap % n = 0 then c else (c.nextLap true).skipLaps ((n - (c.lap + 1) % n) % n) true

/-- HALT_ENTRY (R479): the fabric is gated and WDT stops. -/
def execHaltEntry (s : State) : Out :=
  .next (if s.probe.haltAsked ∧ s.awake ∧ s.mayHalt then
    let laps := match s.running.schedule with | some c => c.frameLaps | none => 1
    let s := (s.setClock (s.clock.toFrame laps)).endLanes
    { s with power := { s.power with wdtOn := false }
             probe := { s.probe with haltAsked := false, halted := true } }
  else s)

/-- PROBE_RESUME_REQUEST (R479): at the next lap boundary. -/
def execProbeResumeRequest (s : State) : Out :=
  .next (if !s.reaches 1 ∨ s.power.phase ≠ .n then s
  else
    let s := s.latch Ev.resumeRequest
    if s.probe.halted then
      let s := s.setClock (s.clock.nextLap true)
      { s with power := { s.power with wdtOn := true }
               probe := { s.probe with haltAsked := false, halted := false } }
    else { s with probe := { s.probe with haltAsked := false } })

/-! ### What an access word finds (R478, log 33) -/

/-- The leaves of the cache in slot order. -/
def State.allLeaves (s : State) : List (TSlot × Nat) :=
  allSlots.flatMap (fun t => (List.range (s.tenant t).cache.length).map (fun i => (t, i)))

/-- The size of a space in bytes. -/
def State.debugSize (s : State) (sp : DebugSpace) : Nat :=
  match sp with
  | .lapSlot => 8
  | .eventVector => 32
  | .programBank => (sectionBytes s.running.image 1).length
  | .pollTable => (sectionBytes s.running.image 3).length
  | .occupancy => (sectionBytes s.running.image 0).length
  | .auditWindow => 0x10000
  | .vaultOther => 0x20000
  | .ledgerHalves => 0x2000
  | .commitWord => 4
  | .otpWord => 128
  | .otpGroup => 16
  | .otpPatch => 2048
  | .flashDirectory => 4096
  | .crossTable => 1712
  | .sram => 0x10000
  | .den => 0x50000
  | .leafCache => 1024 * s.allLeaves.length
  | .bounceBuffer => 0x10000
  | .sessionTable => 4096
  | .keyStore => 1536
  | .keyOtp => 64
  | .scan => 0xFFFFFFFF

/-- The byte of a bounce buffer at an offset: 0xFF where nothing is written (R315). -/
def Bounce.byte (b : Bounce) (o : Nat) : Byte := match b.written.find? (fun c => c.1 == o) with | some c => c.2 | _ => 0xFF

/-- The 8 bytes of both copies of a patch entry (R158). -/
def Otp.patchBytes (o : Otp) (i : Nat) : Bytes := be 8 (o.patch0.toList.getD i 0).toNat ++ be 8 (o.patch1.toList.getD i 0).toNat

/-- A leaf of the cache by its place in all shares. -/
def State.leafBytes (s : State) (i : Nat) : Bytes :=
  match s.allLeaves[i]? with
  | some (t, j) => fit 1024 0 (((s.tenant t).cache.map (·.content)).getD j [])
  | none => zeros 1024

/-- The word at an address of a space, four bytes. -/
def State.debugWord (s : State) (sp : DebugSpace) (a : Nat) : Bytes :=
  match sp with
  | .lapSlot => slice (be 4 (s.clock.lap % 2 ^ 32) ++ be 4 s.clock.slot) a 4
  | .eventVector => be 4 (s.events.toNat / 2 ^ (8 * a) % 2 ^ 32)
  | .programBank => slice (sectionBytes s.running.image 1) a 4
  | .pollTable => slice (sectionBytes s.running.image 3) a 4
  | .occupancy => slice (sectionBytes s.running.image 0) a 4
  | .auditWindow | .vaultOther => s.vaultBytes a 4
  | .otpWord => be 4 (s.otpWord (a / 4)).toNat
  | .otpGroup => be 4 (s.otp.groups.toList.getD (a / 4) 0).toNat
  | .otpPatch => slice (s.otp.patchBytes (a / 16)) (a % 16) 4
  | .flashDirectory => match s.flash.directory with | some (_, sector) => s.raw 0 (4096 * sector + a) 4 | none => List.replicate 4 0xFF
  | .crossTable => slice ((s.crossTable.map (fun x => fit 16 0 x.1 ++ fit 98 0 x.2)).flatten ++ zeros 1712) a 4
  | .sram => s.sramBytes a 4
  | .den => s.denBytes a 4
  | .leafCache => slice (s.leafBytes (a / 1024)) (a % 1024) 4
  | .bounceBuffer => (List.range 4).map (fun i => ((s.tenants.toList.map (·.bounce)).getD (a / 4096) Bounce.none).byte (a % 4096 + i))
  | .keyStore => slice (((s.keys.map (fun k => fit 32 0 k.2)).flatten) ++ zeros 1536) a 4
  | .ledgerHalves | .commitWord | .sessionTable | .keyOtp | .scan => []

/-- The reach that grants a read, none where no reach does (R478). -/
def readReach (sp : DebugSpace) (a : Nat) : Option Nat :=
  match sp with
  | .lapSlot | .eventVector | .programBank | .pollTable | .occupancy | .auditWindow | .otpWord | .otpGroup | .otpPatch | .flashDirectory
  | .crossTable => some 0
  | .vaultOther => if 0x12400 ≤ a ∧ a < 0x15000 then some 1 else none
  | .sram | .den | .leafCache | .bounceBuffer => some 1
  | .keyStore | .scan => some 2
  | .ledgerHalves | .commitWord | .sessionTable | .keyOtp => none

/-- The reach that grants a write (R133, R153, R159, R478): the OTP test programming covers configuration words and patches (log 182). -/
def writeReach (sp : DebugSpace) : Option Nat :=
  match sp with
  | .sram | .den | .leafCache | .bounceBuffer => some 1
  | .keyStore | .scan | .otpWord | .otpPatch => some 2
  | .lapSlot | .eventVector | .programBank | .pollTable | .occupancy | .auditWindow | .vaultOther | .ledgerHalves | .commitWord
  | .otpGroup | .keyOtp | .flashDirectory | .crossTable | .sessionTable => none

/-- Whether the port's reach grants an access. -/
def State.grants (s : State) (r : Option Nat) : Bool := match r with | some n => s.reaches n | none => false

/-- Whether an address names a word of a space. -/
def State.hasWord (s : State) (sp : DebugSpace) (a : Nat) : Bool := a % 4 == 0 && decide (a + 4 ≤ s.debugSize sp)

/-! ### Writes -/

/-- Bytes put into a list at an offset. -/
def overlay (bs : Bytes) (o : Nat) (new : Bytes) : Bytes := bs.take o ++ new ++ bs.drop (o + new.length)

/-- The cells that a word at an address of the patch region sets: 8 bytes of copy 0, then of copy 1, bit 63 first (R158, R160). -/
def patchCells (a : Nat) (v : Word32) : List OtpCell :=
  (List.finRange 32).filterMap (fun b =>
    if v.getLsbD b.val then
      some (.patch (if a % 16 < 8 then 0 else 1) (Fin.ofNat 128 (a / 16)) (Fin.ofNat 64 (b.val + (if a % 8 < 4 then 32 else 0))))
    else none)

/-- A leaf of the cache with bytes put at an offset. -/
def CacheLeaf.write (l : CacheLeaf) (o : Nat) (bs : Bytes) : CacheLeaf := { l with content := overlay (fit 1024 0 l.content) o bs }

/-- A bounce buffer with bytes put at an offset. -/
def Bounce.write (b : Bounce) (o : Nat) (bs : Bytes) : Bounce :=
  { b with written := bs.zipIdx.foldl (fun m x => bounceByte (m.filter (fun c => c.1 != o + x.2)) (o + x.2) x.1) b.written }

/-- A word written into a space. -/
def State.debugPut (s : State) (sp : DebugSpace) (a : Nat) (v : Word32) : State :=
  let bs := be 4 v.toNat
  match sp with
  | .sram => s.sramWrite a bs
  | .den => s.denWrite a bs
  | .leafCache => match s.allLeaves[a / 1024]? with
    | some (t, j) => s.modTenant t (fun x => { x with cache := x.cache.modify j (fun l => l.write (a % 1024) bs) })
    | none => s
  | .bounceBuffer => s.modTenant (Fin.ofNat 16 (a / 4096)) (fun x => { x with bounce := x.bounce.write (a % 4096) bs })
  | .keyStore => { s with keys := s.keys.modify (a / 32) (fun k => (k.1, overlay (fit 32 0 k.2) (a % 32) bs)) }
  | .otpWord => s.testWord (a / 4) v
  | .otpPatch => (s.pulseAll (patchCells a v)).1
  | _ => s

/-! ### Sequencer commands and steps -/

/-- A program or erase of the probe sent to a chip that can take it (R122, R251, R266, R478). -/
def State.debugFlash (s : State) (t : FlashTask) : State :=
  if s.reaches 1 && !s.flashBusy && !s.power.commitLow && s.flash.cutAt.isNone && !s.flash.deepDown && s.chipServes t.chip then s.startTask .debug t
  else s

/-- The data that an access word returned. -/
def State.debugOut (s : State) (bs : Bytes) : State := { s with probe := { s.probe with out := bs } }

/-- An access word at an enabled port. -/
def State.accessWord (s : State) (op : DebugOp) : Out :=
  match op with
  | .read sp a =>
    if !s.grants (readReach sp a) then .next (s.debugOut [])
    else if sp = .scan then .refused .scanChain
    else if s.hasWord sp a then .next (s.debugOut (s.debugWord sp a))
    else .fault .noSuchAddress
  | .write sp a v =>
    if !s.grants (writeReach sp) then .next s
    else if sp = .scan then .refused .scanChain
    else if s.hasWord sp a then .next (s.debugPut sp a v)
    else .fault .noSuchAddress
  | .flashRead c a n => .next (if s.reaches 1 ∧ s.chipServes c then s.debugOut (s.raw c a n) else s.debugOut [])
  | .flashProgram c a bs => .next (s.debugFlash ⟨.program, c, a, bs⟩)
  | .flashErase4k c a => .next (s.debugFlash ⟨.erase4k, c, a, []⟩)
  | .flashErase64k c a => .next (s.debugFlash ⟨.erase64k, c, a, []⟩)
  | .stepLap => .next (if s.reaches 1 ∧ s.probe.halted then (s.setClock (s.clock.nextLap true)) else s)

/-- DEBUG_ACCESS_WORD (R131, R478): words cross to FAB, so nothing answers while the fabric is down. -/
def execDebugAccessWord (op : DebugOp) (s : State) : Out :=
  if s.probe.reach.isSome ∧ s.power.phase = .n then (s.latch Ev.debugWord).accessWord op else .next s

end Sys2Proof.Machine
end

