-- ==== Sys2Proof/Machine/FlashCmd.lean ====
section
/-!
DEFINITION. Meanings of the events of the external flash (R251, R266–R271). A command whose condition does not hold leaves the state as
it is (log 14).
-/
namespace Sys2Proof.Machine

/-- The operation in progress on a chip that is not suspended. -/
def State.running? (s : State) (c : Fin 2) : Option FlashOp :=
  match s.flash.op[c] with
  | some o => if o.suspended || s.probe.halted then none else some o
  | none => none

/-- FLASH_OPERATION_DONE (R269): the error bit is judged, and the operation's owner goes on. -/
def execFlashOperationDone (chip : Fin 2) (error : Bool) (s : State) : Out :=
  .next (match s.running? chip with
  | none => s
  | some o =>
    let s := (s.latch (Ev.busyCleared chip.val)).latchIf error (Ev.errorBit chip.val)
    let s := s.order chip [(s.chip chip).sfdp.pollOp]
    if o.owner = .wipe then
      if error then ((s.endOp chip).spoilTask o.task).wipeStep o (some o.task.kind.errorCause)
      else ((s.endOp chip).applyTask o.task).wipeStep o none
    else if error then (s.opLost chip false).pump
    else (((s.endOp chip).applyTask o.task).opEnded o none).pump)

/-- The other chip of two. -/
def otherChip (c : Fin 2) : Fin 2 := if c = 0 then 1 else 0

/-- A block of a wipe that timed out (R271): recorded, and the wipe moves on, after a power cycle when the chip stays busy; when the
limit is reached the rest of its blocks is passed over. -/
def State.wipeTimeout (s : State) (chip : Fin 2) (o : FlashOp) (stillBusy : Bool) : State :=
  let s := (s.endOp chip).spoilTask o.task
  if stillBusy then
    let s := s.flashFault (refOf chip o.task.addr) o.task.kind.timeoutCause wipeOperation false
    let s := s.powerCycle chip wipeOperation
    if s.flash.cutAt.isSome then s else s.wipeStep o none
  else s.wipeStep o (some o.task.kind.timeoutCause)

/-- FLASH_OPERATION_TIMEOUT (R268, R269): 66h and 99h, and a power cycle when the chip stays busy; an operation of the other chip is
lost with its supply. -/
def execFlashOperationTimeout (chip : Fin 2) (stillBusy : Bool) (s : State) : Out :=
  .next (match s.running? chip with
  | none => s
  | some o =>
    let s := (s.latch (Ev.opTimeout chip.val)).order chip [(s.chip chip).sfdp.pollOp, 0x66, 0x99]
    if o.owner = .wipe then s.wipeTimeout chip o stillBusy
    else
      let s := s.opLost chip true
      if stillBusy then
        let s := s.powerCycle chip o.task.kind.code
        (if s.flash.cutAt.isSome then s.opLost (otherChip chip) true else s).pump
      else s.pump)

/-- FPWR high again while the ROM runs: the 10 laps count as 655,360 slots, and the wipe goes on (R271). -/
def State.restoreInRom (s : State) (answers0 answers1 : Bool) : State :=
  let s := { s.spend 655360 with pads := s.pads.flashOn s.boot.fstrap (s.straps.keepers.getD 0 false), flash := { s.flash with cutAt := none } }
  let s := ((s.latch Ev.powerCycled).rediscover 0 answers0).rediscover 1 answers1
  match s.flash.cutAt, s.flash.wipeAt with
  | none, some (c, b) => s.wipePast c b
  | _, _ => s

/-- FLASH_POWER_RESTORE (R268): whether each chip answers the discovery that follows is the board's (R269). -/
def execFlashPowerRestore (answers0 answers1 : Bool) (s : State) : Out :=
  .next (match s.flash.cutAt with
  | none => s
  | some b =>
    if s.power.phase = .b then s.restoreInRom answers0 answers1
    else if s.awake then (s.restoreFlash b answers0 answers1).pump
    else s)

end Sys2Proof.Machine
end

