-- ==== Sys2Proof/Machine/HandoverOps.lean ====
section
/-!
DEFINITION. Live self-update (R424–R428): the handover map (R45), lap H, the self-check of the new programs.
-/
namespace Sys2Proof.Machine

/-! ### The map (R45, R425) -/

/-- The length that the predecessor's carry declaration gives a map entry's source. -/
def sourceLen (old : Schedule) (e : MapEntry) : Nat :=
  match old.decls.find? (fun d => d.carry && d.addr == e.pred) with
  | some d => d.len
  | none => e.len

/-- Byte `j` that a map entry writes: copied, zero, or zero-extended at its more significant end (R4, R45). -/
def State.mapByte (s : State) (n : Nat) (e : MapEntry) (j : Nat) : Byte :=
  if e.transform = 2 then 0
  else if e.transform = 3 then (if j < e.len - n then 0 else byteAt (s.sramBytes (e.pred + (j - (e.len - n))) 1) 0)
  else byteAt (s.sramBytes (e.pred + j) 1) 0

/-- Word `k` of a map entry applied, in the notice store too (R52, R425; DEDUCED, log 197). -/
def State.mapWord (s : State) (n : Nat) (e : MapEntry) (k : Nat) : State :=
  s.sramWrite (e.own + 4 * k) ((List.range (min 4 (e.len - 4 * k))).map (fun i => s.mapByte n e (4 * k + i)))

/-- A map entry applied, word by word (R425). -/
def State.mapEntryApply (s : State) (old : Schedule) (e : MapEntry) : State :=
  (List.range (ceilDiv e.len 4)).foldl (fun st k => st.mapWord (sourceLen old e) e k) s

/-- The handover map applied in map order (R425). -/
def State.applyMap (s : State) (old new : Schedule) : State := new.maps.foldl (fun st e => st.mapEntryApply old e) s

/-! ### Lap H (R319, R425) -/

/-- Laps in a frame of the schedule in force (R32). -/
def State.frameLength (s : State) : Nat := match s.running.schedule with | some r => max 1 r.frameLaps | none => 1

/-- What R425 asks of the fabric besides the frame boundary. -/
def State.handoverClear (s : State) : Bool :=
  s.update.ledger.isEmpty && s.commit.isNone && s.stagingPlace.isNone &&
    allSlots.all (fun t =>
      let x := s.tenant t
      x.bounce.state == .empty && x.staging.isNone && !x.restarting && !x.frozen)

/-- Forward to the next frame boundary of the running schedule, unless the machine stands at one (R32, R425). -/
def State.toFrame (s : State) : State :=
  if s.clock.slot = 0 ∧ s.clock.lap % s.frameLength = 0 then s
  else s.setClock (s.clock.toLap ((s.clock.lap / s.frameLength + 1) * s.frameLength))

/-- Badger after a handover to a program that the manifest has, or has not (R424, R425, R435): the program switches at its own edge. -/
def Badger.takePair (b : Badger) (m : Manifest) : Badger :=
  match m.badger.map programOf with
  | none => { b with program := none, inactive := none, policy := m.actuator }
  | some p => if b.program.isNone then { b with program := some p, policy := m.actuator } else { b with inactive := some p, policy := m.actuator }

/-- ACT_EN low when the new manifest has no key 6 or no key 8 (R435, R455); else it holds its level (R425). -/
def State.settlePermit (s : State) : State :=
  if s.badger.program.isNone ∨ s.badger.policy.isNone then s.drivePermit.latchIf (s.pads.actEn == .high) Ev.actWithdrawn else s

/-- The running pair replaced: keys 6, 7, 8 and 10 of the new manifest apply, key 11 from the next start (R424). -/
def State.takePair (s : State) (encoded image : Bytes) (new : Manifest) (old : Manifest) : State :=
  let unsigned := s.boot.life == .integrator && !signatureGood none encoded
  let first := s.slotOrder.headD .fa
  { s with
    running := { s.running with manifest := some { new with mailbox := old.mailbox }, schedule := some (scheduleOf image)
                                manifestBytes := encoded, image := image, handover := none, selfCheckDue := true }
    boot := { s.boot with marks := if unsigned then s.boot.marks ||| 1 else s.boot.marks
                          manifestAddr := some (slotAddr first + 0x20000) }
    badger := s.badger.takePair new
    flash := { s.flash with poolReady := s.flash.poolReady && new.spillRecords == old.spillRecords } }

/-- Lap H (R425–R428): the map, the switch, lap 0 of the new schedule with its records. -/
def State.handoverLap (s : State) (encoded image : Bytes) (new old : Manifest) (run : Schedule) : State :=
  let s := (s.toFrame).endLanes.applyMap run (scheduleOf image)
  let s := s.takePair encoded image new old
  let c := s.clock.nextLap true
  let s := { s with clock := { c with lap := 0 } }.settlePermit
  let s := if new.spillRecords = old.spillRecords then s else s.scanSpill new
  let next := scheduleOf image
  let s := s.record Code.handover 0xF0 (be 4 run.version ++ be 4 next.version ++ run.digest.take 6 ++ next.digest.take 6)
  s.versionsPairOf (some (s.slotOrder.headD .fa))

/-! ### The self-check (R428) -/

/-- A tenant's tag-root record stands as the fabric carries it: one found lost at the start stays outside the check (log 32). -/
def State.rootStands (s : State) (t : TSlot) : Bool :=
  (s.tenant t).rootLost || (s.liveRoot? t).isSome

/-- What the self-check verifies besides the frames: ledger half, audit head, tag-root records (R428). -/
def State.selfCheckPasses (s : State) : Bool :=
  s.liveHalf?.isSome &&
    (match s.ringRecord? (s.nextSequence - 1) with
     | some r => s.chains (s.nextSequence - 1) r
     | none => false) &&
    s.declared.all s.rootStands

end Sys2Proof.Machine
end

