-- ==== Sys2Proof/Machine/InstallRun.lean ====
section
/-!
DEFINITION. Install objects at work: the sequential intake (R414), the taking of an object that arrives whole (R407, R408), the stages
I1–I4 (R415).
-/
namespace Sys2Proof.Machine

/-- INSTALL_REFUSED of an object that is not taken, with its header returned to the sequential intake when it came by it (R407, R408,
R414). -/
def State.turnAway (s : State) (carrier : Byte) (object : Bytes) (reason : Byte) : State :=
  let s := if carrier = 2 then { s with update := { s.update with
      intakeHeader := headerWith (fit 64 0 object) 0x04 reason 0 0 } } else s
  s.installRefused (byteAt object 4) (if object.isEmpty then 0xFF else byteAt object 7) carrier reason 0 0 []

/-- An object that has arrived whole by the sequential intake or by PARCEL 0x03: taken, or turned away (R407, R408). The intake of a run
under a recovery schedule takes a pair, the one of a held tenant an image (R196; log 185). -/
def State.takeWhole (s : State) (carrier : Byte) (object : Bytes) : State :=
  let kind := byteAt object 4
  if kind ≠ (if carrier = 2 ∧ s.recoveryRun then 2 else 1) then s.turnAway carrier object Code.policy
  else if s.installBusy then s.turnAway carrier object Code.notReady
  else if allSlots.any (fun k => (s.tenant k).frozen) then s.turnAway carrier object Code.frozen
  else
    let i : Install :=
      { carrier := carrier, intake := none, kind := kind, slot := byteAt object 7, bodyLen := field object 8 4, object := object
        nextLeaf := 0, checked := false, version := 0, digest := [], generation := 0 }
    let header := headerWith (object.take 64) 0x02 0 0 0
    { s with update := { s.update with install := some i
                                       intakeHeader := if carrier = 2 then header else s.update.intakeHeader } }

/-- The bytes of a sequential intake after a page; `none` when its address is not the next expected one. A page at address 0 begins an
object anew (R414). -/
def intakeAfter (intake : Option (Nat × Bytes × Bool)) (a : Nat) (data : Bytes) : Option Bytes :=
  if a = 0 then some data
  else match intake with
    | some (next, bytes, false) => if a = next then some (bytes ++ data) else none
    | _ => none

/-- The length of the object that the bytes so far announce, once its header is there (R409). -/
def objectLength (bytes : Bytes) : Option Nat := if bytes.length < 64 then none else some (64 + field bytes 8 4)

/-- A page absorbed by the sequential intake of a held tenant (R414); an object that arrives while another is in work is turned away with its
first page (R408; log 116). -/
def State.absorbPage (s : State) (a : Nat) (data : Bytes) : State :=
  let ended := match s.update.intake with | some (_, _, e) => e | none => false
  match intakeAfter s.update.intake a data with
  | none =>
    if ended then s
    else
      let bytes := match s.update.intake with | some (_, b, _) => b | none => []
      { s with update := { s.update with intake := some (0, [], true) } }.turnAway 2 (bytes.take 64) Code.insOrder
  | some bytes =>
    if a = 0 ∧ s.objectBusy then { s with update := { s.update with intake := some (0, [], true) } }.turnAway 2 (bytes.take 64) Code.notReady
    else
      let s := { s with update := { s.update with intake := some (a + data.length, bytes, false) } }
      match objectLength bytes with
      | some n =>
        if n ≤ bytes.length ∧ objectSubmitted bytes then
          { s with update := { s.update with intake := none } }.takeWhole 2 (bytes.take n)
        else s
      | none => s

/-- The ROM's absorption of a page of the PA source (R191, R414): what follows the last page is the source's own. -/
def State.romPage (s : State) (a : Nat) (data : Bytes) : State :=
  match intakeAfter s.update.intake a data with
  | none =>
    let bytes := match s.update.intake with | some (_, b, _) => b | none => []
    { s with update := { s.update with intake := some (0, [], true)
                                       intakeHeader := headerWith (fit 64 0 bytes) 0x04 Code.insOrder 0 0 } }
  | some bytes => { s with update := { s.update with intake := some (a + data.length, bytes, false) } }

/-! ### I1–I4 (R413, R415) -/

/-- The laps that reading what is left of an object takes, one leaf a lap (R413). -/
def Install.lapsLeft (i : Install) : Nat := ceilDiv (64 + i.bodyLen - i.object.length) 1024

/-- The object read to its end under checked read; none when it does not fit the data region (R413). -/
def State.readObject (s : State) (i : Install) : Option Install :=
  match i.intake with
  | none => some i
  | some t =>
    match s.decl? t with
    | some d =>
      if d.dataStart + 64 + i.bodyLen ≤ d.dataEnd then
        let rest := s.checkedRead t d (d.dataStart + i.object.length) (64 + i.bodyLen - i.object.length)
        some (if i.object.length < 64 + i.bodyLen then { i with object := i.object ++ rest } else i)
      else none
    | none => none

/-- The first failed stage of I1–I4 with its reason and check number; the stages run to their ends (R415). -/
def State.stages (s : State) (i : Install) (body : Bytes) : Option (Byte × Nat) :=
  if !s.checkI1 i body then some (Code.insForm, 0)
  else match bodyParts i.kind body with
    | none => some (Code.insForm, 0)
    | some (stmt, content) =>
      if !(s.signatureStage stmt).1 then some (Code.insSig, 0)
      else match s.checkI3 i stmt content with
        | some r => some r
        | none => (s.checkI4 i).map (fun r => (r, 0))

/-- The version and digest prefix that an object's body names (R410, R411); none of an image whose length is out of range (R39). -/
def Install.named (i : Install) (body : Bytes) : Install :=
  match bodyParts i.kind body with
  | some (stmt, content) =>
    if i.kind = 1 then
      match payloadOf stmt with
      | some p => { i with version := (p.natAt 4).getD 0, digest := ((p.bytesAt 6).getD []).take 16 }
      | none => i
    else if i.kind = 2 ∧ imageLengthOk content then { i with version := field content 16 4, digest := (scheduleDigest content).take 16 }
    else i
  | none => i

/-- The Warden slots of the form stage and of the admission of a pair, which the stated lengths alone set (R47, R49, R228); none for the
other kinds. -/
def pairSlots (body : Bytes) : Nat :=
  let image := body.take (imageLength body)
  formSlots (statedLength (body.drop image.length)) + 5 * chargedLength image / 4

/-- A number of Warden's slots passes: they are spread over Warden's occupancy intervals (R49). -/
def State.wardenSlots (s : State) (n : Nat) : State :=
  match s.running.schedule with
  | some x => s.setClock (s.clock.forward (x.spread 0 (x.place s.clock) n) true)
  | none => s.pass n

/-- The stages run on the object in work (R415): it is refused, or stands checked. They take the laps of the reading, 2 laps of signature
check and the Warden slots of a pair (R49); a body that does not fit its region is not read (R413). -/
def State.checkInstall (s : State) (i : Install) : State :=
  match s.readObject i with
  | none => (s.setClock (s.clock.skipLaps 2 true)).refuseInstall Code.insForm 0
  | some j =>
    let body := j.object.drop 64
    let s := s.setClock (s.clock.skipLaps (i.lapsLeft + 2) true)
    let s := if i.kind = 2 then s.wardenSlots (pairSlots body) else s
    let i := j
    let i := i.named body
    let s := { s with update := { s.update with install := some i } }
    match s.stages i body with
    | some (reason, check) => s.refuseInstall reason check
    | none => { s with update := { s.update with install := some { i with checked := true } } }

end Sys2Proof.Machine
end

