-- ==== Sys2Proof/Machine/InstallCmd.lean ====
section
/-!
DEFINITION. Meanings of the commands of installs, trials, live self-update and parcels (R408–R433). A command whose condition does not
hold leaves the state as it is (log 14).
-/
namespace Sys2Proof.Machine

/-- INSTALL_CHECK (R413, R415): an object taken and not yet checked. -/
def execInstallCheck (s : State) : Out :=
  .next (match s.update.install with
  | some i => if s.awake ∧ !i.checked ∧ i.generation = 0 then s.checkInstall i else s
  | none => s)

/-- TENANT_IMAGE_INSTALL (R416): a checked object of kind 0x01, once flash changes are permitted (R122). -/
def execTenantImageInstall (s : State) : Out :=
  .next (match s.update.install, s.running.manifest with
  | some i, some m =>
    if s.awake ∧ s.commitClear ∧ i.kind = 1 ∧ i.checked ∧ i.generation = 0 then
      match s.decl? (slotOfNat i.slot.toNat), bodyParts i.kind (i.object.drop 64) with
      | some d, some (_, image) => (s.beginImage m d i image).startWork
      | _, _ => s
    else s
  | _, _ => s)

/-- SCHEDULE_PAIR_INSTALL (R420): a checked object of kind 0x02; or the pair of a start from PA or PEER, when nothing else is in
work (R198). -/
def execSchedulePairInstall (s : State) : Out :=
  .next (if s.awake ∧ s.commitClear then
    match s.update.install with
    | some i =>
      if i.kind = 2 ∧ i.checked ∧ i.generation = 0 then
        match i.pair with
        | some (manifest, image) => (s.beginPair i manifest image).startWork
        | none => s
      else s
    | none =>
      match s.update.pendingPair with
      | some (image, manifest) => if s.installBusy ∨ !s.staged then s else (s.beginReseal manifest image).startWork
      | none => s
  else s)

/-- TENANT_RESTART (R419): asked for, and the tenant's writes have drained. -/
def execTenantRestart (t : TSlot) (s : State) : Out :=
  .next (match s.decl? t with
  | some d => if s.awake ∧ (s.tenant t).waiting = 1 ∧ s.mayRestart t then s.restart t d else s
  | none => s)

/-- CONFIRM_WINDOW_EXPIRY (R422): the window's end is reached on the RTC; the tenant is restarted, from S after a wake. -/
def execConfirmWindowExpiry (t : TSlot) (s : State) : Out :=
  .next (match (s.tenant t).windowEnds, s.decl? t with
  | some e, some d =>
    if (s.power.phase = .n ∨ s.power.phase = .s) ∧ !s.probe.halted ∧ (s.trial t).onTrial then
      let awake := s.power.phase == .n
      let s := s.setClock (s.clock.forward (s.clock.slotsToRtc e) awake)
      let s := s.modTenant t (fun x => { x with windowEnds := none, waiting := 1 }) |>.latch (Ev.tenant t.val 7)
      if awake then (if s.mayRestart t then s.restart t d else s) else s.askWake
    else s
  | _, _ => s)

/-- REVERT_RETRY (R423): at slot 0 of a lap, with the commit monitor clear. -/
def execRevertRetry (t : TSlot) (s : State) : Out :=
  .next (if s.awake ∧ (s.tenant t).waiting = 2 ∧ s.commitClear ∧ !s.update.ledger.any (fun q => q.after == .revert t) then
    (s.setClock s.clock.toLapStart).askRevert t
  else s)

/-- HANDOVER_LAP (R425–R427). -/
def execHandoverLap (s : State) : Out :=
  .next (match s.running.handover, s.running.manifest, s.running.schedule with
  | some (encoded, image), some old, some run =>
    if s.awake ∧ s.handoverClear then
      match decodeManifest encoded with
      | some new => s.handoverLap encoded image new old run
      | none => s
    else s
  | _, _, _ => s)

/-- HANDOVER_SELF_CHECK (R428): once every engine has completed its first frame, and by slot 0 of lap 64. -/
def execHandoverSelfCheck (s : State) : Out :=
  .next (if s.awake ∧ s.running.selfCheckDue then
    let s := s.setClock (s.clock.toLap s.frameLength)
    if s.selfCheckPasses ∧ (s.clock.lap < 64 ∨ (s.clock.lap = 64 ∧ s.clock.slot = 0)) then
      { s with running := { s.running with selfCheckDue := false } }.record Code.handoverOk 0xFF (be 2 s.clock.lap)
    else s
  else s)

/-- HANDOVER_DEADLINE (R428): slot 0 of lap 64 with the self-check still due: a brown-out with cause HANDOVER. -/
def execHandoverDeadline (s : State) : Out :=
  .next (if s.awake ∧ s.running.selfCheckDue then (s.setClock (s.clock.toLap 64)).brownOut 5 else s)

/-- PARCEL_EXPORT (R430): steps E1 to E3 as far as the tenant's writes allow. -/
def execParcelExport (s : State) : Out :=
  .next (match s.running.manifest with
  | some m => if s.awake then s.exportOn m else s
  | none => s)

/-- PARCEL_IMPORT (R432): a complete parcel, once the free pool is known (R265). -/
def execParcelImport (s : State) : Out :=
  .next (match s.importReady?, s.running.manifest with
  | some x, some m => if s.awake ∧ s.flash.poolReady then s.importOn m x else s
  | _, _ => s)

/-- PARCEL_RESULT_TIMEOUT (R433): 4,096 lap boundaries after the last fragment. -/
def execParcelResultTimeout (s : State) : Out :=
  .next (match s.update.exporting with
  | some e =>
    if s.awake ∧ e.step = 3 ∧ e.count ≤ e.next then
      (s.setClock (s.clock.toBoundary (e.lastSent + 4096) true)).abortExportFree
    else s
  | none => s)

end Sys2Proof.Machine
end

