-- ==== Sys2Proof/Machine/Lane.lean ====
section
/-!
DEFINITION. Meanings of the staging, window, Cipher, cache and lane commands. A command whose condition does not hold leaves the
state as it is (log 14).
-/
namespace Sys2Proof.Machine

/-! ### Ends of Cipher intervals (R294) -/

/-- LEAF_VERIFY_DONE (R294): at the end slot of the lane's interval, whatever the outcome. -/
def execLeafVerifyDone (lane : Fin 2) (s : State) : Out := .next (if s.awake then (s.toLaneEnd lane).pump else s)

/-! ### Ticket windows (R332) -/

/-- The window of a tenant that is being staged (R232, R295): its next leaf. -/
def State.serveStaging (s : State) (m : Manifest) (t : TSlot) (d : TenantDecl) (lane : Fin 2) : State :=
  match (s.tenant t).staging with
  | some g =>
    if g.next < stagingLeaves d.denShare then
      let p := s.stagingAt m d g.generation g.next
      if s.programHolds (refChip p.1) then s
      else
        let j : LaneJob := ⟨.staging t, .data, g.next, p.1, s.stagingFetch m d g.generation g.next, [], 0, 0⟩
        (s.takeLane lane j).modTenant t (fun x => { x with staging := some { g with next := g.next + 1 } })
    else s
  | none => s

/-- A merge fetch of the tenant's commit (R317, R332), when it has one to make. -/
def State.serveMerge (s : State) (m : Manifest) (t : TSlot) (d : TenantDecl) (lane : Fin 2) : Option State :=
  match s.commit with
  | some c =>
    if c.tenant = t ∧ c.stage = .merge ∧ c.asked then
      match commitNeed c d with
      | some (k, no) =>
        match s.commitPlace? m d c k no with
        | none => some (s.mergeFailed d c k no unwritten)
        | some (ref, off, serial, tag) =>
          if s.flash.dead[refChip ref] then some (s.failCommit 0x08 c.held)
          else match s.windowFetch? ref off with
            | none => some s
            | some bytes => some ({ s with commit := some { c with asked := false } }.takeLane lane ⟨.merge t, k, no, ref, bytes, tag, serial, 0⟩)
      | none => none
    else none
  | none => none

/-- A tenant window serves its owner (R331, R332). -/
def State.serveOwner (s : State) (m : Manifest) (t : TSlot) (d : TenantDecl) (lane : Fin 2) : State :=
  let x := s.tenant t
  if x.staging.isSome then s.serveStaging m t d lane
  else if x.life = .released then
    match s.serveMerge m t d lane with
    | some s => s
    | none => s.serveChain m t d lane
  else s

/-- The owner of a tenant window in this lap: while the start stages, the tenant in turn takes all but the quota windows of those
decided (R232); then R328 and R329. -/
def State.ownerNow (s : State) (k : Nat) : Option TSlot :=
  let ds := s.inOrder
  match s.stagingPlace with
  | some place =>
    match quotaOwner ds k, s.atPlace place with
    | some t, some d => if (ds.take place).any (fun e => e.slot == t) then some t else some d.slot
    | none, some d => some d.slot
    | _, none => none
  | none => windowOwner ds s.clock.lap k

/-- The fetch orders of a read that touches some sectors: each of their chips once (R251, R266). -/
def State.fetchOrders (s : State) (refs : List Nat) : State :=
  [(0 : Fin 2), 1].foldl (fun st c => if refs.any (fun r => refChip r == c) then st.fetchOrder c else st) s

/-- Whether a window that reads some sectors serves no fetch: one of their chips is held (R266, R267, R336). -/
def State.windowHeld (s : State) (refs : List Nat) : Bool := refs.any (fun r => s.programHolds (refChip r))

/-- Warden's reserved window: the next leaf of the install object in work, under checked read (R266, R413). -/
def State.serveWarden (s : State) (m : Manifest) : State :=
  match s.update.install with
  | some i =>
    match i.intake, i.checked with
    | some t, false =>
      match s.decl? t with
      | some d =>
        let a := d.dataStart + 1024 * i.nextLeaf
        let refs := s.leafRefs m t d (d.dataLeaf a)
        if i.object.length < 64 + i.bodyLen ∧ d.dataStart + 64 + i.bodyLen ≤ d.dataEnd ∧ !s.windowHeld refs then
          let leaf := s.checkedRead t d a 1024
          let s := s.fetchOrders refs
          let new := if i.nextLeaf = 0 then leaf.drop 64 else leaf
          { s with update := { s.update with install := some { i with
              object := (i.object ++ new).take (64 + i.bodyLen), nextLeaf := i.nextLeaf + 1 } } }
        else s
      | none => s
    | _, _ => s
  | none => s

/-- Ledger's reserved window: the last leaf of the spilled batch that the next batch drops (R42, R467). -/
def State.serveLedger (s : State) : State :=
  match s.audit.spilled with
  | (_, sector) :: _ =>
    if s.spillRecords / 64 ≤ s.audit.spilled.length ∧ s.audit.oldest.isNone then
      match s.windowFetch? sector 3072 with
      | some leaf => { s.fetchOrder (refChip sector) with audit := { s.audit with oldest := some leaf } }
      | none => s
    else s
  | [] => s

/-- TICKET_WINDOW (R328–R332, R413): the Cipher intervals that have ended by its start are worked first; the lane that it takes is free
again (A8). -/
def execTicketWindow (w : Fin 30) (s : State) : Out :=
  .next (if s.awake then
    match s.window? w, s.running.manifest with
    | some (start, cls), some m =>
      let s := s.setClock (s.clock.toTicket w.val start)
      let s := s.endDue.verifyLane (s.cipherLane start)
      if s.flash.cutAt.isSome then s.pump
      else if cls = 1 then (s.serveWarden m).pump
      else if cls = 2 then s.serveLedger.pump
      else if cls = 3 then
        match s.ownerNow (s.tenantWindow w) with
        | some t => match s.decl? t with
          | some d => (s.serveOwner m t d (s.cipherLane start)).pump
          | none => s.pump
        | none => s.pump
      else s.pump
    | _, _ => s
  else s)

/-! ### Cache, polls, limits -/

/-- CACHE_PUBLICATION (R303, R304, R313). -/
def execCachePublication (t : TSlot) (s : State) : Out :=
  .next (if s.awake then (s.toStart 9).endDue.modTenant t Tenant.publishCache else s)

/-- Whether a tenant is served: released or degraded (R272). -/
def Tenant.served (x : Tenant) : Bool := x.life == .released || x.life == .degraded

/-- LANE_POLL (R281, R282). -/
def execLanePoll (t : TSlot) (s : State) : Out :=
  .next (if s.awake ∧ (s.tenant t).served then
    match s.decl? t with
    | some d => (s.toPoll (Ev.tenant t.val 0)).endDue.pollLane t d
    | none => s
  else s)

/-- The boundary count at which the first chain or write of a tenant reaches its deferral limit (R314, R333). -/
def Tenant.limitAt (x : Tenant) (limit : Nat) : Option Nat :=
  let laps := (x.chains.filter (fun c => !c.served)).map (·.lap) ++ (x.write.toList ++ x.writes).map (·.lap)
  match laps with
  | [] => none
  | l :: rest => some (rest.foldl min l + limit + 1)

/-- The writes that waited past their limit refused with FULL, oldest first (R314, R340). -/
def State.expireWrite (s : State) (t : TSlot) (limit : Nat) : State :=
  let late := fun (w : PendingWrite) => decide (w.lap + limit < s.clock.boundaries)
  let due := ((s.tenant t).write.toList ++ (s.tenant t).writes).filter late
  let s := s.modTenant t (fun x => { x with write := x.write.filter (fun w => !late w), writes := x.writes.filter (fun w => !late w) })
  due.foldl (fun st w => ((st.refuse t Code.full w.opcode w.op.addr 0).clearWip t).endWrite t (some w) Code.full) s

/-- Chains that were not served within the limit refused with QUOTA (R333, R335). -/
def State.expireChains (s : State) (t : TSlot) (limit : Nat) : State :=
  let due := (s.tenant t).chains.filter (fun c => !c.served && decide (c.lap + limit < s.clock.boundaries))
  due.foldl (fun st c =>
    let st := st.modTenant t (fun x => x.endChain c.leaf)
    (st.refuse t Code.quota c.opcode c.addr 0).endReads t Code.fRead c.addr Code.quota) s

/-- DEFERRAL_LIMIT_EXPIRY (R314, R333, R335): at the first lane poll after the limit. -/
def execDeferralLimitExpiry (t : TSlot) (s : State) : Out :=
  .next (if s.awake ∧ (s.tenant t).served then
    match s.decl? t with
    | some d =>
      match (s.tenant t).limitAt d.deferral with
      | some b =>
        let s := s.setClock (s.clock.toBoundary b true)
        let s := ((s.markDeferred t).expireChains t d.deferral).expireWrite t d.deferral
        (s.modTenant t Tenant.liveBits).publish t
      | none => s
    | none => s
  else s)

/-! ### The decision of a staging -/

/-- The staging of a tenant brought to its decision: leaves not yet read are read and verified (R204, R233). A held tenant that passes is
released at slot 0 of the lap after (R209). -/
def State.decideTenant (s : State) (t : TSlot) (d : TenantDecl) (m : Manifest) (g : Staging) : State :=
  let s := s.setClock (s.clock.toLap g.decisionLap)
  let s := s.stageRest t d m (stagingLeaves d.denShare)
  match (s.tenant t).staging with
  | none => s
  | some g =>
    let reason := s.imageReason t d g
    let s := s.modTenant t (fun x => { x with staging := none })
    let s := if g.again then s.versionsTenant t reason else (s.versionsAll t reason).appendAll
    let s := if reason = 0 ∧ (s.tenant t).life = .held then (s.setClock (s.clock.nextLap true)) else s
    if reason = 0 then s.releaseTenant t d else s.failTenant t d reason

/-- STAGING_DECISION (R204, R205, R232, R233). -/
def execStagingDecision (t : TSlot) (s : State) : Out :=
  .next (if s.awake then
    match s.decl? t, s.running.manifest, (s.tenant t).staging with
    | some d, some m, some g =>
      let turn := s.inTurn t && !g.again
      let s := s.decideTenant t d m g
      if turn then s.nextPlace else s
    | _, _, _ => s
  else s)

end Sys2Proof.Machine
end

