-- ==== Sys2Proof/Machine/Mailbox.lean ====
section
/-!
DEFINITION. Meanings of the mailbox commands and of the event poll. A command whose condition does not hold leaves the state as it is
(log 14).
-/
namespace Sys2Proof.Machine

/-- Both sides of a shared channel at one edge: the lower identity first (R62). -/
def sendsInOrder (a b : NoticeReq) : NoticeReq × NoticeReq := if b.sender.val < a.sender.val then (b, a) else (a, b)

/-- NOTICE_SEND (R57–R62, R66, R67). -/
def execNoticeSend (ch : Fin 12) (req : NoticeReq) (other : Option NoticeReq) (s : State) : Out :=
  .next (if s.masterRuns req.sender.val then
    match other with
    | none =>
      let (st, s) := s.channelSend ch req
      { s with mailbox := { s.mailbox with sendStatus := (st, 0) } }
    | some o =>
      if s.masterRuns o.sender.val ∧ o.sender ≠ req.sender then
        let p := sendsInOrder req o
        let (first, s) := s.channelSend ch p.1
        let (second, s) := s.channelSend ch p.2
        let own := p.1 == req
        { s with mailbox := { s.mailbox with sendStatus := if own then (first, second) else (second, first) } }
      else s
  else s)

/-- NOTICE_RECEIVE (R63, R64): a fabric master receives at a polling slot of its side's event. -/
def execNoticeReceive (ch : Fin 12) (reader : Fin 16) (s : State) : Out :=
  .next (if s.masterRuns reader.val then
    let s := match s.sideEvent? ch reader.val with | some n => s.atPoll (Ev.mailbox n) | none => s
    s.channelReceive ch reader.val
  else s)

/-- EVENT_POLL (R33, R34, R50, R64): at the event's next polling slot its consumer reads the bit and clears it; the receiver of a mailbox
event reads every unread notice; an occurrence in the same slot stays latched. -/
def execEventPoll (e : Fin 256) (relatch : Bool) (s : State) : Out :=
  .next (if s.awake then
    let s := s.toPoll e.val
    let t := { s.clearEvent e.val with polled := s.eventBit e.val }
    let t := if 200 ≤ e.val ∧ e.val ≤ 207 then t.readMail (e.val - 200) else t
    t.latchIf relatch e.val
  else s)

end Sys2Proof.Machine
end

