-- ==== Sys2Proof/Machine/ParcelCmd.lean ====
section
/-!
DEFINITION. Meanings of the PARCEL frames: tenant parcels and their result (R430, R432), recovery pairs (R192, R383, R407), tenant images from
the lead (R384, R385, R407). A command whose condition does not hold leaves the state as it is (log 14).
-/
namespace Sys2Proof.Machine

/-- The parts of a PARCEL payload (R351). -/
def parcelContentOf (p : Bytes) : Byte := byteAt p 0
def parcelTransferOf (p : Bytes) : BitVec 16 := BitVec.ofNat 16 (field p 1 2)
def parcelIndexOf (p : Bytes) : Nat := field p 3 2
def parcelCountOf (p : Bytes) : Nat := field p 5 2

/-- A fragment of a content. -/
def isFragment (content : Byte) (p : Bytes) : Bool := parcelContentOf p == content && parcelCountOf p != 0

/-- A result or request of a content: no fragment. -/
def isMessage (content : Byte) (p : Bytes) : Bool := parcelContentOf p == content && parcelCountOf p == 0

/-- A transfer that a fragment begins. -/
def transferOf (u p : Bytes) : Transfer :=
  { peer := u, content := parcelContentOf p, transfer := parcelTransferOf p, count := parcelCountOf p, parts := [] }

/-- Whether a fragment belongs to a transfer. -/
def Transfer.takes (x : Transfer) (u p : Bytes) : Bool :=
  x.peer == u && x.content == parcelContentOf p && x.transfer == parcelTransferOf p && x.count == parcelCountOf p

/-- A fragment stored in the transfer it belongs to; a fragment of another one begins that one. -/
def storeFragment (x : Option Transfer) (u p : Bytes) : Transfer :=
  let y := match x with | some y => if y.takes u p then y else transferOf u p | none => transferOf u p
  y.store (parcelIndexOf p) (p.drop 7)

/-! ### Tenant parcels (R430, R432) -/

/-- A fragment acknowledged (R432); the flag byte of an ACK to a unit is open (log 2). -/
def State.ackFragment (s : State) (f : Frame) : State :=
  let (b, s) := s.freeBytes 1
  s.send (outFrame (.peer f.peer) Code.fAck f.request true b)

/-- A fragment of the import in work stored once and acknowledged (R432). -/
def State.importFragment (s : State) (f : Frame) (x : Transfer) (p : Bytes) : State :=
  { s with update := { s.update with importing := some (x.store (parcelIndexOf p) (p.drop 7)) } }.ackFragment f

/-- The first fragment of an import: its state record is written with step 1 (R432). -/
def State.importStarts (s : State) (f : Frame) (u p : Bytes) : State :=
  if s.installBusy then s.refuseFrame f Code.notReady 0xFFFFFF 0
  else
    let slot : Byte := if parcelIndexOf p = 0 then byteAt (p.drop 7) 5 else 0xFF
    (s.writeParcel importRecordAt 1 slot (parcelTransferOf p) u).importFragment f (transferOf u p) p

/-- A fragment of a tenant parcel from a unit in session. -/
def State.takeParcel (s : State) (f : Frame) (u p : Bytes) : State :=
  match s.update.importing with
  | none => s.importStarts f u p
  | some x =>
    if x.takes u p then s.importFragment f x p
    else if x.peer = u ∧ !s.importBegun then
      let (r, s) := s.freeReason
      (s.abortImport r).importStarts f u p
    else s.refuseFrame f Code.notReady 0xFFFFFF 0

/-- PARCEL_TENANT_FRAGMENT (R432). -/
def execParcelTenantFragment (f : Frame) (s : State) : Out :=
  .next (s.frame f Code.fParcel (isFragment 0x01) (fun s p =>
    let s := s.latch Ev.parcel
    match f.peer with
    | .unit u => s.takeParcel f u p
    | .module _ => s))

/-- PARCEL_RESULT (R430, R433). -/
def execParcelResult (f : Frame) (s : State) : Out :=
  .next (s.frame f Code.fParcel (isMessage 0x01) (fun s p =>
    let s := s.latch Ev.parcel
    match s.update.exporting with
    | some e =>
      if f.peer = Peer.unit e.target ∧ parcelTransferOf p = e.transfer ∧ e.step = 3 then
        if byteAt p 7 ≠ 0 then s.abortExport (byteAt p 7)
        else if e.count ≤ e.next + 1 then (s.forgetRequest e.target).askExported e
        else s
      else s
    | none => s))

/-! ### Recovery pairs (R192, R383) -/

/-- Whether the ROM takes a frame while it tries PEER: addressed to its own unit number, from a unit, CRC-16 good (R192). -/
def State.romTakes (s : State) (f : Frame) : Bool :=
  s.power.phase == .b && s.attempting? == some .peer && f.dstNode == 0 && f.dstUnit == s.unitNumber && f.srcNode == 0 && f.formOk &&
    !f.isSealed && f.check == be 2 (crc16 (f.head ++ f.payload)).toNat

/-- A fragment of a recovery pair at the ROM: the whole pair ends the attempt (R192, R193). -/
def State.romFragment (s : State) (u p : Bytes) : State :=
  let x := storeFragment s.link.receiving u p
  if x.complete then { s with link := { s.link with receiving := none } }.objectArrived .peer x.bytes
  else { s with link := { s.link with receiving := some x } }

/-- PARCEL_RECOVERY_PAIR (R192, R407): the ROM receives; a running unit refuses the carrier. -/
def execParcelRecoveryPair (f : Frame) (s : State) : Out :=
  .next (if s.power.phase = .b then
    (if s.romTakes f ∧ f.kind = Code.fParcel ∧ isFragment 0x02 f.payload then s.romFragment f.srcUnit f.payload else s)
  else s.frame f Code.fParcel (isFragment 0x02) (fun s _ => (s.latch Ev.parcel).refuseFrame f Code.policy 0xFFFFFF 0))

/-- An install object of a kind for a slot (R409). -/
def installObject (kind slot : Byte) (body : Bytes) : Bytes :=
  be 4 0x42584958 ++ [kind, 0x01, 0x00, slot] ++ be 4 body.length ++ zeros 52 ++ body

/-- A recovery pair in install form, of the pair the lead itself started from: the schedule's seal is zero (R383, R386, R411). -/
def State.recoveryPair (s : State) : Bytes :=
  let (image, encoded) := s.running.startPair.getD (s.running.image, s.running.manifestBytes)
  installObject 0x02 0xFF (image.take (image.length - 32) ++ zeros (min 32 image.length) ++ encoded)

/-- The fragments of an object queued to a unit, unsealed, under a transfer identifier of their own (R350, R351, R383, R385). -/
def State.sendTransfer (s : State) (u : Bytes) (content request : Byte) (object : Bytes) : State :=
  let (n, s) := s.newTransfer
  let count := ceilDiv object.length 240
  (List.range count).foldl (fun st i =>
    st.send (outFrame (.peer (.unit u)) Code.fParcel request false (parcelPayload content n i count (fragment object i)))) s

/-- Whether fragments of a content to a unit still wait to go out. -/
def State.sending (s : State) (u : Bytes) (content : Byte) : Bool :=
  s.link.outbox.any (fun o => o.kind == Code.fParcel && o.dest == .peer (.unit u) && byteAt o.payload 0 == content)

/-- Whether a manifest's binding admits a unit number (R217). -/
def Binding.admits (b : Binding) (unit : Bytes) : Bool :=
  match b with
  | .one u => u == unit
  | .list us => us.contains unit
  | .any => true

/-- RECOVERY_PAIR_CYCLE (R383): for 40,960 laps after the loss of a member that the binding admits. -/
def execRecoveryPairCycle (unit : Bytes) (s : State) : Out :=
  .next (match s.awake && s.link.role == .lead, s.link.lostMembers.find? (fun x => x.1 == unit), s.running.manifest with
    | true, some (_, b), some m =>
      if s.clock.boundaries < b + 40960 ∧ m.binding.admits unit ∧ !s.sending unit 0x02 then s.sendTransfer unit 0x02 0 s.recoveryPair
      else s
    | _, _, _ => s)

/-! ### Tenant images from the lead (R384, R385) -/

/-- A fragment of an image from the lead: the whole object is taken as an install (R385, R407, R408). -/
def State.imageFragment (s : State) (f : Frame) (u p : Bytes) : State :=
  let s := match s.requestOf? f Code.fParcel with
    | some r => if byteAt r.frame.payload 0 = 0x03 then s.setRequest none else s
    | none => s
  if s.link.receiving.isNone ∧ s.installBusy then s.refuseFrame f Code.notReady 0xFFFFFF 0
  else
    let x := storeFragment s.link.receiving u p
    if x.complete then { s with link := { s.link with receiving := none } }.takeWhole 3 x.bytes
    else { s with link := { s.link with receiving := some x } }

/-- PARCEL_IMAGE_FRAGMENT (R385, R407). -/
def execParcelImageFragment (f : Frame) (s : State) : Out :=
  .next (s.frame f Code.fParcel (isFragment 0x03) (fun s p =>
    let s := s.latch Ev.parcel
    if s.link.role = .member ∧ s.link.lead.map Peer.unit = some f.peer then s.imageFragment f f.srcUnit p
    else s.refuseFrame f Code.policy 0xFFFFFF 0))

/-- A slot whose installed image answers a recovery request: released, not flagged UNSIGNED, of the digest prefix asked for (R385). -/
def State.holdsImage (s : State) (prefix_ : Bytes) (t : TSlot) : Bool :=
  let h := s.ledger
  (s.tenant t).life == .released && entryInstalled h t && !entryUnsigned h t && (s.tenant t).generation == entryImageGen h t &&
    (allBytes 0 prefix_ || entryDigest h t == prefix_)

/-- The image of a slot in install form for a target slot: statement and length as the open values of log 21, bytes from the Den. -/
def State.imageObject (s : State) (t : TSlot) (target : Byte) : Bytes :=
  let digest := entryDigest s.ledger t
  installObject 0x01 target (Config.installStatement digest ++ s.denBytes (4096 * (s.tenant t).denBase) (Config.imageLength digest))

/-- A recovery request at the lead (R385). -/
def State.recoveryAsked (s : State) (f : Frame) (u p : Bytes) : State :=
  if s.link.outbox.any (fun o => o.kind == Code.fParcel && byteAt o.payload 0 == 0x03) then s.waitFrame f 4096
  else match allSlots.find? (s.holdsImage (slice p 8 16)) with
    | some t => s.sendTransfer u 0x03 f.request (s.imageObject t (byteAt p 7))
    | none => s.refuseFrame f Code.policy 0xFFFFFF 0

/-- PARCEL_RECOVERY_REQUEST (R385, R387): only of a member in session with the lead. -/
def execParcelRecoveryRequest (f : Frame) (s : State) : Out :=
  .next (s.frame f Code.fParcel (isMessage 0x03) (fun s p =>
    let s := s.latch Ev.parcel
    match f.peer with
    | .unit u =>
      if s.link.role = .lead ∧ (s.session? f.peer).isSome then s.recoveryAsked f u p else s.refuseFrame f Code.policy 0xFFFFFF 0
    | .module _ => s))

/-- RECOVERY_REQUEST_SEND (R384): at the release decision and every 4,096 laps while the tenant stays held. -/
def execRecoveryRequestSend (t : TSlot) (s : State) : Out :=
  .next (match s.awake && s.link.role == .member && s.link.request.isNone, s.link.lead, s.recoverySource? t with
    | true, some l, some .peer =>
      if (s.tenant t).life = .held ∧ (s.session? (.unit l)).isSome then
        let s := match s.link.recoveryAsked.find? (fun x => x.1 == t) with
          | some (_, b) => s.reach (b + 4096)
          | none => s
        let (n, s) := s.newTransfer
        let digest := if s.boot.ledgerLost then zeros 16 else entryDigest s.ledger t
        let s := s.ask (.peer (.unit l)) Code.fParcel false (parcelPayload 3 n 0xFFFF 0 (slotByte t :: digest))
        let others := s.link.recoveryAsked.filter (fun (x : TSlot × Nat) => x.1 != t)
        { s with link := { s.link with recoveryAsked := others ++ [(t, s.clock.boundaries)] } }
      else s
    | _, _, _ => s)

end Sys2Proof.Machine
end

