-- ==== Sys2Proof/Machine/PortRun.lean ====
section
/-!
DEFINITION. Meanings of the commands at ports A and B (R274–R284, R306, R414, R475). A command that nothing answers leaves the front
end as it is, but for what it drove last (log 14).
-/
namespace Sys2Proof.Machine

/-- A read of a tenant (R274, R275, R306): honoured with its group, else filtered with what IO0 carried. -/
def State.groupRead (s : State) (p : Port) (g : Option Group) (opcode : Byte) (addr : BitVec 24) (count : Nat) (io0 : Option (BitVec 24)) :
    State :=
  match s.view p with
  | .tenant t d =>
    let honoured := match g with | some g => (s.tenant t).hasGroup g | none => true
    if !honoured then s.filter p t opcode io0
    else if (s.port p).takes then s.tenantRead p t d opcode addr.toNat count
    else s
  | _ => s

/-- READ_DATA 03h (R275, R306, R414, R475). -/
def execReadData (p : Port) (addr : BitVec 24) (count : Nat) (s : State) : Out :=
  let s := s.beginCommand p
  .next (match s.view p with
  | .intake => if (s.port p).takes then s.intakeRead p addr.toNat count else s
  | .readout => if (s.port p).takes then s.readoutRead p addr.toNat count else s
  | _ => s.groupRead p none 0x03 addr count (some addr))

/-- FAST_READ 0Bh (R275, R475). -/
def execFastRead (p : Port) (addr : BitVec 24) (count : Nat) (s : State) : Out :=
  let s := s.beginCommand p
  .next (match s.view p with
  | .readout => if (s.port p).takes then s.readoutRead p addr.toNat count else s
  | _ => s.groupRead p (some .fast) 0x0B addr count (some addr))

/-- DUAL_OUTPUT_READ 3Bh (R275). -/
def execDualOutputRead (p : Port) (addr : BitVec 24) (count : Nat) (s : State) : Out :=
  .next ((s.beginCommand p).groupRead p (some .dual) 0x3B addr count (some addr))

/-- DUAL_IO_READ BBh (R275). -/
def execDualIoRead (p : Port) (addr : BitVec 24) (mode : Byte) (count : Nat) (s : State) : Out :=
  let (io0, s) := (s.beginCommand p).dualIoBytes addr mode count
  .next (s.groupRead p (some .dual) 0xBB addr count io0)

/-- QUAD_OUTPUT_READ 6Bh (R275). -/
def execQuadOutputRead (p : Port) (addr : BitVec 24) (count : Nat) (s : State) : Out :=
  .next ((s.beginCommand p).groupRead p (some .quad) 0x6B addr count (some addr))

/-- QUAD_IO_READ EBh (R275). -/
def execQuadIoRead (p : Port) (addr : BitVec 24) (mode : Byte) (count : Nat) (s : State) : Out :=
  let (io0, s) := (s.beginCommand p).quadIoBytes addr mode count
  .next (s.groupRead p (some .quad) 0xEB addr count io0)

/-- WEL set or cleared where the command is honoured (R275, R414, R475). -/
def State.setWel (s : State) (p : Port) (opcode : Byte) (v : Bool) : State :=
  let put := fun (st : State) => if (st.port p).takes then st.modPort p (fun x => { x with wel := v }) else st
  match s.view p with
  | .intake => put s
  | .readout => if v then put s else s
  | .tenant t _ => if (s.tenant t).hasGroup .program then put s else s.filter p t opcode none
  | .silent => s

/-- WRITE_ENABLE 06h (R275). -/
def execWriteEnable (p : Port) (s : State) : Out := .next ((s.beginCommand p).setWel p 0x06 true)

/-- WRITE_DISABLE 04h (R275). -/
def execWriteDisable (p : Port) (s : State) : Out := .next ((s.beginCommand p).setWel p 0x04 false)

/-- A page at the sequential intake (R414): WEL and WIP are clear again once it is absorbed. -/
def State.intakePage (s : State) (a : Nat) (data : Bytes) : State :=
  if (s.port .a).mayWrite true ∧ data.length = 256 ∧ a % 256 = 0 then
    let s := s.modPort .a (fun x => { x with wel := false })
    if (s.port .a).mode = .intake then (s.romPage a data).romArrived else s.absorbPage a data
  else s

/-- A statement request in the readout start (R475): at 0x011000, 16 bytes, after 06h; the ROM appends its record at once. -/
def State.readoutRequest (s : State) (nonce : Bytes) : State :=
  if (s.port .a).mayWrite true ∧ nonce.length = 16 ∧ s.statements.queue.isEmpty then
    let s := s.modPort .a (fun x => { x with wip := true, wel := false })
    (s.askStatement .readout nonce).1.fixStatement
  else s

/-- PAGE_PROGRAM 02h (R275, R285, R314). -/
def execPageProgram (p : Port) (addr : BitVec 24) (data : Bytes) (onByte : Bool) (s : State) : Out :=
  let s := s.beginCommand p
  .next (match s.view p with
  | .intake => if onByte then s.intakePage addr.toNat data else s
  | .readout => if onByte ∧ addr = 0x011000 then s.readoutRequest data else s
  | .tenant t d =>
    if !(s.tenant t).hasGroup .program then s.filter p t 0x02 (some addr)
    else if (s.port p).mayWrite onByte ∧ data ≠ [] then s.takeWrite p t d 0x02 (.program addr.toNat data)
    else s
  | .silent => s)

/-- INTAKE_PAGE_PROGRAM (R414): a page program at the sequential intake of port A. -/
def execIntakePageProgram (addr : BitVec 24) (data : Bytes) (s : State) : Out :=
  let s := s.beginCommand .a
  .next (match s.view .a with
  | .intake => s.intakePage addr.toNat data
  | _ => s)

/-- READOUT_STATEMENT_REQUEST (R475). -/
def execReadoutStatementRequest (nonce : Bytes) (s : State) : Out :=
  let s := s.beginCommand .a
  .next (match s.view .a with
  | .readout => s.readoutRequest nonce
  | _ => s)

/-- An erase of a tenant taken where its group is honoured (R275, R314). -/
def State.groupErase (s : State) (p : Port) (g : Group) (opcode : Byte) (addr : BitVec 24) (onByte : Bool) (op : WriteOp) : State :=
  match s.view p with
  | .tenant t d =>
    if !(s.tenant t).hasGroup g then s.filter p t opcode (some addr)
    else if (s.port p).mayWrite onByte then s.takeWrite p t d opcode op
    else s
  | _ => s

/-- SECTOR_ERASE_4K 20h (R275, R314). -/
def execSectorErase4k (p : Port) (addr : BitVec 24) (onByte : Bool) (s : State) : Out :=
  .next ((s.beginCommand p).groupErase p .erase4k 0x20 addr onByte (.erase4k addr.toNat))

/-- BLOCK_ERASE_64K D8h (R275, R314). -/
def execBlockErase64k (p : Port) (addr : BitVec 24) (onByte : Bool) (s : State) : Out :=
  .next ((s.beginCommand p).groupErase p .erase64k 0xD8 addr onByte (.erase64k addr.toNat))

/-- READ_STATUS 05h (R277, R279). -/
def execReadStatus (p : Port) (count : Nat) (s : State) : Out :=
  let s := s.beginCommand p
  .next (if s.view p = .silent ∨ (s.port p).deepDown then s else s.drive p (List.replicate count (s.port p).statusByte))

/-- READ_FLAG_STATUS 70h (R277, R280, R282). -/
def execReadFlagStatus (p : Port) (count : Nat) (s : State) : Out :=
  let s := s.beginCommand p
  .next (match s.view p with
  | .tenant t _ => if (s.port p).deepDown then s else s.drive p (List.replicate count (flagNow (s.tenant t) (s.port p).wip))
  | _ => s)

/-- CLEAR_FLAGS 50h (R277, R281). -/
def execClearFlags (p : Port) (s : State) : Out :=
  let s := s.beginCommand p
  .next (match s.view p with
  | .tenant t _ => if (s.port p).deepDown then s else s.report t .clearFlags (some 3)
  | _ => s)

/-- READ_SFDP 5Ah (R284). -/
def execReadSfdp (p : Port) (addr : BitVec 24) (count : Nat) (s : State) : Out :=
  let s := s.beginCommand p
  .next (match s.view p with
  | .tenant t d => if (s.port p).takes then s.drive p (sfdpRead (s.tenant t) d addr.toNat count) else s
  | _ => s)

/-- READ_ID 9Fh (R275, R414, R475). -/
def execReadId (p : Port) (count : Nat) (s : State) : Out :=
  let s := s.beginCommand p
  let answer := fun (id : Bytes) => if (s.port p).takes then s.drive p (fit count 0 id) else s
  .next (match s.view p with
  | .tenant _ d => answer d.idBytes
  | .intake => answer (if (s.port p).mode = .intake then [0x42, 0x58, 0x00] else s.intakeId)
  | .readout => answer [0x42, 0x58, 0x05]
  | .silent => s)

/-- RESET_ENABLE 66h (R278). -/
def execResetEnable (p : Port) (s : State) : Out :=
  let s := s.beginCommand p
  .next (match s.view p with
  | .tenant _ _ => s.modPort p (fun x => { x with resetArmed := true })
  | _ => s)

/-- RESET 99h (R278): only right after 66h. -/
def execReset (p : Port) (s : State) : Out :=
  let armed := (s.port p).resetArmed
  let s := s.beginCommand p
  .next (match s.view p with
  | .tenant _ _ => if armed then s.modPort p (fun x => { x with wel := false, deepDown := false }) else s
  | _ => s)

/-- DEEP_POWER_DOWN B9h (R278). -/
def execDeepPowerDown (p : Port) (s : State) : Out :=
  let s := s.beginCommand p
  .next (match s.view p with
  | .tenant t _ =>
    if !(s.tenant t).hasGroup .powerDown then s.filter p t 0xB9 none
    else if (s.port p).takes then s.modPort p (fun x => { x with deepDown := true })
    else s
  | _ => s)

/-- RELEASE_POWER_DOWN ABh (R278): past 24 further clocks it returns the third of the ID bytes. -/
def execReleasePowerDown (p : Port) (count : Nat) (s : State) : Out :=
  let s := s.beginCommand p
  .next (match s.view p with
  | .tenant t d =>
    if !(s.tenant t).hasGroup .powerDown then
      if count = 0 then s.filter p t 0xAB none
      else
        let (n, s) := s.freeBelow 16777216
        s.filter p t 0xAB (some (BitVec.ofNat 24 n))
    else if (s.port p).wip then s
    else (s.modPort p (fun x => { x with deepDown := false })).drive p (List.replicate count (byteAt d.idBytes 2))
  | _ => s)

/-- The group that honours an opcode of R275: `none` always, `some none` for no row. -/
def opcodeGroup (b : Byte) : Option (Option Group) :=
  match b.toNat with
  | 0x03 | 0x05 | 0x70 | 0x50 | 0x5A | 0x9F | 0x66 | 0x99 => some none
  | 0x0B => some (some .fast)
  | 0x3B | 0xBB => some (some .dual)
  | 0x6B | 0xEB => some (some .quad)
  | 0x06 | 0x04 | 0x02 => some (some .program)
  | 0x20 => some (some .erase4k)
  | 0xD8 => some (some .erase64k)
  | 0xB9 | 0xAB => some (some .powerDown)
  | _ => none

/-- Whether an opcode is in a tenant's set (R275). -/
def Tenant.honours (x : Tenant) (b : Byte) : Bool :=
  match opcodeGroup b with
  | some none => true
  | some (some g) => x.hasGroup g
  | none => false

/-- FILTERED_OPCODE (R276): an opcode outside the tenant's set. -/
def execFilteredOpcode (p : Port) (opcode : Byte) (addr : Option (BitVec 24)) (s : State) : Out :=
  let s := s.beginCommand p
  .next (match s.view p with
  | .tenant t _ => if (s.tenant t).honours opcode then s else s.filter p t opcode addr
  | _ => s)

/-- CHIP_SELECT_FALL_BEFORE_RELEASE (R236, R272, R419): counted at a bound port until its tenant's release and while it is held or in a
restart; not while the port serves an intake. -/
def execChipSelectFall (p : Port) (s : State) : Out :=
  .next (match s.portTenant p with
  | some t =>
    let x := s.tenant t
    let waits := x.restarting || x.life == .created || x.life == .held
    if waits ∧ s.power.portOn ∧ (s.power.phase = .b ∨ s.power.phase = .n ∨ s.power.phase = .s) ∧ !s.servesIntake p then
      let s := s.modPort p (fun q => { q with early := sat16 (q.early + 1) })
      if s.power.phase = .n then s.latch (Ev.tenant t.val 6) else s
    else s
  | none => s.hearFall p)

end Sys2Proof.Machine
end

