-- ==== Sys2Proof/Machine/Supply.lean ====
section
/-!
DEFINITION. Meanings of the supply, strap, clock, event and randomness commands. A command whose condition does not hold
leaves the state as it is (log 14).
-/
namespace Sys2Proof.Machine

/-- POWER_ON_RESET (R113). -/
def execPowerOnReset (vbat vddioH vddioF : Nat) (s : State) : Out :=
  .next (if s.releasesAt vbat then s.release vbat vddioH vddioF else s)

/-- The value of START's cause for a monitor that trips (R468). -/
def tripCode (c : TripCause) : Nat := match c with | .vbat => 1 | .vddioH => 2 | .vddioF => 2

/-- BROWN_OUT (R70, R83, R112, R113, R125): a monitor trips above phase R, and VBAT falls to a level; below 1.0 V it is power removal. -/
def execBrownOut (cause : TripCause) (vbat : Nat) (s : State) : Out :=
  .next ((if s.inReset then s else s.brownOut (tripCode cause)).fallTo vbat)

/-- COMMIT_MONITOR_TRIP (R121–R123): in phase S its event waits for the resume; a wipe of the ROM ends in a hold (R141). -/
def execCommitMonitorTrip (s : State) : Out :=
  .next (if s.inReset ∨ s.power.commitLow then s
    else match s.boot.stage with
      | .wiping _ _ _ => (s.commitTrip.latch Ev.commitTripped).holdWith Code.lcLowbat
      | _ => s.commitTrip.latch Ev.commitTripped)

/-- STRAP_WINDOW_OPEN (R70, R71, R76): phase P does not end while a bank supply lies outside its range. -/
def execStrapWindowOpen (i : StrapInputs) (s : State) : Out :=
  .next (if s.power.phase = .p ∧ bankHOk i.vddioH ∧ bankFOk i.vddioF then s.openWindow i else s)

/-- STRAP_KEEPER_LATCH (R76). -/
def execStrapKeeperLatch (fstrap astrap alertb : Option Nat) (s : State) : Out :=
  .next (if s.power.phase = .w ∧ s.straps.watching then s.latchKeepers fstrap astrap alertb else s)

/-- STRAP_WINDOW_END (R76). -/
def execStrapWindowEnd (s : State) : Out :=
  .next (if s.power.phase = .w ∧ s.straps.watching = false then s.endWindow else s)

/-- CONFIRMATION_PULSE_EDGE (R106): within window slots 0–63,487 SENSE3 takes a level; the comparator's output changes or keeps its value. -/
def execConfirmationPulseEdge (slot sense3 : Nat) (s : State) : Out :=
  .next (if s.power.phase = .w ∧ s.straps.watching ∧ s.clock.windowSlot ≤ slot ∧ slot ≤ 63487 ∧ watchOutput s.straps.train sense3 ≠ s.straps.train then
    s.trainEdge slot (watchOutput s.straps.train sense3) else s)

/-- BANK_SUPPLY_IN_RANGE (R72): PRST0#–PRST3# are driven low in phase P. -/
def execBankSupplyInRange (vddioH : Nat) (s : State) : Out :=
  .next (if s.power.phase = .p ∧ bankHOk vddioH then
    { s with power := { s.power with vddioH := vddioH }, pads := { s.pads with prst := allPrst .low } } else s)

/-- WATCHDOG_EXPIRY (R129): a brown-out with cause WDT. -/
def execWatchdogExpiry (s : State) : Out :=
  .next (if s.power.phase = .n ∧ s.power.wdtOn then s.brownOut 3 else s)

/-- Whether the fault monitor runs: phases W to N (R126). -/
def State.monitored (s : State) : Bool :=
  s.power.phase == .w || s.power.phase == .k || s.power.phase == .b || s.power.phase == .n

/-- GLITCH_MONITOR_ALARM (R129): a brown-out with cause GLT. -/
def execGlitchMonitorAlarm (s : State) : Out := .next (if s.monitored then s.brownOut 4 else s)

/-- LFXO_QUALIFIED (R126, R127): measured against HFRC, which is stopped in S (DEDUCED, log 180). -/
def execLfxoQualified (s : State) : Out :=
  .next (if s.inReset ∨ s.power.phase = .s ∨ s.power.lfxoQualified then s
    else
      let s := { s with power := { s.power with lfxoQualified := true, bdgOnLfxo := true, fllLocked := true } }
      ((s.latch Ev.lfxoQualified).latch Ev.bdgSwitched).latch Ev.fllLocked)

/-- LFXO_LOST (R128). -/
def execLfxoLost (s : State) : Out :=
  .next (if s.power.lfxoQualified then
    let s := { s with power := { s.power with lfxoQualified := false, bdgOnLfxo := false, fllLocked := false } }
    (s.latch Ev.lfxoLost).latch Ev.bdgSwitched
  else s)

/-- RTC ticks of the 1,200 ms after power-on reset, rounded up (R244). -/
def lfxoTicks : Nat := 39322

/-- LFXO_DEADLINE (R244): 1,200 ms after power-on reset. -/
def execLfxoDeadline (s : State) : Out :=
  .next (if s.inReset ∨ s.power.lfxoQualified ∨ s.power.lfxoLate then s
    else
      let s := s.pass (s.clock.slotsToRtc lfxoTicks)
      { s.latch Ev.lfxoLate with power := { s.power with lfxoLate := true } })

/-- TRNG_HEALTH_FAILURE (R403): the reseed that the failed bits would have made is skipped. -/
def execTrngHealthFailure (src : Fin 2) (test : TrngTest) (s : State) : Out :=
  .next (if s.power.phase = .b ∨ s.awake then
    let s := (s.latch (Ev.healthFailed src.val)).latch Ev.reseedSkipped
    let s := { s with clock := { s.clock with skipReseed := true } }
    let code : Byte := match test with | .repetition => 1 | .proportion => 2
    s.recordLimited Code.trngFault 0xFF (fun n => be 2 (sat16 (n + 1)) ++ [code])
  else s)

/-- DRBG_RESEED (R402): at slot 0 of every lap of phase N; its own event does not restart the idle count of R118 (log 27). -/
def execDrbgReseed (s : State) : Out :=
  .next (if s.awake then
    let c := s.clock.toLapStart
    if c.reseeded then s
    else if c.skipReseed then s.setClock { c with reseeded := true, skipReseed := false }
    else { (s.setClock { c with reseeded := true }).latch Ev.reseeded with sleep := s.sleep }
  else s)

end Sys2Proof.Machine
end

