-- ==== Sys2Proof/Machine/Dispatch.lean ====
section
/-!
DEFINITION. The one dispatch of the commands: one arm per constructor of `Instr`.
-/
namespace Sys2Proof.Machine

/-- The effect of a command on everything but the queue. -/
def exec (i : Instr) (s : State) : Host.Outcome State Fault Refusal :=
  match i with
  | .powerOnReset vbat vddioH vddioF => Sys2Proof.Machine.execPowerOnReset vbat vddioH vddioF s
  | .brownOut cause vbat => Sys2Proof.Machine.execBrownOut cause vbat s
  | .commitMonitorTrip => Sys2Proof.Machine.execCommitMonitorTrip s
  | .commitMonitorRelease => Sys2Proof.Machine.execCommitMonitorRelease s
  | .strapWindowOpen inputs => Sys2Proof.Machine.execStrapWindowOpen inputs s
  | .strapKeeperLatch fstrap astrap alertb => Sys2Proof.Machine.execStrapKeeperLatch fstrap astrap alertb s
  | .strapWindowEnd => Sys2Proof.Machine.execStrapWindowEnd s
  | .keeperGapEnd tripAfter => Sys2Proof.Machine.execKeeperGapEnd tripAfter s
  | .sourceAttemptTimeout => Sys2Proof.Machine.execSourceAttemptTimeout s
  | .recoveryWaitTimeout => Sys2Proof.Machine.execRecoveryWaitTimeout s
  | .readoutStatementRequest nonce => Sys2Proof.Machine.execReadoutStatementRequest nonce s
  | .stagingDecision t => Sys2Proof.Machine.execStagingDecision t s
  | .freePoolRebuild => Sys2Proof.Machine.execFreePoolRebuild s
  | .ticketWindow w => Sys2Proof.Machine.execTicketWindow w s
  | .leafVerifyDone lane => Sys2Proof.Machine.execLeafVerifyDone lane s
  | .cachePublication t => Sys2Proof.Machine.execCachePublication t s
  | .lanePoll t => Sys2Proof.Machine.execLanePoll t s
  | .deferralLimitExpiry t => Sys2Proof.Machine.execDeferralLimitExpiry t s
  | .readData p addr count => Sys2Proof.Machine.execReadData p addr count s
  | .fastRead p addr count => Sys2Proof.Machine.execFastRead p addr count s
  | .dualOutputRead p addr count => Sys2Proof.Machine.execDualOutputRead p addr count s
  | .dualIoRead p addr mode count => Sys2Proof.Machine.execDualIoRead p addr mode count s
  | .quadOutputRead p addr count => Sys2Proof.Machine.execQuadOutputRead p addr count s
  | .quadIoRead p addr mode count => Sys2Proof.Machine.execQuadIoRead p addr mode count s
  | .writeEnable p => Sys2Proof.Machine.execWriteEnable p s
  | .writeDisable p => Sys2Proof.Machine.execWriteDisable p s
  | .pageProgram p addr data onByte => Sys2Proof.Machine.execPageProgram p addr data onByte s
  | .sectorErase4k p addr onByte => Sys2Proof.Machine.execSectorErase4k p addr onByte s
  | .blockErase64k p addr onByte => Sys2Proof.Machine.execBlockErase64k p addr onByte s
  | .readStatus p count => Sys2Proof.Machine.execReadStatus p count s
  | .readFlagStatus p count => Sys2Proof.Machine.execReadFlagStatus p count s
  | .clearFlags p => Sys2Proof.Machine.execClearFlags p s
  | .readSfdp p addr count => Sys2Proof.Machine.execReadSfdp p addr count s
  | .readId p count => Sys2Proof.Machine.execReadId p count s
  | .resetEnable p => Sys2Proof.Machine.execResetEnable p s
  | .reset p => Sys2Proof.Machine.execReset p s
  | .deepPowerDown p => Sys2Proof.Machine.execDeepPowerDown p s
  | .releasePowerDown p count => Sys2Proof.Machine.execReleasePowerDown p count s
  | .filteredOpcode p opcode addr => Sys2Proof.Machine.execFilteredOpcode p opcode addr s
  | .chipSelectFall p => Sys2Proof.Machine.execChipSelectFall p s
  | .intakePageProgram addr data => Sys2Proof.Machine.execIntakePageProgram addr data s
  | .writeAcceptance t => Sys2Proof.Machine.execWriteAcceptance t s
  | .bounceBufferIdleClose t => Sys2Proof.Machine.execBounceBufferIdleClose t s
  | .commitStart => Sys2Proof.Machine.execCommitStart s
  | .flashOperationDone chip error => Sys2Proof.Machine.execFlashOperationDone chip error s
  | .flashOperationTimeout chip stillBusy => Sys2Proof.Machine.execFlashOperationTimeout chip stillBusy s
  | .flashPowerRestore answers0 answers1 => Sys2Proof.Machine.execFlashPowerRestore answers0 answers1 s
  | .eraseQueueErase => Sys2Proof.Machine.execEraseQueueErase s
  | .flashDirectoryUpdate => Sys2Proof.Machine.execFlashDirectoryUpdate s
  | .vaultWriteComplete => Sys2Proof.Machine.execVaultWriteComplete s
  | .ledgerUpdate tripIn => Sys2Proof.Machine.execLedgerUpdate tripIn s
  | .ledgerInitialise => Sys2Proof.Machine.execLedgerInitialise s
  | .auditAppend => Sys2Proof.Machine.execAuditAppend s
  | .spillBatchWrite => Sys2Proof.Machine.execSpillBatchWrite s
  | .makeStatement t => Sys2Proof.Machine.execMakeStatement t s
  | .statementSigning => Sys2Proof.Machine.execStatementSigning s
  | .appendNote t => Sys2Proof.Machine.execAppendNote t s
  | .newNonce t => Sys2Proof.Machine.execNewNonce t s
  | .advanceCounter t => Sys2Proof.Machine.execAdvanceCounter t s
  | .nonceAndAdvance t => Sys2Proof.Machine.execNonceAndAdvance t s
  | .confirmGeneration t => Sys2Proof.Machine.execConfirmGeneration t s
  | .sleepEntry wakeCount => Sys2Proof.Machine.execSleepEntry wakeCount s
  | .wakeRequest src => Sys2Proof.Machine.execWakeRequest src s
  | .sleepTimerWake => Sys2Proof.Machine.execSleepTimerWake s
  | .fabricResume => Sys2Proof.Machine.execFabricResume s
  | .watchdogExpiry => Sys2Proof.Machine.execWatchdogExpiry s
  | .glitchMonitorAlarm => Sys2Proof.Machine.execGlitchMonitorAlarm s
  | .lfxoQualified => Sys2Proof.Machine.execLfxoQualified s
  | .lfxoLost => Sys2Proof.Machine.execLfxoLost s
  | .lfxoDeadline => Sys2Proof.Machine.execLfxoDeadline s
  | .noticeSend ch req other => Sys2Proof.Machine.execNoticeSend ch req other s
  | .noticeReceive ch reader => Sys2Proof.Machine.execNoticeReceive ch reader s
  | .eventPoll e relatch => Sys2Proof.Machine.execEventPoll e relatch s
  | .trngHealthFailure src test => Sys2Proof.Machine.execTrngHealthFailure src test s
  | .drbgReseed => Sys2Proof.Machine.execDrbgReseed s
  | .badgerTick sense0 sense1 sense2 sense3 => Sys2Proof.Machine.execBadgerTick sense0 sense1 sense2 sense3 s
  | .badgerTimerExpiry timer => Sys2Proof.Machine.execBadgerTimerExpiry timer s
  | .egressHoldExpiry => Sys2Proof.Machine.execEgressHoldExpiry s
  | .tamperHoldExpiry => Sys2Proof.Machine.execTamperHoldExpiry s
  | .guardWordWrite => Sys2Proof.Machine.execGuardWordWrite s
  | .badgerProgramSwitch => Sys2Proof.Machine.execBadgerProgramSwitch s
  | .linkOpen => Sys2Proof.Machine.execLinkOpen s
  | .firstBeacon => Sys2Proof.Machine.execFirstBeacon s
  | .beaconPeriod => Sys2Proof.Machine.execBeaconPeriod s
  | .linkOpenRecordDeadline => Sys2Proof.Machine.execLinkOpenRecordDeadline s
  | .frameTransmit outcome => Sys2Proof.Machine.execFrameTransmit outcome s
  | .beacon f => Sys2Proof.Machine.execBeacon f s
  | .beaconRequest f => Sys2Proof.Machine.execBeaconRequest f s
  | .beaconVerify unit => Sys2Proof.Machine.execBeaconVerify unit s
  | .join f => Sys2Proof.Machine.execJoin f s
  | .joinAdmit => Sys2Proof.Machine.execJoinAdmit s
  | .admitFrame f session => Sys2Proof.Machine.execAdmitFrame f session s
  | .waitFrame f => Sys2Proof.Machine.execWaitFrame f s
  | .refuseFrame f => Sys2Proof.Machine.execRefuseFrame f s
  | .readFrame f => Sys2Proof.Machine.execReadFrame f s
  | .writeProgram f => Sys2Proof.Machine.execWriteProgram f s
  | .writeErase4k f => Sys2Proof.Machine.execWriteErase4k f s
  | .writeErase64k f => Sys2Proof.Machine.execWriteErase64k f s
  | .ackFrame f => Sys2Proof.Machine.execAckFrame f s
  | .noticeRepeat t => Sys2Proof.Machine.execNoticeRepeat t s
  | .statementRequest f => Sys2Proof.Machine.execStatementRequest f s
  | .statementFragment f => Sys2Proof.Machine.execStatementFragment f s
  | .parcelTenantFragment f => Sys2Proof.Machine.execParcelTenantFragment f s
  | .parcelImport => Sys2Proof.Machine.execParcelImport s
  | .parcelResult f => Sys2Proof.Machine.execParcelResult f s
  | .parcelRecoveryPair f => Sys2Proof.Machine.execParcelRecoveryPair f s
  | .parcelImageFragment f => Sys2Proof.Machine.execParcelImageFragment f s
  | .parcelRecoveryRequest f => Sys2Proof.Machine.execParcelRecoveryRequest f s
  | .cross f => Sys2Proof.Machine.execCross f s
  | .timeFrame f => Sys2Proof.Machine.execTimeFrame f s
  | .elect f => Sys2Proof.Machine.execElect f s
  | .leave f => Sys2Proof.Machine.execLeave f s
  | .electSend => Sys2Proof.Machine.execElectSend s
  | .leadElection => Sys2Proof.Machine.execLeadElection s
  | .coldWindowRenew => Sys2Proof.Machine.execColdWindowRenew s
  | .leadLossTimeout => Sys2Proof.Machine.execLeadLossTimeout s
  | .leadConfirmTimeout => Sys2Proof.Machine.execLeadConfirmTimeout s
  | .memberLossTimeout unit => Sys2Proof.Machine.execMemberLossTimeout unit s
  | .timeSend => Sys2Proof.Machine.execTimeSend s
  | .crossInitiate => Sys2Proof.Machine.execCrossInitiate s
  | .crossResponderTurn => Sys2Proof.Machine.execCrossResponderTurn s
  | .crossReplyTimeout => Sys2Proof.Machine.execCrossReplyTimeout s
  | .recoveryPairCycle unit => Sys2Proof.Machine.execRecoveryPairCycle unit s
  | .recoveryRequestSend t => Sys2Proof.Machine.execRecoveryRequestSend t s
  | .installCheck => Sys2Proof.Machine.execInstallCheck s
  | .tenantImageInstall => Sys2Proof.Machine.execTenantImageInstall s
  | .schedulePairInstall => Sys2Proof.Machine.execSchedulePairInstall s
  | .tenantRestart t => Sys2Proof.Machine.execTenantRestart t s
  | .confirmWindowExpiry t => Sys2Proof.Machine.execConfirmWindowExpiry t s
  | .revertRetry t => Sys2Proof.Machine.execRevertRetry t s
  | .handoverLap => Sys2Proof.Machine.execHandoverLap s
  | .handoverSelfCheck => Sys2Proof.Machine.execHandoverSelfCheck s
  | .handoverDeadline => Sys2Proof.Machine.execHandoverDeadline s
  | .parcelExport => Sys2Proof.Machine.execParcelExport s
  | .parcelResultTimeout => Sys2Proof.Machine.execParcelResultTimeout s
  | .probeHaltRequest => Sys2Proof.Machine.execProbeHaltRequest s
  | .haltEntry => Sys2Proof.Machine.execHaltEntry s
  | .probeResumeRequest => Sys2Proof.Machine.execProbeResumeRequest s
  | .debugAccessWord op => Sys2Proof.Machine.execDebugAccessWord op s
  | .confirmationPulseEdge slot sense3 => Sys2Proof.Machine.execConfirmationPulseEdge slot sense3 s
  | .bankSupplyInRange vddioH => Sys2Proof.Machine.execBankSupplyInRange vddioH s
  | .linkReceiveError => Sys2Proof.Machine.execLinkReceiveError s
  | .busIdle => Sys2Proof.Machine.execBusIdle s
  | .requestRepeatTimeout => Sys2Proof.Machine.execRequestRepeatTimeout s
  | .retryAfterExpiry => Sys2Proof.Machine.execRetryAfterExpiry s
  | .noticeFrame f => Sys2Proof.Machine.execNoticeFrame f s
  | .dataFrame f => Sys2Proof.Machine.execDataFrame f s

end Sys2Proof.Machine
end

