-- ==== Sys2Proof/Machine/Idle.lean ====
section
/-!
DEFINITION. What passes with no command: one slot of time (R9, log 1).
-/
namespace Sys2Proof.Machine

/-- What runs by itself at the edges of a slot: the PMU reads its channels, Badger its own at a BDG edge (R64). -/
def State.ownReads (s : State) (rtc : Nat) : State := if s.clock.rtc = rtc then s.pmuReads else s.pmuReads.badgerReads

/-- One slot passes (R9, R76, R127): in phase R nothing runs, the window slots count in W and K, the lap slots in N and S, the
RTC from P on; the lap slots stand still while a probe halts the fabric (R479; log 1). -/
def State.idle (s : State) : State :=
  match s.power.phase with
  | .u => s
  | .r => s
  | .p => { s with clock := s.clock.advanceRtc 1 }
  | .b => { s with clock := s.clock.advanceRtc 1 }
  | .w => { s with clock := { (s.clock.advanceRtc 1) with windowSlot := s.clock.windowSlot + 1 } }
  | .k => { s with clock := { (s.clock.advanceRtc 1) with windowSlot := s.clock.windowSlot + 1 } }
  | .n => (s.setClock (if s.probe.halted then s.clock.advanceRtc 1 else s.clock.tick true)).ownReads s.clock.rtc
  | .s => (s.setClock (s.clock.tick false)).ownReads s.clock.rtc

end Sys2Proof.Machine
end

