-- ==== Sys2Proof/Safety.lean ====
section
/-!
DEFINITION. What claims about runs are made of: that a command completes, that OTP only gains bits (R134, R139), that the byte stores keep
their canonical form, that a step touches nothing a family may not touch.
-/
namespace Sys2Proof.Safety
open Sys2Proof.Machine

/-- The command answers a next state that meets a condition: no fault, no refusal. -/
def Completes (c : Instr) (s : State) (P : State → Prop) : Prop := ∃ t, exec c s = .next t ∧ P t

/-- The command answers the state it was given: its condition does not hold (log 14). -/
def Unmoved (c : Instr) (s : State) : Prop := exec c s = .next s

/-- Every bit set in `a` is set in `b`. -/
def BitsRise {n : Nat} (a b : BitVec n) : Prop := ∀ i : Nat, a.getLsbD i = true → b.getLsbD i = true

/-- The OTP `b` holds every programmed bit of `a` (R134, R139, R152). -/
structure OtpRises (a b : Otp) : Prop where
  groups : ∀ i : Fin 4, BitsRise a.groups[i] b.groups[i]
  words : ∀ i : Fin 32, BitsRise a.words[i] b.words[i]
  keyTrue : BitsRise a.keyTrue b.keyTrue
  keyComp : BitsRise a.keyComp b.keyComp
  patch0 : ∀ i : Fin 128, BitsRise a.patch0[i] b.patch0[i]
  patch1 : ∀ i : Fin 128, BitsRise a.patch1[i] b.patch1[i]

/-- Every byte store of the state is in its canonical form: vault, working SRAM, Den, both flash chips. -/
structure StoresCanonical (s : State) : Prop where
  vault : Cells.wf erased s.vault = true
  sram : Cells.wf (fillOf s.sramFill) s.sram = true
  den : Cells.wf (fillOf s.denFill) s.den = true
  chip : ∀ c : Fin 2, Cells.wf erased s.flash.chips[c].cells = true

/-- R83, R113, R125, R129, R428, R468: what a brown-out with a cause leaves. The drivers low, LNK released, every other signal pad Hi-Z; every
domain reset; OTP kept, the vault kept unless a write of it was cut, the chips kept unless an operation on one was cut. -/
def BrownedOut (cause : Nat) (s t : State) : Prop :=
  t.power.phase = .r ∧ t.power.afterBrownOut = true ∧ t.power.resetCause = cause ∧
  t.pads.actEn = .low ∧ (∀ i : Fin 4, t.pads.prst[i] = .low) ∧ t.pads.fpwr = .low ∧ t.pads.lnk = .released ∧ t.pads.fclk = .hiZ ∧
  t.pads.fcs0 = .hiZ ∧ t.pads.fio = .hiZ ∧ t.pads.fcs1 = .hiZ ∧ t.pads.alertA = .hiZ ∧ t.pads.sense = .hiZ ∧ t.pads.cfg0 = .hiZ ∧
  t.pads.cfg12 = .hiZ ∧ t.pads.alertB = (if s.servesLdir then .low else .hiZ) ∧
  t.clock.rtc = 0 ∧ t.events = 0 ∧ t.keys = [] ∧ t.sessions = [] ∧ t.crossTable = [] ∧ t.commit = none ∧ t.mailbox = Mailbox.reset ∧
  t.badger = Badger.reset ∧ t.boot = Boot.reset ∧ t.running = Running.reset ∧ t.audit = Audit.reset ∧ t.link = Link.reset ∧
  t.tenants = Vector.replicate 16 Tenant.reset ∧ t.probe = Debug.reset ∧ t.otp = s.otp ∧ t.pending = s.pending ∧
  (s.update.vaultWrite = [] → t.vault = s.vault) ∧
  (s.flash.op[(0 : Fin 2)] = none → s.flash.op[(1 : Fin 2)] = none → t.flash.chips = s.flash.chips)

/-- An event is noted: its bit is latched, or in S, where the fabric has no clock, waits for the first slot of the resumed lap (R33, R66, R121). -/
def Noted (e : Nat) (u : State) : Prop :=
  (u.power.phase ≠ .s → u.eventBit e = true) ∧ (u.power.phase = .s → u.sleep.waiting.getLsbD e = true)

/-- Only time passes from `s` to `m`: the clock, and of what the time ends the ALERT# pads and the ends of their pulses (R283, R450). -/
def Timed (s m : State) : Prop :=
  m = { s with clock := m.clock, pads := { s.pads with alertA := m.pads.alertA, alertB := m.pads.alertB }
               portA := { s.portA with alertPulse := m.portA.alertPulse }, portB := { s.portB with alertPulse := m.portB.alertPulse }
               badger := { s.badger with pulse := m.badger.pulse } } ∧
  s.clock.boundaries ≤ m.clock.boundaries

/-- The state `t` is `s` but for what an appended or requested audit record writes: the vault, the queue, the event vector, the note bits of
the head search, the time at which a cross-signing falls due. -/
def AuditOnly (s t : State) : Prop :=
  t = { s with vault := t.vault, vaultBad := t.vaultBad, audit := t.audit, events := t.events, sleep := t.sleep
               boot := { s.boot with notes := t.boot.notes }, link := { s.link with crossDue := t.link.crossDue } }

/-- The read commands of a port with their opcodes and groups (R275). -/
def readForms (p : Port) (addr : BitVec 24) (mode : Byte) (count : Nat) : List (Instr × Byte × Option Group) :=
  [(.readData p addr count, 0x03, none), (.fastRead p addr count, 0x0B, some .fast), (.dualOutputRead p addr count, 0x3B, some .dual),
   (.dualIoRead p addr mode count, 0xBB, some .dual), (.quadOutputRead p addr count, 0x6B, some .quad),
   (.quadIoRead p addr mode count, 0xEB, some .quad)]

/-- The commands at a port that clock an opcode (R275, R276). -/
def portOf : Instr → Option Port
  | .readData p _ _ => some p
  | .fastRead p _ _ => some p
  | .dualOutputRead p _ _ => some p
  | .dualIoRead p _ _ _ => some p
  | .quadOutputRead p _ _ => some p
  | .quadIoRead p _ _ _ => some p
  | .writeEnable p => some p
  | .writeDisable p => some p
  | .pageProgram p _ _ _ => some p
  | .sectorErase4k p _ _ => some p
  | .blockErase64k p _ _ => some p
  | .readStatus p _ => some p
  | .readFlagStatus p _ => some p
  | .clearFlags p => some p
  | .readSfdp p _ _ => some p
  | .readId p _ => some p
  | .resetEnable p => some p
  | .reset p => some p
  | .deepPowerDown p => some p
  | .releasePowerDown p _ => some p
  | .filteredOpcode p _ _ => some p
  | .intakePageProgram _ _ => some .a
  | _ => none

/-- What a port drives and arms at the start of a command: nothing (R278). -/
def begun (x : PortSt) : PortSt := { x with resetArmed := false, out := [] }

/-- `t` is `s` with one more event reported by a tenant (R22, R511): in S it may ask for a wake (R121). -/
def Reported (p : Port) (t : TSlot) (e : LaneEvent) (s u : State) : Prop :=
  u.tenant t = { s.tenant t with events := (s.tenant t).events ++ [e] } ∧ (∀ t', t' ≠ t → u.tenant t' = s.tenant t') ∧
  u = { s.setPort p (u.port p) with tenants := u.tenants, events := u.events, sleep := u.sleep, power := u.power, freeDrawn := u.freeDrawn } ∧
  (s.power.phase ≠ .s → u.power = s.power)

/-- The commands that a group honours, with what IO0 carried after the opcode where the command says it (R275, R276). -/
def groupForms (p : Port) (a : BitVec 24) (mode : Byte) (n : Nat) (data : Bytes) (onByte : Bool) :
    List (Instr × Byte × Group × Option (Option (BitVec 24))) :=
  [(.fastRead p a n, 0x0B, .fast, some (some a)), (.dualOutputRead p a n, 0x3B, .dual, some (some a)), (.dualIoRead p a mode n, 0xBB, .dual, none),
   (.quadOutputRead p a n, 0x6B, .quad, some (some a)), (.quadIoRead p a mode n, 0xEB, .quad, none), (.writeEnable p, 0x06, .program, some none),
   (.writeDisable p, 0x04, .program, some none), (.pageProgram p a data onByte, 0x02, .program, some (some a)),
   (.sectorErase4k p a onByte, 0x20, .erase4k, some (some a)), (.blockErase64k p a onByte, 0xD8, .erase64k, some (some a)),
   (.deepPowerDown p, 0xB9, .powerDown, some none), (.releasePowerDown p n, 0xAB, .powerDown, if n = 0 then some none else none)]

/-- The commands that bring a frame, ADMIT aside, with the frame and the row's kind (R350, R352). -/
def frameOf : Instr → Option (Frame × Nat)
  | .beacon f => some (f, Code.fBeacon)
  | .beaconRequest f => some (f, Code.fBeacon)
  | .join f => some (f, Code.fJoin)
  | .waitFrame f => some (f, Code.fWait)
  | .refuseFrame f => some (f, Code.fRefuse)
  | .readFrame f => some (f, Code.fRead)
  | .writeProgram f => some (f, Code.fWrite)
  | .writeErase4k f => some (f, Code.fWrite)
  | .writeErase64k f => some (f, Code.fWrite)
  | .ackFrame f => some (f, Code.fAck)
  | .statementRequest f => some (f, Code.fStatement)
  | .statementFragment f => some (f, Code.fStatement)
  | .parcelTenantFragment f => some (f, Code.fParcel)
  | .parcelResult f => some (f, Code.fParcel)
  | .parcelRecoveryPair f => some (f, Code.fParcel)
  | .parcelImageFragment f => some (f, Code.fParcel)
  | .parcelRecoveryRequest f => some (f, Code.fParcel)
  | .cross f => some (f, Code.fCross)
  | .timeFrame f => some (f, Code.fTime)
  | .elect f => some (f, Code.fElect)
  | .leave f => some (f, Code.fLeave)
  | .noticeFrame f => some (f, Code.fNotice)
  | .dataFrame f => some (f, Code.fData)
  | _ => none

/-- A frame of a kind arrives where the unit hears it: fabric running, link open, an idle seen, the frame to the unit or to all (R346, R352, R363). -/
def Arrives (s : State) (f : Frame) (kind : Nat) : Prop :=
  s.awake = true ∧ s.link.opened = true ∧ s.link.idleSeen = true ∧ f.addresses s.unitNumber = true ∧ f.kind = kind

/-- A frame of a kind passes every row of R352 with the payload `p`; `r` is the state with its event, and with its counter and time on a session. -/
def Passes (s : State) (f : Frame) (kind : Nat) (p : Bytes) (r : State) : Prop := Arrives s f kind ∧ s.receive f = (r, some p)

/-- A frame is dropped with one of the five counts raised, which stops at 65,535; apart from that only its record, its events, at most one
answer queued and, for a receive error, the wait for an idle (R346, R352). -/
def Counted (i : Fin 5) (s u : State) : Prop :=
  u.link.counts = s.link.counts.set i (min 65535 (s.link.counts[i] + 1)) ∧ u.sessions = s.sessions ∧ u.tenants = s.tenants ∧ u.otp = s.otp ∧
  (s.isRunning = true → u = { s with link := { s.link with counts := u.link.counts, told := u.link.told, outbox := u.link.outbox, idleSeen := u.link.idleSeen }, audit := u.audit
                                     events := u.events, sleep := u.sleep })

/-- The answer NOT_ADMITTED: unsealed, none in the listen span, none within 16 laps of the last to the same source (R352). -/
def ToldNotAdmitted (f : Frame) (s u : State) : Prop :=
  u.link.outbox = if s.clock.startLap < 35 ∨ (∃ x ∈ s.link.told, x.1 = f.peer ∧ s.clock.boundaries < x.2 + 16) then s.link.outbox
    else s.link.outbox ++ [outFrame (.peer f.peer) Code.fRefuse f.request false ([Code.notAdmitted, BitVec.ofNat 8 f.kind] ++ be 3 0xFFFFFF ++ be 2 0)]

/-- One frame more is queued to be sent, and nothing else changes but link bookkeeping, events and the sleep count. -/
def Sends (o : OutFrame) (r u : State) : Prop :=
  u.link.outbox = r.link.outbox ++ [o] ∧ u = { r with link := u.link, events := u.events, sleep := u.sleep }

/-- REFUSE to the sender of a frame, sealed under its session if it holds one (R350, R351). -/
def refusal (r : State) (f : Frame) (reason : Byte) (addr retry : Nat) : OutFrame :=
  outFrame (.peer f.peer) Code.fRefuse f.request (r.session? f.peer).isSome ([reason, BitVec.ofNat 8 f.kind] ++ be 3 addr ++ be 2 retry)

/-- WAIT to the sender of a frame (R351). -/
def waiting (r : State) (f : Frame) (retry : Nat) : OutFrame :=
  outFrame (.peer f.peer) Code.fWait f.request (r.session? f.peer).isSome (BitVec.ofNat 8 f.kind :: be 2 retry)

/-- The unit's BEACON to all (R351, R353). -/
def beaconNow (s : State) : OutFrame :=
  outFrame .everyone Code.fBeacon 0 false (s.beaconFlags :: s.beaconFields ++ fit 64 0 s.link.beaconSig)

/-- The unit's BEACON and then more frames queued, the BEACON signed again before when the engine gave no signature (R353, R396); nothing else
changes but link bookkeeping, events and the sleep count. -/
def SendsBeacon (more : List OutFrame) (r u : State) : Prop :=
  let b := r.resignBeacon
  (r.link.beaconSig ≠ zeros 64 → b = r) ∧ u.drbg = b.drbg ∧
  u.link = { r.link with beaconSig := b.link.beaconSig, outbox := r.link.outbox ++ [beaconNow b] ++ more } ∧
  u = { r with link := u.link, drbg := u.drbg, events := u.events, sleep := u.sleep }

/-- What a member that has heard no BEACON yet asks of every node (R365). -/
def contactAsked (s : State) : List OutFrame :=
  if s.link.role = .member ∧ s.link.heardAny = false then [outFrame .everyone Code.fBeacon 0 false []] else []

/-- The frames of an object sent to a unit under a transfer identifier, unsealed, up to 240 bytes a fragment (R350, R351, R383). -/
def parcelFrames (unit : Bytes) (content request : Byte) (transfer : BitVec 16) (object : Bytes) : List OutFrame :=
  let n := (object.length + 239) / 240
  (List.range n).map (fun i => outFrame (.peer (.unit unit)) Code.fParcel request false (parcelPayload content transfer i n (fragment object i)))

/-- A record of a kind is requested of Ledger, whose queue has room: it is the queue's last (R463). -/
def Requests (kind : Byte) (body : Bytes) (s u : State) : Prop :=
  s.isRunning = true → s.boot.life ≠ .scrapped → s.audit.queue.length < 32 → ∃ r : AuditReq,
    u.audit.queue = s.audit.queue ++ [r] ∧ r.kind = kind ∧ r.body = fit 20 0 body ∧ r.onCommit = .nothing

/-- A clock that stands at a boundary count or past it: it moved to slot 0 of the count, or not at all (R427). -/
def AtBoundary (b : Nat) (s u : State) : Prop :=
  b ≤ u.clock.boundaries ∧ (s.clock.boundaries < b → u.clock.boundaries = b ∧ u.clock.slot = 0) ∧ (b ≤ s.clock.boundaries → u.clock = s.clock)

/-- A clock that stands at a start lap or past it (R427). -/
def AtStartLap (n : Nat) (s u : State) : Prop :=
  n ≤ u.clock.startLap ∧ (s.clock.startLap < n → u.clock.startLap = n ∧ u.clock.slot = 0) ∧ (n ≤ s.clock.startLap → u.clock = s.clock)

end Sys2Proof.Safety
end

