-- ==== Sys2Proof/Certificates/Slice0/Obligations.lean ====
section
/-!
DEFINITION. The statements for the provers, one for each family of commands and each kind of state, and those over every step. Each says
from which rules of spec/ it is read. `Completes c s P` says that the command answers a next state with `P`; `Unmoved c s` that it answers
the state it was given (log 14). A command whose slot the schedule in force gives runs there: `Timed s m` says that `m` is `s` at that slot,
with nothing but time passed (log 171).
-/
open Sys2Proof Sys2Proof.Machine Sys2Proof.Safety

/-- The block's rule of order, as the commands' queue: the command at the front runs on the state with the queue's rest, first in, first
out. -/
def Obligations.StepRunsTheFrontCommand : Prop :=
  ∀ (s : State) (c : Instr) (rest : List Instr), s.pending = c :: rest → step s = exec c { s with pending := rest }

/-- The model's choice of log 1: with no command waiting one slot passes. In N and S the slot counts to 65,535 and then to slot 0 of the
next lap, whose number counts only in N (R9, R10, R427); while a probe halts the fabric the lap slots stand still (R479). The clock, ended
pulses and what the PMU and Badger read of their own mailboxes (R64) change, and nothing else; the PMU leaves no notice of its channels
unread. -/
def Obligations.AnIdleStepPassesOneSlot : Prop :=
  ∀ s : State, s.pending = [] →
    (∃ t, step s = .next t ∧ t.otp = s.otp ∧ t.vault = s.vault ∧ t.tenants = s.tenants ∧ t.power = s.power ∧ t.keys = s.keys ∧ t.flash = s.flash ∧ t.pending = []) ∧
    ((s.power.phase = .n ∧ s.probe.halted = false) ∨ s.power.phase = .s →
      (s.clock.slot + 1 < 65536 → ∃ t, step s = .next t ∧ t.clock.slot = s.clock.slot + 1 ∧ t.clock.lap = s.clock.lap ∧ t.clock.boundaries = s.clock.boundaries) ∧
      (s.clock.slot + 1 = 65536 → ∃ t, step s = .next t ∧ t.clock.slot = 0 ∧ t.clock.boundaries = s.clock.boundaries + 1 ∧
        t.clock.lap = (if s.power.phase = .n then s.clock.lap + 1 else s.clock.lap))) ∧
    (s.power.phase = .n → s.probe.halted = true → ∃ t, step s = .next t ∧ t.clock = s.clock.advanceRtc 1) ∧
    (s.power.phase = .n ∨ s.power.phase = .s → ∃ t, step s = .next t ∧ ∀ (ch : Fin 12) (d : ChannelDecl), s.mailbox.channels[ch].decl = some d →
      d.shared = false → d.sideB.identity = 6 → t.mailbox.channels[ch].unread false = []) ∧
    (s.power.phase = .r ∨ s.power.phase = .u → step s = .next s)

/-- From R10, R33, R70, R72, R113, R237, R352, R360, R381, R427, R435, R464. What the machine is before its first power-on reset: phase R
with every signal pad Hi-Z and every switched domain off, no event latched, no key, session or kept CROSS, the link closed with its counts
at 0, no program of Badger, no queue. The byte stores have their canonical form. Blank OTP and the chips fitted are the model's choice (logs
5, 7) and are not claimed here. -/
def Obligations.ResetLeavesPhaseR : Prop :=
  let s := State.reset
  s.power.phase = .r ∧ s.power.afterBrownOut = false ∧ s.power.resetCause = 0 ∧ s.power.buckOn = false ∧ s.power.portOn = false ∧ s.power.fabricOn = false ∧ s.power.vaultOn = false ∧
  s.power.wdtOn = false ∧ s.clock.lap = 0 ∧ s.clock.startLap = 0 ∧ s.clock.boundaries = 0 ∧ s.clock.rtc = 0 ∧
  s.pads.fclk = .hiZ ∧ s.pads.fcs0 = .hiZ ∧ s.pads.fcs1 = .hiZ ∧ s.pads.fio = .hiZ ∧ s.pads.fpwr = .hiZ ∧ s.pads.actEn = .hiZ ∧ s.pads.lnk = .hiZ ∧ s.pads.alertA = .hiZ ∧
  s.pads.alertB = .hiZ ∧ s.pads.sense = .hiZ ∧ s.pads.cfg0 = .hiZ ∧ s.pads.cfg12 = .hiZ ∧ (∀ i : Fin 4, s.pads.prst[i] = .hiZ) ∧
  s.events = 0 ∧ s.sleep.waiting = 0 ∧ s.keys = [] ∧ s.sessions = [] ∧ s.crossTable = [] ∧ s.commit = none ∧ s.update.ledger = [] ∧ s.audit.queue = [] ∧ s.statements.queue = [] ∧
  (∀ ch : Fin 12, s.mailbox.channels[ch].decl = none ∧ s.mailbox.channels[ch].queue = []) ∧ s.mailbox.locked = false ∧
  s.link.opened = false ∧ s.link.idleSeen = false ∧ s.link.lead = none ∧ s.link.cold = none ∧ (∀ i : Fin 5, s.link.counts[i] = 0) ∧
  s.badger.program = none ∧ s.badger.started = false ∧ s.badger.actEn = false ∧ (∀ t : TSlot, (s.tenant t).life = .absent ∧ (s.tenant t).frozen = false) ∧
  s.probe.reach = none ∧ s.probe.halted = false ∧ s.pending = [] ∧ StoresCanonical s

/-- Every byte store keeps its canonical form in every step: addresses strictly rising, none that holds what an unlisted address reads as.
Vault, working SRAM, Den and both chips. -/
def Obligations.EveryStepKeepsTheStoresCanonical : Prop :=
  ∀ s t : State, StoresCanonical s → step s = .next t → StoresCanonical t

/-- From R134, R139, R152. No step clears a programmed bit of OTP, whatever the command. -/
def Obligations.NoStepClearsAnOtpBit : Prop :=
  ∀ s t : State, step s = .next t → OtpRises s.otp t.otp

/-- From R122. While the commit monitor is tripped no command of phase N starts a program or an erase of the flash: every operation in
progress afterwards was in progress before. (The ROM's wipe is not of phase N.) -/
def Obligations.CommitLowStartsNoFlashWrite : Prop :=
  ∀ (c : Instr) (s t : State), s.power.phase = .n → s.power.commitLow = true → c ≠ .commitMonitorRelease → (∀ (k : Fin 2) (o : FlashOp), s.flash.op[k] = some o → o.owner ≠ .wipe) →
    exec c s = .next t → ∀ (k : Fin 2) (o : FlashOp), t.flash.op[k] = some o → ∃ o' : FlashOp, s.flash.op[k] = some o' ∧ o'.task = o.task ∧ o'.owner = o.owner

/-- No command takes a command from the queue or puts one into it: only the step moves the queue. -/
def Obligations.NoCommandMovesTheQueue : Prop :=
  ∀ (c : Instr) (s t : State), exec c s = .next t → t.pending = s.pending

/-- From R23, R137, R266. No frame of the link changes OTP or a byte of the flash chips by itself, or any key but that of a parcel. -/
def Obligations.FramesChangeNoOtpAndNoChip : Prop :=
  ∀ (c : Instr) (f : Frame) (k : Nat) (s t : State), frameOf c = some (f, k) → s.power.phase ≠ .b → exec c s = .next t →
    t.otp = s.otp ∧ t.flash.chips = s.flash.chips ∧ ∀ id : KeyId, id ≠ .parcel → t.key? id = s.key? id

/-- From R113, R70, R122. In phase R or U a VBAT above the release level ends the phase: 1.95 V, or 2.15 V after a brown-out. From 2.10 V up
phase P begins with the pads of R72; below it that moment is itself a brown-out. OTP, vault and flash are as before. The phase does not end
at a VBAT of 1.95 V or less, nor at 2.15 V or less after a brown-out. -/
def Obligations.PowerOnResetWaitsAndStartsPhaseP : Prop :=
  (∀ (s : State) (vbat vddioH vddioF : Nat), s.inReset = true → (if s.power.afterBrownOut then 2150 < vbat else 1950 < vbat) →
    Completes (.powerOnReset vbat vddioH vddioF) s (fun t =>
      t.otp = s.otp ∧ t.pending = s.pending ∧
      (2100 ≤ vbat → t.power.phase = .p ∧ t.clock.rtc = 0 ∧ t.power.commitLow = decide (vbat < 2400) ∧ t.vault = s.vault ∧ t.flash = s.flash ∧
        t.pads.actEn = .low ∧ t.pads.fpwr = .high ∧ t.pads.lnk = .released ∧
        ∀ i : Fin 4, t.pads.prst[i] = if 1700 ≤ vddioH ∧ vddioH ≤ 3600 then .low else .hiZ) ∧
      (vbat < 2100 → t.power.phase = .r ∧ t.power.afterBrownOut = true ∧ t.power.resetCause = 1))) ∧
  (∀ (s : State) (vbat vddioH vddioF : Nat), s.inReset = true → (if s.power.afterBrownOut then vbat ≤ 2150 else vbat ≤ 1950) →
    Unmoved (.powerOnReset vbat vddioH vddioF) s)

/-- From R70, R83, R112, R113, R125, R129, R428. The four commands that end in a brown-out, each with its cause. A VBAT that falls below 1.0
V is power removal: phase U, every pad off, and the next rise of VBAT is a first power-up again. -/
def Obligations.BrownOutResetsEveryDomain : Prop :=
  (∀ (s : State) (c : TripCause) (v : Nat), s.inReset = false → 1000 ≤ v →
    Completes (.brownOut c v) s (fun t => BrownedOut (match c with | .vbat => 1 | _ => 2) s t ∧ t.power.vbat = v)) ∧
  (∀ (s : State) (c : TripCause) (v : Nat), v < 1000 → Completes (.brownOut c v) s (fun t =>
    t.power.phase = .u ∧ t.power.afterBrownOut = false ∧ t.power.resetCause = 0 ∧ t.power.vbat = v ∧ t.pads = Pads.reset ∧ t.otp = s.otp ∧ t.pending = s.pending ∧
    (s.update.vaultWrite = [] → t.vault = s.vault))) ∧
  (∀ (s : State) (c : TripCause) (v : Nat), s.inReset = true → 1000 ≤ v → exec (.brownOut c v) s = .next { s with power := { s.power with phase := .r, vbat := v } }) ∧
  (∀ s : State, s.power.phase = .n → s.power.wdtOn = true → Completes .watchdogExpiry s (BrownedOut 3 s)) ∧
  (∀ s : State, s.power.phase = .w ∨ s.power.phase = .k ∨ s.power.phase = .b ∨ s.power.phase = .n →
    Completes .glitchMonitorAlarm s (BrownedOut 4 s)) ∧
  (∀ s : State, s.power.phase = .n → s.probe.halted = false → s.running.selfCheckDue = true →
    Completes .handoverDeadline s (BrownedOut 5 s))

/-- From R122, R123, R112, R121, R141, R318. The commit monitor trips: the state is commit-low, every erase in progress is suspended and no
program is; its event is latched, in S for the first slot of the resumed lap; a wipe of the ROM ends in the hold LC_LOWBAT. The commit
monitor releases: the commit-low state ends, and outside S every erase but that of a wipe goes on and the commit event is latched; then the
commit and the Sequencer's other work go on. In S nothing but the commit-low state and the event changes. -/
def Obligations.CommitMonitorHoldsAndResumesErases : Prop :=
  ((∀ s : State, s.inReset = false → s.power.commitLow = false → (∀ j a b, s.boot.stage ≠ .wiping j a b) →
    Completes .commitMonitorTrip s (fun t =>
      t.power = { s.power with commitLow := true } ∧ (∀ c : Fin 2, t.flash.op[c] = (s.flash.op[c]).map (fun o => { o with suspended := decide (o.task.kind ≠ .program) })) ∧
      Noted Ev.commitTripped t ∧
      t = { s with power := t.power, flash := { s.flash with op := t.flash.op, sent := t.flash.sent }, events := t.events, sleep := t.sleep })) ∧
  (∀ (s : State) (j : WipeJob) (a b : Bool), s.inReset = false → s.power.commitLow = false → s.boot.stage = .wiping j a b →
    Completes .commitMonitorTrip s (fun t => t.power.commitLow = true ∧ t.boot.stage = .held Code.lcLowbat ∧ t.keys = [] ∧ t.otp = s.otp ∧ t.flash.chips = s.flash.chips)) ∧
  (∀ s : State, s.inReset = true ∨ s.power.commitLow = true → Unmoved .commitMonitorTrip s)) ∧
  ((∀ s : State, s.power.phase = .s → s.power.commitLow = true →
    Completes .commitMonitorRelease s (fun t => t.power = { s.power with commitLow := false } ∧ Noted Ev.commitReleased t ∧
      t = { s with power := t.power, events := t.events, sleep := t.sleep })) ∧
  (∀ s : State, s.inReset = false → s.power.phase ≠ .s → s.power.commitLow = true → ∃ u : State, exec .commitMonitorRelease s = .next u.resumeCommit.pump ∧
    u.power.commitLow = false ∧ u.eventBit Ev.commitReleased = true ∧
    (∀ c : Fin 2, u.flash.op[c] = (s.flash.op[c]).map (fun o => { o with suspended := o.owner == .wipe })) ∧
    u = { s with power := u.power, flash := { s.flash with op := u.flash.op, sent := u.flash.sent }, events := u.events, sleep := u.sleep }) ∧
  (∀ s : State, s.inReset = true ∨ s.power.commitLow = false → Unmoved .commitMonitorRelease s))

/-- From R70, R71, R76, R106, R72. With both banks in range phase P ends: phase W begins, the pads are those of the window, the watch runs
with no edge seen, eight conversions of each CFG pad and eight reads of each digital strap are taken. Phase P does not end while VDDIO_F or
VDDIO_H is outside its operating range. The rest of the strap window. The keepers hold the levels present at slot 63,488 and the watch ends;
phase W ends at slot 64,000; within the watch SENSE3 above 0.70 of 1.2 V is a rising edge, below 0.30 a falling one, each kept with its
slot, and no edge otherwise; VDDIO_H in range in phase P drives PRST0#–PRST3# low. -/
def Obligations.StrapWindowOpensAndRuns : Prop :=
  (∀ (s : State) (i : StrapInputs), s.power.phase = .p → (1700 ≤ i.vddioH ∧ i.vddioH ≤ 3600) →
    ((1700 ≤ i.vddioF ∧ i.vddioF ≤ 2000) ∨ (2700 ≤ i.vddioF ∧ i.vddioF ≤ 3600)) → i.wf = true →
    Completes (.strapWindowOpen i) s (fun t =>
      t.power.phase = .w ∧ t.power.vddioFHigh = decide (2700 ≤ i.vddioF) ∧ t.pads.cfg0 = .pullUpAdc ∧ t.pads.cfg12 = .pullUpAdc ∧
      t.pads.fcs1 = .strapInput ∧ t.pads.alertA = .strapInput ∧ t.pads.alertB = .strapInput ∧ t.straps.watching = true ∧ t.straps.edges = [] ∧
      (∀ k < 3, (t.straps.cfg k).length = 8 ∧ (t.straps.dig k).length = 8) ∧ t.otp = s.otp ∧ t.vault = s.vault ∧ t.flash = s.flash)) ∧
  (∀ (s : State) (i : StrapInputs), s.power.phase = .p →
    (¬(1700 ≤ i.vddioH ∧ i.vddioH ≤ 3600) ∨ ¬((1700 ≤ i.vddioF ∧ i.vddioF ≤ 2000) ∨ (2700 ≤ i.vddioF ∧ i.vddioF ≤ 3600))) →
    Unmoved (.strapWindowOpen i) s) ∧
  ((∀ (s : State) (f a b : Option Nat), s.power.phase = .w → s.straps.watching = true → Completes (.strapKeeperLatch f a b) s (fun t =>
    let level := fun (bank : Nat) (pin : Option Nat) (held : Bool) => ∀ mv, pin = some mv →
      (10 * mv ≤ 3 * bank → held = false) ∧ (3 * bank < 10 * mv → 7 * bank ≤ 10 * mv → held = true)
    (∃ kf ka kb : Bool, t.straps = { s.straps with keepers := [kf, ka, kb], watching := false } ∧ t.pads.fcs1 = .keeper kf ∧ t.pads.alertA = .keeper ka ∧
      t.pads.alertB = .keeper kb ∧ level s.power.vddioF f kf ∧ level s.power.vddioH a ka ∧ level s.power.vddioH b kb) ∧
    t.pads.cfg0 = .off ∧ t.pads.cfg12 = .off ∧ t.clock.windowSlot = max 63488 s.clock.windowSlot ∧ t.power = s.power ∧
    t = { s with clock := t.clock, straps := t.straps, pads := t.pads, freeDrawn := t.freeDrawn })) ∧
  (∀ s : State, s.power.phase = .w → s.straps.watching = false →
    Completes .strapWindowEnd s (fun t => t.power = { s.power with phase := .k } ∧ t.straps = s.straps ∧ t.pads = s.pads ∧
      t.clock.windowSlot = max 64000 s.clock.windowSlot)) ∧
  (∀ (s : State) (slot mv : Nat), s.power.phase = .w → s.straps.watching = true → s.clock.windowSlot ≤ slot → slot ≤ 63487 →
    let edge := fun (level : Bool) => Completes (.confirmationPulseEdge slot mv) s (fun t =>
      t.straps = { s.straps with edges := s.straps.edges ++ [(slot, level)], train := level } ∧ t.power = s.power ∧ t.pads = s.pads)
    (s.straps.train = false → 840 < mv → edge true) ∧ (s.straps.train = true → mv < 360 → edge false) ∧
    ((s.straps.train = true ∧ 360 ≤ mv) ∨ (s.straps.train = false ∧ mv ≤ 840) → Unmoved (.confirmationPulseEdge slot mv) s)) ∧
  (∀ (s : State) (v : Nat), s.power.phase = .p → 1700 ≤ v → v ≤ 3600 → Completes (.bankSupplyInRange v) s (fun t =>
    (∀ i : Fin 4, t.pads.prst[i] = .low) ∧ t.power.vddioH = v ∧ t.pads.actEn = s.pads.actEn ∧ t.straps = s.straps ∧ t.clock = s.clock)))

/-- From R126, R127, R128, R244, R402, R403. LFXO qualified outside S, lost and late: what supplies BDG, RTC and the loop, and the noted
clock event. The deadline is 1,200 ms after power-on reset, RTC count 39,322. A failed health test latches a crypto event, the DRBG
continues from its state and the next reseed is skipped. A lap's reseed is at slot 0 with its own event, once in a lap. -/
def Obligations.ClocksAndRandomness : Prop :=
  ((∀ s : State, s.inReset = false → s.power.phase ≠ .s → s.power.lfxoQualified = false → Completes .lfxoQualified s (fun t =>
    t.power = { s.power with lfxoQualified := true, bdgOnLfxo := true, fllLocked := true } ∧ t.eventBit Ev.lfxoQualified = true ∧
    t = { s with power := t.power, events := t.events, sleep := t.sleep })) ∧
  (∀ s : State, s.power.phase = .s ∨ s.power.lfxoQualified = true → Unmoved .lfxoQualified s) ∧
  (∀ s : State, s.power.lfxoQualified = true → Completes .lfxoLost s (fun t =>
    t.power = { s.power with lfxoQualified := false, bdgOnLfxo := false, fllLocked := false } ∧ Noted Ev.lfxoLost t ∧
    t = { s with power := t.power, events := t.events, sleep := t.sleep })) ∧
  (∀ s : State, s.inReset = false → s.power.lfxoQualified = false → s.power.lfxoLate = false → Completes .lfxoDeadline s (fun t =>
    t.power = { s.power with lfxoLate := true } ∧ Noted Ev.lfxoLate t ∧ (s.awake = false → s.power.phase ≠ .s → 39322 ≤ t.clock.rtc) ∧
    (s.awake = true → t.clock = s.clock.forward (s.clock.slotsToRtc 39322) true) ∧
    ∃ m, Timed s m ∧ t = { m with power := t.power, events := t.events, sleep := t.sleep }))) ∧
  ((∀ (s : State) (src : Fin 2) (test : TrngTest), s.awake = true → s.boot.stage = .running →
    Completes (.trngHealthFailure src test) s (fun t =>
      t.eventBit (Ev.healthFailed src.val) = true ∧ t.eventBit Ev.reseedSkipped = true ∧ t.drbg = s.drbg ∧ t.clock = { s.clock with skipReseed := true } ∧
      t.power = s.power ∧ t.otp = s.otp ∧ t.vault = s.vault ∧ t.keys = s.keys ∧ t.tenants = s.tenants)) ∧
  (∀ s : State, s.awake = true → ¬(s.clock.slot = 0 ∧ s.clock.reseeded = true) →
    Completes .drbgReseed s (fun t => t.clock = { s.clock.toLapStart with reseeded := true, skipReseed := false } ∧ t.clock.slot = 0 ∧
      (s.clock.skipReseed = false → t.eventBit Ev.reseeded = true) ∧ (s.clock.skipReseed = true → t.events = s.events) ∧
      ∃ m, Timed s m ∧ t = { m with events := t.events })) ∧
  (∀ s : State, s.awake = true → s.clock.slot = 0 → s.clock.reseeded = true → Unmoved .drbgReseed s))

/-- From R77, R94, R109, R110, R184, R137, R143. Phase B begins with the pads of phase B and the codes in force; a strap fault ends the
start in a hold whose reason is the reported bit, with the key store zeroised and vault and fabric off; without one the start goes on with
B3, nothing but B1 and B2 done. A start whose group G3 is programmed holds in Scrapped: no key is loaded, the vault, the flash and OTP are
as they were. -/
def Obligations.StartsAfterTheStrapWindow : Prop :=
  (∀ (s : State) (n : Option Nat), s.power.phase = .k →
    (∀ mask bit pad samples, s.strapFault = some (mask, bit, pad, samples) → Completes (.keeperGapEnd n) s (fun t =>
      t.power.phase = .b ∧ t.boot.stage = .held (BitVec.ofNat 8 (0x20 + bit)) ∧ t.keys = [] ∧ t.power.vaultOn = false ∧
      t.power.fabricOn = false ∧ t.pads = s.padsB ∧ t.otp = s.otp ∧ t.tenants = s.tenants ∧
      (decodeLife s.otp = .whole .scrapped → t.vault = s.vault))) ∧
    (s.strapFault = none → ∃ u : State, exec (.keeperGapEnd n) s = .next u.bootB3 ∧
      u.power = { s.power with phase := .b } ∧ u.pads = s.padsB ∧ u.otp = s.otp ∧ u.vault = s.vault ∧ u.keys = s.keys ∧
      u.flash = s.flash ∧ u.tenants = s.tenants ∧ u.boot.tripAfter = n ∧
      u.boot.cfg0 = (s.codeInForce 0).getD 0 ∧ u.boot.cfg1 = (s.codeInForce 1).getD 0 ∧ u.boot.cfg2 = (s.codeInForce 2).getD 0 ∧
      u.boot.fstrap = (s.strapInForce 0).getD false ∧ u.boot.astrap = (s.strapInForce 1).getD false ∧
      u.boot.alertbStrap = (s.strapInForce 2).getD false)) ∧
  (∀ (s : State) (n : Option Nat), s.power.phase = .k → s.strapFault = none → decodeLife s.otp = .whole .scrapped →
    Completes (.keeperGapEnd n) s (fun t => t.boot.stage = .scrapped ∧ t.boot.life = .scrapped ∧ t.keys = [] ∧ t.vault = s.vault ∧
      t.flash = s.flash ∧ t.otp = s.otp ∧ t.audit = s.audit ∧ t.power.vaultOn = false ∧ t.power.fabricOn = false))

/-- From R187, R190, R194, R197, R509. An attempt at PA or PEER whose bound passes is a failed source. A forced or unforced recovery wait
goes on with the other of the two, with PA when PEER is absent; the last source of the order ends in the recovery wait; any other goes on
with the rest. 60 s of an unforced recovery wait end in a hold for NO_SCHEDULE with the key store zeroised; a forced wait does not end. -/
def Obligations.SourceAttemptsAndRecoveryWaits : Prop :=
  ((∀ (s : State) (x : Source) (f : Bool), s.boot.stage = .recovery x f → Completes .sourceAttemptTimeout s (fun t =>
    t.boot.stage = .recovery (if x = .pa ∧ s.peerAbsent = false then .peer else .pa) f ∧ x ∈ t.boot.failed ∧
    s.boot.attemptAt + attemptTicks x (s.attemptBegun x) ≤ t.clock.rtc ∧ t.boot.attemptAt = t.clock.rtc ∧
    t.portA.mode = (if x = .pa ∧ s.peerAbsent = false then .unbound else .intake) ∧ t.update.intake = none ∧ t.link.receiving = none ∧
    t.otp = s.otp ∧ t.keys = s.keys ∧ t.flash = s.flash ∧ t.tenants = s.tenants)) ∧
  (∀ (s : State) (x : Source), s.boot.stage = .attempt x [] → Completes .sourceAttemptTimeout s (fun t =>
    t.boot.stage = .recovery .pa false ∧ t.boot.recoveryAt = t.clock.rtc ∧ t.portA.mode = .intake ∧ x ∈ t.boot.failed ∧
    s.boot.attemptAt + attemptTicks x (s.attemptBegun x) ≤ t.clock.rtc ∧ t.otp = s.otp ∧ t.keys = s.keys ∧ t.flash = s.flash)) ∧
  (∀ (s : State) (x : Source) (rest : List Source), s.boot.stage = .attempt x rest → ∃ u : State,
    exec .sourceAttemptTimeout s = .next (State.trySources rest u) ∧ x ∈ u.boot.failed ∧ u.portA.mode = .unbound ∧
    s.boot.attemptAt + attemptTicks x (s.attemptBegun x) ≤ u.clock.rtc ∧ u.otp = s.otp ∧ u.keys = s.keys ∧ u.flash = s.flash)) ∧
  ((∀ (s : State) (x : Source), s.boot.stage = .recovery x false → Completes .recoveryWaitTimeout s (fun t =>
    t.boot.stage = .held Code.noSchedule ∧ t.keys = [] ∧ t.power.fabricOn = false ∧ t.power.vaultOn = false ∧ t.portA.mode = .unbound ∧
    s.boot.recoveryAt + 1966080 ≤ t.clock.rtc ∧ t.otp = s.otp ∧ t.flash = s.flash ∧ t.tenants = s.tenants)) ∧
  (∀ (s : State) (x : Source), s.boot.stage = .recovery x true → Unmoved .recoveryWaitTimeout s))

/-- From R203, R204, R205, R206, R207, R209, R422, R419. A decision reads and verifies what staging has left (R204); the versions are
recorded before any release (R206: at the start's first decision every record is appended); then the tenant is released when the check of
R203 passes, one that was held at slot 0 of the lap after; a failed check leaves it held or degraded by its policy, and a generation on
trial that has one to return to is held while its revert is asked for. In the tenant's own turn of the start the next place follows. -/
def Obligations.StagingDecisionReleasesOrHolds : Prop :=
  ∀ (s : State) (t : TSlot) (d : TenantDecl) (m : Manifest) (g : Staging), s.awake = true → s.decl? t = some d →
    s.running.manifest = some m → (s.tenant t).staging = some g →
    let u := (s.setClock (s.clock.toLap g.decisionLap)).stageRest t d m (stagingLeaves d.denShare)
    ∃ (g' : Staging) (v : State), (u.tenant t).staging = some g' ∧
      exec (.stagingDecision t) s = .next (if s.inTurn t = true ∧ g.again = false then v.nextPlace else v) ∧
      (let a := u.modTenant t (fun x => { x with staging := none })
       let r := u.imageReason t d g'
       let w := if g'.again then a.versionsTenant t r else (a.versionsAll t r).appendAll
       (v.tenant t).staging = none ∧ s.clock.lap ≤ v.clock.lap ∧ g.decisionLap ≤ v.clock.lap ∧ v.otp = s.otp ∧ v.flash.chips = s.flash.chips ∧ v.flash.op = s.flash.op ∧
       (∀ t', t' ≠ t → v.tenant t' = w.tenant t') ∧ (g'.again = false → w.audit.queue = [] ∧ w.boot.versionsDone = true) ∧
       (r = 0 → (v.tenant t).life = .released ∧ (v.tenant t).restarting = false ∧
         (v.tenant t).denValid = (w.tenant t).denStaged ∧ (∀ p, d.port? = some p → (v.port p).mode = .tenant t) ∧
         (∀ i, d.resetLine = some i → v.pads.prst[i] = .high) ∧
         ((w.tenant t).life = .held → v.clock = w.clock.nextLap true ∧ v.clock.slot = 0) ∧
         ((w.trial t).onTrial = true → (v.tenant t).confirmed = false ∧ (v.tenant t).windowEnds ≠ none)) ∧
       (r ≠ 0 → w.mayRevert t = false → d.failPolicy = .hold →
         (v.tenant t).life = .held ∧ (v.tenant t).reason = r ∧ (∀ i, d.resetLine = some i → v.pads.prst[i] = .low) ∧
         v.key? (.dataLeaf t) = none) ∧
       (r ≠ 0 → w.mayRevert t = false → d.failPolicy = .degrade →
         (v.tenant t).life = .degraded ∧ (v.tenant t).reason = r ∧ v.key? (.dataLeaf t) = none ∧
         (∀ p, d.port? = some p → (v.port p).mode = .tenant t)) ∧
       (r ≠ 0 → w.mayRevert t = true → (v.tenant t).life = .held ∧ (v.tenant t).waiting = 2 ∧
         ∃ q ∈ v.update.ledger, q.after = .revert t))

/-- From R42, R331, R332, R336, R294, R307, R310, R311, R259, R467. A ticket window starts at its slot, one that has begun in this lap in
the next, with the Cipher intervals that have ended by then worked. A window of no class, a tenant window without an owner, and one met
while the flash has no supply fetch nothing; Ledger's reads the last leaf of the batch that a full spill drops; a tenant window fetches the
next leaf of its owner's staging, or the next leaf of its owner's oldest chain, while a chain that needs a failed chip is refused. The end
of a Cipher interval. A data leaf of a pending chain whose tag matches waits for its publication as plaintext with its descriptor, and the
chain ends; one whose tag does not is remembered as failed, the chain ends, TAMPERED is due, the bad-tag event is latched, and no byte of it
is kept. A lane with nothing in work changes nothing of its own. -/
def Obligations.TicketWindowsAndLeafChecks : Prop :=
  (∀ (s : State) (w : Fin 30) (m : Manifest) (start cls : Nat), s.awake = true → s.running.manifest = some m → s.window? w = some (start, cls) →
    let a := s.setClock (s.clock.toTicket w.val start)
    let b := a.endDue.verifyLane (a.endDue.cipherLane start)
    Timed s a ∧ (start < lapSlots → a.clock.slot = start) ∧
    (w.val ∉ s.clock.windows.2 → a.clock.lap = (if s.clock.slot ≤ start then s.clock.lap else s.clock.lap + 1)) ∧
    (s.clock.slot = start → s.clock.windows.1 = s.clock.now → w.val ∈ s.clock.windows.2 → a.clock.lap = s.clock.lap + 1) ∧
    b.lanes[a.endDue.cipherLane start] = none ∧ (∃ u : State, exec (.ticketWindow w) s = .next u.pump) ∧
    ((b.flash.cutAt ≠ none ∨ (cls ≠ 1 ∧ cls ≠ 2 ∧ cls ≠ 3) ∨ (cls = 3 ∧ b.ownerNow (b.tenantWindow w) = none)) →
      exec (.ticketWindow w) s = .next b.pump) ∧
    (b.flash.cutAt = none → cls = 2 → ∀ (batch sector : Nat) (rest : List (Nat × Nat)) (leaf : Bytes), b.audit.spilled = (batch, sector) :: rest →
      b.spillRecords / 64 ≤ b.audit.spilled.length → b.audit.oldest = none → b.windowFetch? sector 3072 = some leaf →
      ∃ u : State, exec (.ticketWindow w) s = .next u.pump ∧ u.audit = { b.audit with oldest := some leaf } ∧
        u = { b with audit := u.audit, flash := { b.flash with sent := u.flash.sent }, events := u.events, sleep := u.sleep }) ∧
    (b.flash.cutAt = none → cls = 3 → ∀ (t : TSlot) (d : TenantDecl), b.ownerNow (b.tenantWindow w) = some t → b.decl? t = some d →
      let fetched := fun (u : State) => u = { b with lanes := u.lanes, tenants := u.tenants, flash := { b.flash with sent := u.flash.sent }, events := u.events, sleep := u.sleep }
      (∀ g : Staging, (b.tenant t).staging = some g → g.next < stagingLeaves d.denShare →
        b.programHolds (refChip (b.stagingAt m d g.generation g.next).1) = false →
        ∃ u : State, exec (.ticketWindow w) s = .next u.pump ∧ fetched u ∧
          (u.tenant t).staging = some { g with next := g.next + 1 } ∧ (∀ t', t' ≠ t → u.tenant t' = b.tenant t') ∧
          ∃ j, u.lanes[b.cipherLane start] = some j ∧ j.purpose = .staging t ∧ j.no = g.next ∧ j.content = b.stagingFetch m d g.generation g.next ∧
            j.until_ = b.now + 4096) ∧
      ((b.tenant t).staging = none → (b.tenant t).life = .released → b.commit = none →
        (∀ c, (b.tenant t).chains = [c] → c.busy = false → b.needsDead m t d c = true → exec (.ticketWindow w) s = .next (b.refuseChain t c Code.flashFailed).pump) ∧
        ((∀ c ∈ (b.tenant t).chains, b.needsDead m t d c = false) →
          ((b.tenant t).nextChain? d = none → exec (.ticketWindow w) s = .next b.pump) ∧
          (∀ c k no ref off serial tag, (b.tenant t).nextChain? d = some (c, k, no) → b.leafPlace? m t d k no = some (ref, off, serial, tag) →
            (b.windowFetch? ref off = none → exec (.ticketWindow w) s = .next b.pump) ∧
            (∀ bytes, b.windowFetch? ref off = some bytes → ∃ u : State, exec (.ticketWindow w) s = .next u.pump ∧ fetched u ∧
              u.lanes[b.cipherLane start] = some ⟨.chain t c.leaf, k, no, ref, bytes, tag, serial, b.now + 4096⟩ ∧
              ∀ t', t' ≠ t → u.tenant t' = b.tenant t')))))) ∧
  (∀ (s : State) (l : Fin 2), s.awake = true →
    (∃ u : State, exec (.leafVerifyDone l) s = .next u.pump ∧ u.lanes[l] = none ∧ u.otp = s.otp) ∧
    (s.lanes[l] = none → exec (.leafVerifyDone l) s = .next s.pump) ∧
    (∀ (j : LaneJob) (t : TSlot) (d : TenantDecl), s.lanes[l] = some j → j.purpose = .chain t j.no → j.kind = .data →
      s.decl? t = some d → (∃ c ∈ (s.tenant t).chains, c.leaf = j.no) →
      let m := s.pass (j.until_ - s.now)
      Timed s m ∧
      (∀ plain, s.openData t j.no j.serial j.content j.tag = some plain → ∃ u : State, exec (.leafVerifyDone l) s = .next u.pump ∧
        u = { m with lanes := s.lanes.set l none, tenants := u.tenants } ∧ (∀ t', t' ≠ t → u.tenant t' = s.tenant t') ∧
        (∀ c ∈ (u.tenant t).chains, c.leaf ≠ j.no) ∧ ⟨.data, j.no, plain, true⟩ ∈ (u.tenant t).inserts ∧
        (u.tenant t).descriptor? j.no = some ⟨j.no, j.sector, j.serial, j.tag⟩ ∧ (u.tenant t).cache = (s.tenant t).cache) ∧
      (s.openData t j.no j.serial j.content j.tag = none → ∃ u : State, exec (.leafVerifyDone l) s = .next u.pump ∧
        AuditOnly { m with lanes := s.lanes.set l none, tenants := u.tenants } u ∧ (∀ t', t' ≠ t → u.tenant t' = s.tenant t') ∧
        (∀ c ∈ (u.tenant t).chains, c.leaf ≠ j.no) ∧ (∀ x ∈ (u.tenant t).inserts, x ∈ (s.tenant t).inserts ∨ (x.kind = .failed ∧ x.content = [])) ∧
        .tampered (d.leafAddr j.no) ∈ (u.tenant t).outcomes ∧ (u.tenant t).cache = (s.tenant t).cache ∧ u.eventBit (Ev.badTag l.val) = true)))

/-- From R303, R304, R305, R313, R281, R282, R280. A validity publication. What waits to be dropped becomes invalid and what waits to be
inserted becomes valid, all at once, and nothing but the tenant's share changes; one inserted leaf takes the spare, and the victim, neither
the spare nor a held leaf where one can be found, becomes invalid and the next spare. A lane poll takes every event reported since the last
one and every outcome that waited, then publishes the flag byte and the fault page as one value; no other tenant, no key, no OTP cell and no
flash cell changes. A single 50h clears bits 6–1 and the fields of the page that it clears. Both run at their slot of the schedule, the
Cipher intervals ended by then worked. -/
def Obligations.PublicationsAndLanePolls : Prop :=
  (∀ (s : State) (t : TSlot), s.awake = true →
    let m := (s.toStart 9).endDue
    (s.lanes = Vector.replicate 2 none → Timed s m) ∧
    Completes (.cachePublication t) s (fun u =>
      u = { m with tenants := u.tenants } ∧ (∀ t', t' ≠ t → u.tenant t' = m.tenant t') ∧
      (u.tenant t).inserts = [] ∧ (u.tenant t).drops = [] ∧ (u.tenant t).awaited = [] ∧ (u.tenant t).chains = (m.tenant t).chains ∧
      ((m.tenant t).inserts = [] → ∀ i : Nat, (u.tenant t).cache[i]? = (m.tenant t).cache[i]?.map (fun c =>
        if (c.kind, c.no) ∈ (m.tenant t).drops then { c with valid := false } else c)) ∧
      (∀ l : CacheLeaf, (m.tenant t).inserts = [l] → (m.tenant t).cacheSize = (m.tenant t).cache.length → 2 ≤ (m.tenant t).cacheSize →
        (m.tenant t).spare < (m.tenant t).cacheSize →
        (u.tenant t).cache[(m.tenant t).spare]? = some { l with valid := true } ∧
        (u.tenant t).spare ≠ (m.tenant t).spare ∧ (u.tenant t).spare = (m.tenant t).applyDrops.victim ∧
        ((u.tenant t).cache[(u.tenant t).spare]?).map (·.valid) = some false ∧
        (u.tenant t).cachePtr = ((u.tenant t).spare + 1) % (m.tenant t).cacheSize))) ∧
  ((∀ (s : State) (t : TSlot) (d : TenantDecl), s.awake = true → (s.tenant t).served = true → s.decl? t = some d →
    let m := (s.toPoll (Ev.tenant t.val 0)).endDue
    (s.lanes = Vector.replicate 2 none → Timed s m) ∧
    Completes (.lanePoll t) s (fun u =>
      (∀ e ∈ (u.tenant t).events, ∃ a, e = .tampered a) ∧ ((m.tenant t).waitingReads = [] → (u.tenant t).events = []) ∧
      (u.tenant t).outcomes = [] ∧ (u.tenant t).pubFlag = (u.tenant t).flagByte (u.wipOf t) ∧
      (u.tenant t).pubFault = u.faultBytes t ∧ ((m.tenant t).served = true → (u.tenant t).alert = ((alertBits (u.tenant t).pubFlag) != 0)) ∧
      (∀ t', t' ≠ t → u.tenant t' = m.tenant t') ∧ u.keys = m.keys ∧ u.otp = s.otp ∧ u.flash = m.flash ∧ u.clock = m.clock)) ∧
  (∀ (s : State) (t : TSlot) (d : TenantDecl), s.awake = true → (s.tenant t).served = true → s.decl? t = some d → s.lanes = Vector.replicate 2 none →
    (s.tenant t).events = [.clearFlags] → (s.tenant t).outcomes = [] → (s.tenant t).wipDone = false → (s.tenant t).chains = [] →
    (s.tenant t).write = none → (s.tenant t).writes = [] → (s.tenant t).awaited = [] → (s.tenant t).flightMiss = [] → (s.tenant t).linkReq = [] →
    Completes (.lanePoll t) s (fun u =>
      alertBits (u.tenant t).pubFlag = 0 ∧ (u.tenant t).miss = false ∧ (u.tenant t).defer = false ∧ (u.tenant t).lastReason = 0 ∧
      (u.tenant t).lastOpcode = 0 ∧ (u.tenant t).lastAddr = 0xFFFFFFFF ∧ (u.tenant t).firstLate = 0xFFFFFFFF ∧
      (u.tenant t).firstTampered = 0xFFFFFFFF ∧ (u.tenant t).refusals = (s.tenant t).refusals ∧ (u.tenant t).confirmed = (s.tenant t).confirmed)))

/-- From R314, R333, R335. Once the deferral limit of the tenant's oldest chain not served or waiting write has passed, every such chain and
write past the limit is refused, a chain with QUOTA and a write with FULL, and the refusal is published. With none waiting nothing changes.
-/
def Obligations.DeferralLimitRefuses : Prop :=
  (∀ (s : State) (t : TSlot) (d : TenantDecl) (b : Nat), s.awake = true → (s.tenant t).served = true → s.decl? t = some d →
    (s.tenant t).limitAt d.deferral = some b → Completes (.deferralLimitExpiry t) s (fun u =>
      AtBoundary b s u ∧ (∀ c ∈ (u.tenant t).chains, c.served = false → u.clock.boundaries ≤ c.lap + d.deferral) ∧
      (∀ w, (u.tenant t).write = some w ∨ w ∈ (u.tenant t).writes → u.clock.boundaries ≤ w.lap + d.deferral) ∧ (u.tenant t).refuse = true ∧
      ((u.tenant t).lastReason = Code.quota ∨ (u.tenant t).lastReason = Code.full) ∧
      (u.tenant t).pubFlag = (u.tenant t).flagByte (u.wipOf t) ∧ (∀ t', t' ≠ t → u.tenant t' = s.tenant t') ∧
      u.keys = s.keys ∧ u.otp = s.otp ∧ u.flash = s.flash)) ∧
  (∀ (s : State) (t : TSlot) (d : TenantDecl), s.decl? t = some d → (s.tenant t).limitAt d.deferral = none → Unmoved (.deferralLimitExpiry t) s)

/-- From R265, R122, R266, R267, R268. After staging the free pool is built from the map leaves: exactly the pool sectors that no map leaf
references, that are not retired and not in the erase queue. The Sequencer starts no program or erase in the commit-low state, while one is
in progress, while the chips have no supply or sleep, or while the fabric does not run. -/
def Obligations.SequencerWaitsAndFindsTheFreeSectors : Prop :=
  (∀ (s : State) (m : Manifest), s.awake = true → s.staged = true → s.flash.poolReady = false → s.running.manifest = some m →
    let a := s.toStart 0
    Timed s a ∧ ∃ u : State, exec .freePoolRebuild s = .next u.pump ∧ u.flash.poolReady = true ∧
      (∀ r, r ∈ u.flash.free ↔ r ∈ a.poolRefs m ∧ (∀ d ∈ m.tenants, r ∉ a.mapRefs m d) ∧ r ∉ s.flash.retired ∧ r ∉ u.flash.eraseQueue) ∧
      (∀ r ∈ s.flash.eraseQueue, r ∈ u.flash.eraseQueue) ∧ u.flash.chips = s.flash.chips ∧ u.vault = s.vault ∧ u.otp = s.otp ∧
      u.tenants = s.tenants ∧ u.clock = a.clock ∧ (u.flash.free = [] → u.flash.eraseQueue = [] → u.eventBit Ev.poolEmpty = true)) ∧
  (∀ s : State, s.power.commitLow = true ∨ s.flash.op[(0 : Fin 2)] ≠ none ∨ s.flash.op[(1 : Fin 2)] ≠ none ∨ s.flash.cutAt ≠ none ∨
    s.flash.deepDown = true ∨ s.awake = false → s.pump = s)

/-- From R272, R275, R276, R277, R278. No command at a port changes anything but the front ends, the tenant that the port serves, what is
reported to its lane and, in S, what a wake request changes; no image, no key, no cell of flash, vault, OTP or Den. A port that serves
neither an intake nor the readout. -/
def Obligations.PortCommandsTouchOnlyTheFrontEnd : Prop :=
  ∀ (s : State) (c : Instr) (p : Port), portOf c = some p → s.view p ≠ .intake → s.view p ≠ .readout →
    Completes c s (fun u =>
      u = { s.setPort p (u.port p) with tenants := u.tenants, events := u.events, sleep := u.sleep, power := u.power, freeDrawn := u.freeDrawn } ∧
      (s.power.phase ≠ .s → u.power = s.power) ∧ (u.port p).mode = (s.port p).mode ∧ (u.port p).early = (s.port p).early ∧
      (∀ t d, s.view p = .tenant t d → ∀ t', t' ≠ t → u.tenant t' = s.tenant t') ∧
      (s.view p = .silent → u.tenants = s.tenants ∧ u.events = s.events ∧ u.port p = begun (s.port p)))

/-- From R273, R274, R275, R299, R306, R207, R307, R281. A read with its opcode honoured, 03h, 0Bh, 3Bh, BBh, 6Bh or EBh, returns, byte by
byte, the published content of the leaf that holds the address, and 0x5A where that leaf failed, is denied, is foreign or is not held, and
from the first leaf not held to the end of the command; with every leaf held nothing is reported. A read of one leaf that is not held,
failed, is denied or lies in no region reports that to the lane, once for the command. -/
def Obligations.PortReadsServeOnlyPublishedLeaves : Prop :=
  ∀ (s : State) (p : Port) (addr : BitVec 24) (mode : Byte) (count : Nat) (t : TSlot) (d : TenantDecl), s.view p = .tenant t d → (s.port p).takes = true →
    let answer := fun i => s.leafAnswer t d (s.port p).wip (addrAt addr.toNat i)
    (∀ i content, answer i = .bytes content → content.length = 1024) →
    let served := fun (c : Instr) (op : Byte) =>
      Completes c s (fun u =>
        (u.port p).out.length = count ∧
        (∀ i < count, (∃ j ≤ i, answer j = .miss) → (u.port p).out[i]? = some 0x5A) ∧
        (∀ i < count, (∀ j ≤ i, answer j ≠ .miss) → (u.port p).out[i]? = some (match answer i with
          | .bytes content => content.getD (addrAt addr.toNat i % 1024) 0
          | _ => 0x5A)) ∧
        ((∀ i < count, ∃ content, answer i = .bytes content) →
          u = { s.setPort p { begun (s.port p) with out := (u.port p).out } with freeDrawn := u.freeDrawn })) ∧
      (0 < count → count ≤ 1024 - addr.toNat % 1024 →
        (answer 0 = .miss → Completes c s (fun u => Reported p t (.miss op addr.toNat) s u ∧
          Noted (Ev.tenant t.val 0) u ∧ (u.port p).out = List.replicate count 0x5A)) ∧
        (answer 0 = .failed → Completes c s (fun u => Reported p t (.tampered addr.toNat) s u ∧
          (u.port p).out = List.replicate count 0x5A)) ∧
        (answer 0 = .denied → Completes c s (fun u => Reported p t (.denied op addr.toNat) s u ∧
          (u.port p).out = List.replicate count 0x5A)) ∧
        (answer 0 = .spoof → Completes c s (fun u => Reported p t (.spoof op addr.toNat) s u ∧
          (u.port p).out = List.replicate count 0x5A)))
    served (.readData p addr count) 0x03 ∧
    ((s.tenant t).hasGroup .fast = true → served (.fastRead p addr count) 0x0B) ∧
    ((s.tenant t).hasGroup .dual = true → served (.dualOutputRead p addr count) 0x3B ∧ served (.dualIoRead p addr mode count) 0xBB) ∧
    ((s.tenant t).hasGroup .quad = true → served (.quadOutputRead p addr count) 0x6B ∧ served (.quadIoRead p addr mode count) 0xEB)

/-- From R276. An opcode outside the tenant's set drives no output and has no effect; WEL and WIP stay; the lane hears of it with the opcode
and the three bytes on IO0, 0xFFFFFFFF without them. -/
def Obligations.FilteredOpcodesHaveNoEffect : Prop :=
  (∀ (s : State) (p : Port) (t : TSlot) (d : TenantDecl) (op : Byte) (x : Option (BitVec 24)), s.view p = .tenant t d →
    (s.tenant t).honours op = false → (s.port p).takes = true → Completes (.filteredOpcode p op x) s (fun u =>
      Reported p t (.filtered op (match x with | some a => a.setWidth 32 | none => 0xFFFFFFFF)) s u ∧ u.port p = begun (s.port p) ∧
      Noted (Ev.tenant t.val 4) u)) ∧
  (∀ (s : State) (p : Port) (t : TSlot) (d : TenantDecl) (a : BitVec 24) (mode : Byte) (n : Nat) (data : Bytes) (onByte : Bool) (c : Instr) (op : Byte)
      (g : Group) (x : Option (Option (BitVec 24))), (c, op, g, x) ∈ groupForms p a mode n data onByte → s.view p = .tenant t d →
    (s.tenant t).hasGroup g = false → (s.port p).takes = true → Completes c s (fun u =>
      (∃ y, Reported p t (.filtered op y) s u ∧ (∀ z, x = some z → y = (match z with | some a => a.setWidth 32 | none => 0xFFFFFFFF))) ∧
      u.port p = begun (s.port p) ∧ Noted (Ev.tenant t.val 4) u))

/-- States R277. Also from R278. While WIP is set, or in deep power-down, the commands of R277 and ABh apart, nothing is driven, nothing is
reported and nothing changes. -/
def Obligations.BusyOrSleepingPortIgnoresCommands : Prop :=
  ∀ (s : State) (p : Port) (t : TSlot) (d : TenantDecl) (c : Instr), portOf c = some p → s.view p = .tenant t d →
    ((s.port p).wip = true ∧ (∀ n, c ≠ .readStatus p n) ∧ (∀ n, c ≠ .readFlagStatus p n) ∧ c ≠ .clearFlags p ∧ c ≠ .resetEnable p ∧ c ≠ .reset p) ∨
      ((s.port p).deepDown = true ∧ c ≠ .resetEnable p ∧ c ≠ .reset p ∧ (∀ n, c ≠ .releasePowerDown p n)) →
    Completes c s (fun u => u = { s.setPort p (begun (s.port p)) with freeDrawn := u.freeDrawn })

/-- From R275, R314, R285. With its group honoured 06h sets WEL and 04h clears it, and a program or an erase with WEL set and chip select
raised on a byte boundary is taken: WIP is set and it waits for its lane, a program of a porch page as an event of its own; without WEL or
off a byte boundary it is ignored. -/
def Obligations.PortWritesAreTaken : Prop :=
  (∀ (s : State) (p : Port) (t : TSlot) (d : TenantDecl), s.view p = .tenant t d → (s.tenant t).hasGroup .program = true → (s.port p).takes = true →
    Completes (.writeEnable p) s (fun u => u = s.setPort p { begun (s.port p) with wel := true }) ∧
    Completes (.writeDisable p) s (fun u => u = s.setPort p { begun (s.port p) with wel := false })) ∧
  (∀ (s : State) (p : Port) (t : TSlot) (d : TenantDecl) (addr : BitVec 24) (data : Bytes) (onByte : Bool), s.view p = .tenant t d → (s.port p).takes = true →
    let taken := fun (c : Instr) (opcode : Byte) (op : WriteOp) =>
      ((s.port p).wel = false ∨ onByte = false → Completes c s (fun u => u = s.setPort p (begun (s.port p)))) ∧
      ((s.port p).wel = true → onByte = true → Completes c s (fun u => u.port p = { begun (s.port p) with wip := true } ∧
        u.tenant t = { s.tenant t with write := some ⟨op, s.clock.boundaries, false, opcode, none⟩ } ∧ (∀ t', t' ≠ t → u.tenant t' = s.tenant t') ∧
        Noted (Ev.tenant t.val 1) u))
    ((s.tenant t).hasGroup .program = true → data ≠ [] → ((d.region addr.toNat).isPage = false ∨ (s.tenant t).life ≠ .released) →
      taken (.pageProgram p addr data onByte) 0x02 (.program addr.toNat data)) ∧
    ((s.tenant t).hasGroup .program = true → data = [] → Completes (.pageProgram p addr data onByte) s (fun u => u = s.setPort p (begun (s.port p)))) ∧
    ((s.tenant t).hasGroup .program = true → data ≠ [] → (d.region addr.toNat).isPage = true → (s.tenant t).life = .released →
      ((s.port p).wel = false ∨ onByte = false → Completes (.pageProgram p addr data onByte) s (fun u => u = s.setPort p (begun (s.port p)))) ∧
      ((s.port p).wel = true → onByte = true → Completes (.pageProgram p addr data onByte) s (fun u =>
        u.port p = { begun (s.port p) with wip := true } ∧ Reported p t (.porchProgram addr.toNat (pageWrites addr.toNat data)) s u))) ∧
    ((s.tenant t).hasGroup .erase4k = true → taken (.sectorErase4k p addr onByte) 0x20 (.erase4k addr.toNat)) ∧
    ((s.tenant t).hasGroup .erase64k = true → taken (.blockErase64k p addr onByte) 0xD8 (.erase64k addr.toNat)))

/-- From R277, R279, R280, R281, R282, R284, R275, R278. The status byte, the flag byte as published, the tenant's SFDP and its ID bytes,
each repeated or read as the command clocks them; 50h is reported to the lane. 99h acts only right after 66h: it clears WEL and ends deep
power-down and leaves the rest. B9h enters deep power-down, ABh leaves it and, past 24 further clocks, returns the third of the ID bytes. -/
def Obligations.PortStatusResetAndPowerDown : Prop :=
  (∀ (s : State) (p : Port) (t : TSlot) (d : TenantDecl) (n : Nat) (a : BitVec 24), s.view p = .tenant t d → (s.port p).deepDown = false →
    Completes (.readStatus p n) s (fun u => u = s.setPort p { begun (s.port p) with
      out := List.replicate n (BitVec.ofNat 8 ((if (s.port p).wip then 1 else 0) + (if (s.port p).wel then 2 else 0))) }) ∧
    ((s.tenant t).missReported = false → (s.port p).wip = false → Completes (.readFlagStatus p n) s (fun u =>
      u = s.setPort p { begun (s.port p) with out := List.replicate n (s.tenant t).pubFlag })) ∧
    Completes (.readFlagStatus p n) s (fun u => u = s.setPort p { begun (s.port p) with out := List.replicate n (flagNow (s.tenant t) (s.port p).wip) }) ∧
    Completes (.clearFlags p) s (fun u => Reported p t .clearFlags s u ∧ u.port p = begun (s.port p) ∧ Noted (Ev.tenant t.val 3) u) ∧
    ((s.port p).wip = false → Completes (.readSfdp p a n) s (fun u =>
      u = s.setPort p { begun (s.port p) with out := (u.port p).out } ∧ (u.port p).out.length = n ∧
      ∀ i < n, (u.port p).out[i]? = some (((sfdpBytes (s.tenant t) d)[addrAt a.toNat i]?).getD 0xFF))) ∧
    ((s.port p).wip = false → Completes (.readId p n) s (fun u => u = s.setPort p { begun (s.port p) with out := (u.port p).out } ∧
      (u.port p).out.length = n ∧ ∀ i < n, (u.port p).out[i]? = some (d.idBytes.getD i 0)))) ∧
  (∀ (s : State) (p : Port) (t : TSlot) (d : TenantDecl) (n : Nat), s.view p = .tenant t d →
    Completes (.resetEnable p) s (fun u => u = s.setPort p { begun (s.port p) with resetArmed := true }) ∧
    ((s.port p).resetArmed = true → Completes (.reset p) s (fun u => u = s.setPort p { begun (s.port p) with wel := false, deepDown := false })) ∧
    ((s.port p).resetArmed = false → Completes (.reset p) s (fun u => u = s.setPort p (begun (s.port p)))) ∧
    ((s.tenant t).hasGroup .powerDown = true → (s.port p).wip = false →
      ((s.port p).deepDown = false → Completes (.deepPowerDown p) s (fun u => u = s.setPort p { begun (s.port p) with deepDown := true })) ∧
      Completes (.releasePowerDown p n) s (fun u =>
        u = s.setPort p { begun (s.port p) with deepDown := false, out := List.replicate n (byteAt d.idBytes 2) })))

/-- From R116, R187, R236, R286, R414, R191, R475. A chip-select fall at a powered bound port before its tenant's release is counted, up to
65,535, with its event in N; at a port without a tenant, or one that is served, or without its supply, it is not. One at port A while the
ROM tries PA is heard by the attempt. A whole page at the next expected address of the sequential intake is absorbed, with WEL clear again;
at address 0 it begins an object anew. In the readout start a program of 16 bytes at 0x011000 after 06h asks for a statement: its record is
appended, its content fixed with the nonce, and port A is busy until it is signed. -/
def Obligations.ChipSelectIntakeAndReadout : Prop :=
  ((∀ (s : State) (p : Port) (t : TSlot), s.portTenant p = some t → s.servesIntake p = false →
    s.power.portOn = true → (s.power.phase = .b ∨ s.power.phase = .n ∨ s.power.phase = .s) →
    ((s.tenant t).restarting = true ∨ (s.tenant t).life = .created ∨ (s.tenant t).life = .held) → Completes (.chipSelectFall p) s (fun u =>
      (u.port p).early = min 65535 ((s.port p).early + 1) ∧ u = { s.setPort p (u.port p) with events := u.events, sleep := u.sleep } ∧
      (s.power.phase = .n → u.eventBit (Ev.tenant t.val 6) = true))) ∧
  (∀ (s : State) (p : Port), ((s.portTenant p = none ∧ s.portA.mode ≠ .intake) ∨ (∃ t, s.portTenant p = some t ∧ (s.tenant t).restarting = false ∧
    (s.tenant t).life = .released) ∨ (∃ t, s.portTenant p = some t ∧ s.power.portOn = false)) → Unmoved (.chipSelectFall p) s) ∧
  (∀ s : State, s.portTenant .a = none → s.portA.mode = .intake → exec (.chipSelectFall .a) s = .next { s with boot := { s.boot with heard := true } })) ∧
  ((∀ (s : State) (addr : BitVec 24) (data : Bytes), s.view .a = .intake → s.portA.mode ≠ .intake → s.portA.wip = false → s.portA.deepDown = false →
    s.portA.wel = true → data.length = 256 → addr.toNat % 256 = 0 →
    (addr = 0 ∨ ∃ b, s.update.intake = some (addr.toNat, b, false)) →
    (∀ b, s.update.intake = some (addr.toNat, b, false) → objectLength (b ++ data) = none ∨ (b ++ data).length < 64 + field (b ++ data) 8 4) →
    (addr = 0 → s.objectBusy = false ∧ (objectLength data = none ∨ data.length < 64 + field data 8 4)) →
    let absorbed := fun (u : State) => u = { s with portA := { begun s.portA with wel := false }, update := { s.update with intake := u.update.intake } } ∧
      ∃ b, u.update.intake = some (addr.toNat + 256, b, false) ∧
        b = (if addr = 0 then data else (match s.update.intake with | some (_, b, _) => b | none => []) ++ data)
    Completes (.intakePageProgram addr data) s absorbed ∧ Completes (.pageProgram .a addr data true) s absorbed) ∧
  (∀ (s : State) (addr : BitVec 24) (data : Bytes), s.view .a ≠ .intake → Completes (.intakePageProgram addr data) s (fun u =>
    u = { s with portA := begun s.portA }))) ∧
  (∀ (s : State) (nonce : Bytes), s.view .a = .readout → s.boot.stage = .readout → s.portA.wip = false → s.portA.deepDown = false → s.portA.wel = true →
    nonce.length = 16 → s.statements.queue = [] →
    let asked := fun (u : State) => u.portA = { begun s.portA with wip := true, wel := false } ∧
      (∃ q, u.statements.queue = [q] ∧ q.asker = .readout ∧ q.nonce = nonce ∧ q.claims ≠ none) ∧
      AuditOnly { s with portA := u.portA, statements := u.statements, freeDrawn := u.freeDrawn } u ∧
      ∀ i < 4, u.vault.read erased (serialAt + i) = (be 4 ((s.vaultValue? serialAt).getD 0 + 1)).getD i 0
    Completes (.readoutStatementRequest nonce) s asked ∧ Completes (.pageProgram .a 0x011000 nonce true) s asked)

/-- From R314, R276, R320, R315, R316, R324, R413. A waiting write that a row refuses is refused at the poll with the row's reason, its
address and opcode; WIP and WEL clear in the same publication, and nothing is stored; so is one of the header sector while an object of it
is taken. A write that no row refuses waits while the tenant's buffer or commit is in its way. A decided write closes a buffer open for
another sector, whatever the decision; an accepted one is taken: a program is ANDed into the bounce buffer, which a posted tenant keeps open
with its mark written to the vault and a synchronous one closes, and its sector is in flight; an erase waits for its commit, a buffer open
within its range discarded. -/
def Obligations.WriteAcceptanceRefusesOrAccepts : Prop :=
  (∀ (s : State) (t : TSlot) (d : TenantDecl) (w : PendingWrite), s.awake = true → s.decl? t = some d → (s.tenant t).write = some w →
    let closed := if (s.tenant t).bounce.state = .opened ∧ w.op.covers ((s.tenant t).bounce.sector + d.denShare) = false then
      { (s.tenant t).bounce with state := .closed } else (s.tenant t).bounce
    let refused := fun (reason : Byte) => Completes (.writeAcceptance t) s (fun u =>
      (u.tenant t).write = none ∧ (u.tenant t).refuse = true ∧ (u.tenant t).lastReason = reason ∧ (u.tenant t).lastOpcode = w.opcode ∧
      (u.tenant t).lastAddr = BitVec.ofNat 32 w.op.addr ∧ (u.tenant t).refusals = min 65535 ((s.tenant t).refusals + 1) ∧
      (u.tenant t).pubFlag = (u.tenant t).flagByte (u.wipOf t) ∧ (∀ p, d.port? = some p → (u.port p).wip = false ∧ (u.port p).wel = false) ∧
      (u.tenant t).bounce = closed ∧ (u.tenant t).eraseWait = (s.tenant t).eraseWait ∧ (∀ t', t' ≠ t → u.tenant t' = s.tenant t') ∧
      u.flash = s.flash ∧ u.keys = s.keys ∧ u.otp = s.otp)
    ((s.tenant t).life = .degraded → refused Code.policy) ∧
    ((s.tenant t).life = .released →
      (d.region w.op.addr = .none → refused Code.spoof) ∧
      (d.region w.op.addr ≠ .none → d.region w.op.addr ≠ .data → refused Code.policy) ∧
      (d.writable w.op = true →
        (d.writeMode = .readOnly → refused Code.policy) ∧
        (d.writeMode ≠ .readOnly →
          ((s.tenant t).frozen = true → refused Code.frozen) ∧
          ((s.tenant t).frozen = false →
            (s.power.commitLow = true → refused Code.lowbat) ∧
            (s.power.commitLow = false → w.op.isProgram = true → s.poolEmpty = true → refused Code.full) ∧
            (s.power.commitLow = false → (w.op.isProgram = true → s.poolEmpty = false) → s.headerTaken t = true → w.op.covers d.denShare = true →
              refused Code.notReady)))))) ∧
  (∀ (s : State) (t : TSlot) (d : TenantDecl) (w : PendingWrite), s.awake = true → s.decl? t = some d → (s.tenant t).write = some w →
    (s.tenant t).life = .released → d.writable w.op = true → d.writeMode ≠ .readOnly → (s.tenant t).frozen = false → s.power.commitLow = false →
    (w.op.isProgram = true → s.poolEmpty = false) → (s.headerTaken t && w.op.covers d.denShare) = false →
    let x := s.tenant t
    let held := fun (m : Cells) (o : Nat) => (m.find? (fun c => c.1 == o)).map (·.2)
    (s.writeBlocked t d w.op = true → Completes (.writeAcceptance t) s (fun u =>
      (u.tenant t).write = some w ∧ u.flash = s.flash ∧ u.vault = s.vault ∧
      (u.tenant t).bounce = (if x.bounce.state = .opened ∧ w.op.covers (x.bounce.sector + d.denShare) = false then { x.bounce with state := .closed }
        else x.bounce))) ∧
    (s.writeBlocked t d w.op = false →
      (∀ a data, w.op = .program a data → x.bounce.written.Pairwise (fun p q => p.1 < q.1) → Completes (.writeAcceptance t) s (fun u =>
        (u.tenant t).write = none ∧ (u.tenant t).accepted = some w ∧ (u.tenant t).bounce.sector = d.dataSector (a / 4096) ∧
        (u.tenant t).bounce.state = (if d.writeMode = .posted then .opened else .closed) ∧
        (u.tenant t).bounce.lastMerge = s.clock.boundaries ∧ d.dataSector (a / 4096) ∈ (u.tenant t).inFlight ∧
        (∀ o, held (u.tenant t).bounce.written o =
          match (pageWrites a data).find? (fun p => p.1 % 4096 == o), if x.bounce.state = .empty then none else held x.bounce.written o with
          | some p, some b => some (b &&& p.2)
          | some p, none => some p.2
          | none, r => r) ∧
        (d.writeMode = .posted → ∃ ws, u.update.vaultWrite = s.update.vaultWrite ++ [⟨ws, some t⟩]) ∧
        (d.writeMode ≠ .posted → u.update = s.update) ∧ u.flash = s.flash ∧ u.keys = s.keys ∧ u.otp = s.otp ∧
        (∀ t', t' ≠ t → u.tenant t' = s.tenant t'))) ∧
      (w.op.isProgram = false → Completes (.writeAcceptance t) s (fun u =>
        (u.tenant t).write = none ∧ (u.tenant t).accepted = some w ∧ (u.tenant t).eraseWait = some (d.dataSector w.op.sectors.1, w.op.sectors.2) ∧
        (u.tenant t).bounce = (if x.bounce.state = .opened then Bounce.none else x.bounce) ∧ u.vault = s.vault ∧ u.update = s.update ∧ u.flash = s.flash ∧
        u.keys = s.keys ∧ u.otp = s.otp ∧ (∀ t', t' ≠ t → u.tenant t' = s.tenant t')))))

/-- From R315, R317, R264, R265, R268, R269, R318, R413. An open buffer closes at slot 0 of the fifth lap after the lap of its last merge,
its bytes as they were; any other buffer stays. With no commit in progress the next lane in lane order after the one served last that has
something to commit is served in the Sequencer's next interval: a closed buffer is committing from then on, and what the commit needs is
fetched before C1, as for Warden's own header write; an erase needs its metadata leaves alone. One whose leaves a power cycle of the flash
withholds waits; one with a leaf on a failed chip or with a leaf that fails its check ends (the last is the model's reading, log 20). C1
takes the first free pool sector after the last taken whose chip serves, and seals the sector into it when it reads erased; it waits in the
commit-low state and until the pool is known. -/
def Obligations.CommitsCloseServeAndTakeSectors : Prop :=
  ((∀ (s : State) (t : TSlot), s.awake = true → (s.tenant t).bounce.state = .opened → Completes (.bounceBufferIdleClose t) s (fun u =>
    u.tenant t = { s.tenant t with bounce := { (s.tenant t).bounce with state := .closed } } ∧ AtBoundary ((s.tenant t).bounce.lastMerge + 5) s u ∧
    (∃ m, Timed s m ∧ u = { m with tenants := u.tenants }) ∧ ∀ t', t' ≠ t → u.tenant t' = s.tenant t')) ∧
  (∀ (s : State) (t : TSlot), (s.tenant t).bounce.state ≠ .opened → Unmoved (.bounceBufferIdleClose t) s)) ∧
  (∀ (s : State) (m : Manifest) (t : TSlot) (d : TenantDecl) (kind : CommitKind) (sector i : Nat), s.awake = true → s.commit = none →
    s.power.commitLow = false → s.running.manifest = some m → s.decl? t = some d → (s.tenant t).commitKind? = some (kind, sector) →
    i < 16 → t.val = (s.lastLane + 1 + i) % 16 → (∀ j < i, ∀ t' : TSlot, t'.val = (s.lastLane + 1 + j) % 16 → (s.tenant t').commitKind? = none) →
    let a := s.toStart 1
    let c := Commit.fresh t kind sector (s.tenant t).cachedMeta
    let starts := fun (own : Tenant → Prop) =>
      (commitNeed c d ≠ none → ∃ u : State, exec .commitStart s = .next u.pump ∧ u = { a with commit := some c, tenants := u.tenants } ∧
        own (u.tenant t) ∧ ∀ t', t' ≠ t → u.tenant t' = s.tenant t') ∧
      (commitNeed c d = none → ∃ u : State, exec .commitStart s = .next (u.commitC1 c).pump ∧ u = { a with tenants := u.tenants } ∧
        own (u.tenant t) ∧ ∀ t', t' ≠ t → u.tenant t' = s.tenant t')
    Timed s a ∧ (∃ u : State, exec .commitStart s = .next u.pump ∧ u.otp = s.otp ∧ u.flash.chips = s.flash.chips) ∧
    (kind = .program → starts (fun x => x = { s.tenant t with bounce := { (s.tenant t).bounce with state := .committing } })) ∧
    (∀ h, kind = .header h → starts (fun x => x = { s.tenant t with headerWait := none })) ∧
    (∀ f n, kind = .erase f n →
      let ends := ∃ u : State, exec .commitStart s = .next u.pump ∧ u.commit = none ∧ u.lastLane = t.val ∧ (u.tenant t).eraseWait = none ∧
        (u.tenant t).wipDone = true ∧ u.flash.chips = s.flash.chips ∧ ∃ o ∈ (u.tenant t).outcomes, ∃ op x, o = .refused Code.flashFailed op x
      (∀ ls, a.eraseLeaves m t d f n = some ls → exec .commitStart s = .next (a.commitC4 m d { c with leaves := ls }).pump) ∧
      (a.eraseLeaves m t d f n = none → (∃ k ∈ a.areaChips m d, s.flash.dead[k] = true) → ends) ∧
      (a.eraseLeaves m t d f n = none → (∀ k ∈ a.areaChips m d, s.flash.dead[k] = false) → s.flash.cutAt ≠ none →
        exec .commitStart s = .next { a with commit := some { c with stage := .c1 } }.pump) ∧
      (a.eraseLeaves m t d f n = none → s.flash.cutAt = none → ends))) ∧
  (∀ (s : State) (c : Commit), (s.power.commitLow = true ∨ s.flash.poolReady = false →
      s.commitC1 c = { s with commit := some { c with stage := .c1, tasks := [], begun := false, target := 0 } }) ∧
    (∀ r, s.power.commitLow = false → s.flash.poolReady = true → (s.tenant c.tenant).ceilingSet = true → r ∈ s.flash.free → s.chipServes (refChip r) = true →
      s.flash.lastTaken < r → s.flash.free.Pairwise (· < ·) → (∀ q ∈ s.flash.free, s.chipServes (refChip q) = true → s.flash.lastTaken < q → r ≤ q) →
      allBytes 0xFF (s.sectorBytes r 0 4096) = true →
      ∃ c' : Commit, (s.commitC1 c).commit = some c' ∧ c'.stage = .c2 ∧ c'.target = r ∧ c'.serial = (s.tenant c.tenant).serial ∧
        ((s.commitC1 c).tenant c.tenant).serial = (s.tenant c.tenant).serial + 1 ∧ r ∉ (s.commitC1 c).flash.free ∧
        (s.commitC1 c).flash.lastTaken = r ∧ c'.tasks = pageTasks (refChip r) (refAddr r) c'.cipher))

/-- From R251, R252, R269, R268, R255, R262, R266, R466. An operation that ends well has programmed or erased exactly its bytes, but in a
sector where the chip ignores the command, and its owner goes on; one that ends with its error bit set leaves its own bytes open and no
other byte changed, and its owner hears the cause. A chip with no operation running has none to end. An operation past its limit is lost. A
chip that still reads busy is power-cycled at most three times in a start, FPWR low and both chips without an operation; after that it takes
no further command. FPWR rises 10 laps after it fell and the chips are discovered again in the lap after; with both chips good they serve
again. In phase B the wait is counted in slots and a wipe goes on. A discovered chip that does not answer again gets another cycle, up to
the limit, and is then taken for failed. The Sequencer's own work starts only when it may write and no other write is in progress: the
oldest queued sector whose chip serves is erased; a due directory copy begins with the erase of the sector that the live copy does not use;
a batch not spilled begins with its first page in an erased spill sector. -/
def Obligations.FlashOperationsEndAndTheSequencerGoesOn : Prop :=
  (∀ (s : State) (c : Fin 2) (err : Bool), (s.running? c = none → Unmoved (.flashOperationDone c err) s) ∧
    (∀ o : FlashOp, s.running? c = some o → o.task.chip = c → Cells.wf erased s.flash.chips[c].cells = true → ∃ u : State,
      exec (.flashOperationDone c err) s = .next (if o.owner = .wipe then u.wipeStep o (if err then some o.task.kind.errorCause else none)
        else (u.opEnded o (if err then some o.task.kind.errorCause else none)).pump) ∧
      u.flash.op[c] = none ∧ Noted (Ev.busyCleared c.val) u ∧ (err = true → Noted (Ev.errorBit c.val) u) ∧
      u = { s with flash := u.flash, events := u.events, sleep := u.sleep, freeDrawn := u.freeDrawn } ∧
      (∀ c' : Fin 2, c' ≠ c → u.flash.chips[c'] = s.flash.chips[c'] ∧ u.flash.op[c'] = s.flash.op[c']) ∧
      (∀ a, a < o.task.span.1 ∨ o.task.span.1 + o.task.span.2 ≤ a →
        u.flash.chips[c].cells.read erased a = s.flash.chips[c].cells.read erased a) ∧
      (let ignored := fun (a : Nat) => s.flash.chips[c].ignores.contains (a / 4096)
       (err = false → o.task.kind ≠ .program → ∀ a, o.task.span.1 ≤ a → a < o.task.span.1 + o.task.span.2 →
         u.flash.chips[c].cells.read erased a = (if ignored a then s.flash.chips[c].cells.read erased a else 0xFF)) ∧
       (err = false → o.task.kind = .program → ignored o.task.addr = true → u.flash.chips[c] = s.flash.chips[c]) ∧
       (err = false → o.task.kind = .program → ignored o.task.addr = false → ∀ i < o.task.data.length,
         u.flash.chips[c].cells.read erased (o.task.addr + i) = s.flash.chips[c].cells.read erased (o.task.addr + i) &&& o.task.data.getD i 0)))) ∧
  (∀ (s : State) (c : Fin 2) (busy : Bool), (s.running? c = none → Unmoved (.flashOperationTimeout c busy) s) ∧
    (∀ o : FlashOp, s.running? c = some o → o.owner ≠ .wipe → s.flash.cutAt = none → ∃ u : State, exec (.flashOperationTimeout c busy) s = .next u.pump ∧
      u.flash.op[c] = none ∧ Noted (Ev.opTimeout c.val) u ∧
      (busy = true → s.flash.cycles < 3 → u.flash.cutAt = some s.clock.boundaries ∧ u.flash.cycles = s.flash.cycles + 1 ∧ u.pads.fpwr = .low ∧
        u.pads.fclk = .low ∧ u.pads.fcs0 = .low ∧ u.pads.fcs1 = .low ∧ u.pads.fio = .low ∧ ∀ k : Fin 2, u.flash.op[k] = none) ∧
      (busy = true → 3 ≤ s.flash.cycles → u.flash.cutAt = none ∧ u.flash.dead[c] = true) ∧
      (busy = false → u.flash.cutAt = none ∧ u.flash.cycles = s.flash.cycles)) ∧
    (∀ o : FlashOp, s.running? c = some o → o.owner = .wipe → ∃ u : State, exec (.flashOperationTimeout c busy) s = .next (u.wipeTimeout c o busy) ∧
      u = { s with flash := { s.flash with sent := u.flash.sent }, events := u.events, sleep := u.sleep } ∧ Noted (Ev.opTimeout c.val) u)) ∧
  ((∀ (s : State) (b : Nat) (answers0 answers1 : Bool), s.flash.cutAt = some b →
    let answers := fun (c : Fin 2) => if c = 0 then answers0 else answers1
    let good := ∀ c : Fin 2, answers c = true ∧ (s.chip c).failedRow = 0
    let fails := fun (c : Fin 2) => answers c = false ∧ s.flash.found[c].ran = true ∧ s.flash.found[c].row = 0 ∧ s.flash.dead[c] = false
    let kept := fun (u : State) => Noted Ev.powerCycled u ∧ u.flash.chips = s.flash.chips ∧ u.otp = s.otp ∧ u.vault = s.vault
    (good → s.awake = true → ∃ u : State, exec (.flashPowerRestore answers0 answers1) s = .next u.pump ∧ u.flash.cutAt = none ∧ u.pads.fpwr = .high ∧
      u.pads.fcs0 = .high ∧ u.clock = (s.clock.toBoundary (b + 10) true).nextLap true ∧ kept u ∧ u.flash.dead = s.flash.dead ∧ u.tenants = s.tenants) ∧
    (s.awake = true → ∀ c : Fin 2, fails c → ∃ u : State, exec (.flashPowerRestore answers0 answers1) s = .next u.pump ∧ kept u ∧
      (s.flash.cycles < 3 → u.flash.cutAt = some u.clock.boundaries ∧ u.flash.cycles = s.flash.cycles + 1 ∧ u.pads.fpwr = .low) ∧
      (3 ≤ s.flash.cycles → u.flash.cutAt = none ∧ u.flash.dead[c] = true ∧ u.pads.fpwr = .high)) ∧
    (good → s.power.phase = .b → ∃ u : State,
      exec (.flashPowerRestore answers0 answers1) s = .next (match s.flash.wipeAt with | some (c, k) => u.wipePast c k | none => u) ∧
      u.flash.cutAt = none ∧ u.pads.fpwr = .high ∧ kept u)) ∧
  (∀ (s : State) (answers0 answers1 : Bool), s.flash.cutAt = none → Unmoved (.flashPowerRestore answers0 answers1) s)) ∧
  ((∀ (s : State) (r : Nat), s.mayHousekeep = true → s.flash.eraseQueue.find? (fun q => s.chipServes (refChip q)) = some r → Completes .eraseQueueErase s (fun u =>
    u.flash.op[refChip r] = some ⟨⟨.erase4k, refChip r, refAddr r, []⟩, .eraseQueue, false⟩ ∧
    u.flash.sent[refChip r] = [0x06, (s.chip (refChip r)).sfdp.taskOp .erase4k] ∧
    (∃ m, Timed s m ∧ u = { m with flash := { s.flash with op := u.flash.op, sent := u.flash.sent } }) ∧
    ∀ c, c ≠ refChip r → u.flash.op[c] = s.flash.op[c])) ∧
  (∀ s : State, s.mayHousekeep = true → s.commit = none → s.update.plan = none → s.flash.directoryDue = true → s.chipServes 0 = true → Completes .flashDirectoryUpdate s (fun u =>
    let k := match s.flash.directory with | some (_, 2) => 3 | _ => 2
    let n := match s.flash.directory with | some (n, _) => n + 1 | none => 1
    u.flash.op[(0 : Fin 2)] = some ⟨eraseTask k, .directory, false⟩ ∧ u.flash.directoryDue = false ∧
    u.flash.directoryPages = pageTasks 0 (4096 * k) (s.directoryImage n) ∧ u.flash.chips = s.flash.chips ∧
    ∃ m, Timed s m ∧ u = { m with flash := u.flash })) ∧
  (∀ (s : State) (b sector : Nat) (rest left : List Nat) (page : FlashTask) (pages : List FlashTask), s.mayHousekeep = true → s.commit = none → s.update.plan = none → s.audit.unspilled = b :: rest →
    s.audit.spillErased = sector :: left → s.spillRecords ≠ 0 → s.audit.spilled.length < s.spillRecords / 64 →
    pageTasks (refChip sector) (refAddr sector) (s.spillImage b) = page :: pages → s.chipServes page.chip = true → Completes .spillBatchWrite s (fun u =>
      u.flash.op[page.chip] = some ⟨page, .spill, false⟩ ∧ u.audit.spilling = some (b, sector, pages) ∧ u.audit.unspilled = rest ∧ u.audit.spillErased = left ∧
      ∃ m, Timed s m ∧ u = { m with audit := u.audit, flash := { s.flash with op := u.flash.op, sent := u.flash.sent } })) ∧
  (∀ s : State, s.mayHousekeep = false → Unmoved .eraseQueueErase s ∧ Unmoved .flashDirectoryUpdate s ∧ Unmoved .spillBatchWrite s))

/-- From R170, R320, R324, R178, R179, R180, R123, R177. The oldest vault write in progress is stored: the last word of it reads as written
and no byte outside it changes; a posted program's WIP clears at the next lane poll. A ledger update takes 3 laps from slot 0 of a lap. In
the commit-low state it is refused with LOWBAT and the vault stays. Otherwise, with the monitor clear throughout, the commit word holds
`sequence` + 1; in no case, a trip in any step included, does a byte of the live half change. An update that nothing follows changes neither
tenants nor keys nor flash. The ledger is initialised in a start that found it lost, at slot 0 of a lap at which the commit monitor is
clear: half A with `sequence` 1, half B with 0, the commit word 1. -/
def Obligations.VaultWritesAndLedgerUpdates : Prop :=
  ((∀ (s : State) (j : VaultJob) (rest : List VaultJob), s.awake = true → s.update.vaultWrite = j :: rest → Completes .vaultWriteComplete s (fun u =>
    u.update = { s.update with vaultWrite := rest } ∧ u.eventBit Ev.vaultWritten = true ∧
    (∀ t, u.tenant t = if j.wip = some t then { s.tenant t with wipDone := true } else s.tenant t) ∧
    (∀ w bs, j.words.getLast? = some (w, bs) → ∀ i < bs.length, u.vault.read erased (w + i) = bs.getD i 0) ∧
    (∀ a, (∀ x ∈ j.words, a < x.1 ∨ x.1 + x.2.length ≤ a) → u.vault.read erased a = s.vault.read erased a) ∧
    u = { s with vault := u.vault, vaultBad := u.vaultBad, update := u.update, tenants := u.tenants, events := u.events, sleep := u.sleep })) ∧
  (∀ s : State, s.update.vaultWrite = [] → Unmoved .vaultWriteComplete s)) ∧
  (∀ (s : State) (req : LedgerReq) (rest : List LedgerReq) (trip : Option (Fin 4)) (live : Bool), s.awake = true → s.isRunning = true →
    s.liveHalf? = some live → s.update.ledger = req :: rest →
    (∃ t, exec (.ledgerUpdate trip) s = .next t) ∧
    (req.after = .nothing → Completes (.ledgerUpdate trip) s (fun t =>
      t.update.ledger = rest ∧ t.clock.slot = 0 ∧ t.clock.boundaries = s.clock.toLapStart.boundaries + 3 ∧ t.eventBit Ev.ledgerEnded = true ∧
      (∀ i < 4096, t.vault.read erased (halfAt live + i) = s.vault.read erased (halfAt live + i)) ∧
      (s.power.commitLow = true → t.vault = s.vault) ∧ (trip ≠ none → t.power.commitLow = true) ∧
      (s.power.commitLow = false → trip = none → s.ledgerSeq < 0xFFFFFFFE → Cells.wf erased s.vault = true →
        ∀ i < 4, t.vault.read erased (commitWordAt + i) = (be 4 (s.ledgerSeq + 1)).getD i 0) ∧
      t.tenants = s.tenants ∧ t.keys = s.keys ∧ t.otp = s.otp ∧ t.flash.chips = s.flash.chips))) ∧
  ((∀ s : State, s.awake = true → s.isRunning = true → s.update.initDue = true → s.power.commitLow = false → Completes .ledgerInitialise s (fun t =>
    t.update.initDue = false ∧ t.boot.ledgerLost = false ∧ t.clock = s.clock.toLapStart ∧ t.clock.slot = 0 ∧
    (∀ i < 4, t.vault.read erased (halfAt false + i) = (be 4 1).getD i 0 ∧ t.vault.read erased (halfAt true + i) = 0 ∧
      t.vault.read erased (commitWordAt + i) = (be 4 1).getD i 0) ∧
    t.tenants = s.tenants ∧ t.keys = s.keys ∧ t.otp = s.otp ∧ t.flash = s.flash)) ∧
  (∀ s : State, s.power.commitLow = true ∨ s.update.initDue = false → Unmoved .ledgerInitialise s))

/-- From R458, R460, R463. An append commits up to 8 queued records in order, from the next Ledger interval. One record within a batch: its
slot of the ring holds its sequence, time, kind, tenant and body and the tag that chains it from the record before, the head word holds its
sequence, and no other byte of the vault changes. -/
def Obligations.AuditAppendChainsTheRecord : Prop :=
  (∀ s : State, s.awake = true → s.boot.life ≠ .scrapped → s.audit.overflow = 0 → Completes .auditAppend s (fun u =>
    u.audit.queue = s.audit.queue.drop 8 ∧ u.otp = s.otp ∧ u.keys = s.keys ∧ u.flash = s.flash ∧ u.clock = (s.toStart 6).clock)) ∧
  (∀ (s : State) (r : AuditReq) (head : Nat) (prev : Bytes), s.awake = true → s.boot.life ≠ .scrapped → s.audit.overflow = 0 → s.audit.queue = [r] →
    r.onCommit = .nothing → r.time.length = 6 → s.audit.settled = true → s.audit.restartAt = none → s.vaultValue? headAt = some head →
    (head + 1) % 64 ≠ 0 → s.ringSlot? head = some prev →
    let rec32 := be 4 (head + 1) ++ r.time ++ [r.kind, r.tenant] ++ fit 20 0 r.body
    Completes .auditAppend s (fun u => Timed s (s.toStart 6) ∧ AuditOnly (s.toStart 6) u ∧ u.audit.queue = [] ∧
      (∀ i b, (rec32 ++ chainTag s.unitNumber (recordTag prev) rec32)[i]? = some b → u.vault.read erased (ringAt (head + 1) + i) = b) ∧
      (∀ i < 4, u.vault.read erased (headAt + i) = (be 4 (head + 1)).getD i 0) ∧
      (∀ a, (a < ringAt (head + 1) ∨ ringAt (head + 1) + 48 ≤ a) → (a < headAt ∨ headAt + 4 ≤ a) → u.vault.read erased a = s.vault.read erased a)))

/-- From R66, R115, R116, R117, R118, R267, R119, R120, R121, R363. The fabric powers down at slot 0 of a lap, with the Cipher work of the
lap before it done, when no work, no event and no unread notice is left: buck, fabric and vault domains off, the port domain on while a
tenant is served (the model's choice, log 29), the leaf cache and the Cipher lanes empty, the chips in deep power-down by their own opcode;
keys, tenants' flags, the notice store, OTP, vault and flash are kept, the Den and the front ends' registers while the port domain is on.
With a condition of R118 unmet nothing changes. In S a wake request powers buck, fabric and vault and the fabric resumes at the next
boundary that is at least 20,480 slots away, or within that bound at the next one, where the spec leaves the time open; an edge on LNK asks
only while the link is not off, and the sleep timer at its count, when that lies before the resume. The resume is at slot 0: the events of S
and the mailbox bits of unread notices are latched then, and the chips leave deep power-down. -/
def Obligations.SleepEntryAndResume : Prop :=
  (∀ (s : State) (n : Option Nat), s.awake = true →
    let a := (s.setClock s.clock.toLapStart).endLanes
    a.clock = s.clock.toLapStart ∧
    (a.maySleep = true → Completes (.sleepEntry n) s (fun u =>
      u.power = { a.power with phase := .s, buckOn := false, fabricOn := false, vaultOn := false, portOn := a.anyServed } ∧
      u.sleep.wakeCount = n.map (fun k => a.clock.boundaries + k) ∧ u.sleep.resumeAt = none ∧ u.lanes = Vector.replicate 2 none ∧
      u.flash = { a.flash with deepDown := true, sent := u.flash.sent } ∧
      (∀ c : Fin 2, a.chipServes c = true → u.flash.sent[c] = [(a.chip c).sfdp.downOps.1]) ∧ u.link.idleSeen = false ∧ u.pads.lnk = .monitored ∧
      (∀ t, (u.tenant t).inserts = [] ∧ (∀ l ∈ (u.tenant t).cache, l.valid = false) ∧ (u.tenant t).life = (a.tenant t).life ∧
        (u.tenant t).pubFlag = (a.tenant t).pubFlag ∧ (u.tenant t).denValid = (a.tenant t).denValid) ∧
      (a.anyServed = true → u.den = a.den ∧ u.denFill = a.denFill ∧ u.portA = a.portA ∧ u.portB = a.portB) ∧
      (a.anyServed = false → (u.portA.mode = a.portA.mode ∧ u.portA.early = a.portA.early ∧ u.portA.wel = false ∧ u.portA.deepDown = false) ∧
        (u.portB.mode = a.portB.mode ∧ u.portB.early = a.portB.early ∧ u.portB.wel = false ∧ u.portB.deepDown = false)) ∧
      (Cells.wf (fillOf a.sramFill) a.sram = true → ∀ x, 0xF800 ≤ x → x < 0x10000 →
        u.sram.read (fillOf u.sramFill) x = a.sram.read (fillOf a.sramFill) x) ∧
      u.keys = a.keys ∧ u.vault = a.vault ∧ u.otp = a.otp ∧ u.mailbox = a.mailbox ∧ u.badger = a.badger ∧ u.clock = a.clock ∧ u.sessions = a.sessions)) ∧
    (a.maySleep = false → Unmoved (.sleepEntry n) s)) ∧
  ((∀ (s : State) (src : WakeSource), s.power.phase = .s → s.sleep.resumeAt = none → (src = .lnkEdge → s.link.role ≠ .off) →
    Completes (.wakeRequest src) s (fun u => u.power = { s.power with buckOn := true, fabricOn := true, vaultOn := true } ∧
      (∃ b, u.sleep.resumeAt = some b ∧ (b = s.clock.boundaries + 1 ∨ b = s.clock.boundaries + 2) ∧
        (s.clock.slot + 20480 ≤ 65536 → b = s.clock.boundaries + 1)) ∧
      Noted Ev.wakeRequest u ∧ (src = .lnkEdge → u.sleep.lnkWoke = true) ∧ u.clock = s.clock ∧
      u = { s with power := u.power, sleep := u.sleep, freeDrawn := u.freeDrawn })) ∧
  (∀ s : State, s.link.role = .off → Unmoved (.wakeRequest .lnkEdge) s) ∧
  (∀ (s : State) (src : WakeSource), s.power.phase ≠ .s → Unmoved (.wakeRequest src) s) ∧
  (∀ (s : State) (b : Nat), s.power.phase = .s → s.sleep.wakeCount = some b →
    (s.sleep.resumeAt = none → Completes .sleepTimerWake s (fun u =>
      AtBoundary b s u ∧ u.clock.lap = s.clock.lap ∧ Noted Ev.sleepTimer u ∧ u.sleep.wakeCount = none ∧ u.sleep.resumeAt ≠ none ∧
      u.power = { s.power with buckOn := true, fabricOn := true, vaultOn := true })) ∧
    (∀ r, s.sleep.resumeAt = some r → b < r → Completes .sleepTimerWake s (fun u => AtBoundary b s u ∧ Noted Ev.sleepTimer u ∧ u.sleep.wakeCount = none ∧
      u.sleep.resumeAt = some r ∧ u.power = s.power)) ∧
    (∀ r, s.sleep.resumeAt = some r → r ≤ b → Unmoved .sleepTimerWake s)) ∧
  (∀ (s : State) (b : Nat), s.power.phase = .s → s.sleep.resumeAt = some b → Completes .fabricResume s (fun u =>
    u.power = { s.power with phase := .n, buckOn := true, fabricOn := true, vaultOn := true, portOn := true } ∧ AtBoundary b s u ∧
    u.clock.lap = s.clock.lap ∧ u.clock.startLap = s.clock.startLap ∧
    u.flash = { s.flash with deepDown := false, sent := u.flash.sent, readyAt := u.flash.readyAt } ∧
    (∀ c : Fin 2, s.chipServes c = true → u.flash.sent[c] = [(s.chip c).sfdp.downOps.2]) ∧
    (∀ c : Fin 2, u.now + 64 * (s.chip c).sfdp.exitDelayUs ≤ u.flash.readyAt[c]) ∧
    u.eventBit Ev.resumed = true ∧ (∀ e < 256, s.eventBit e = true ∨ s.sleep.waiting.getLsbD e = true → u.eventBit e = true) ∧
    (∀ (ch : Fin 12) (d : ChannelDecl) (a : Bool), ∀ n < 8, s.mailbox.channels[ch].decl = some d → (d.side a).event = some n →
      s.mailbox.channels[ch].unread a ≠ [] → u.eventBit (Ev.mailbox n) = true) ∧
    u.sleep.resumeAt = none ∧ u.sleep.waiting = 0 ∧
    ∃ m, Timed s m ∧ u = { m with power := u.power, flash := u.flash, pads := { m.pads with lnk := u.pads.lnk }, sleep := u.sleep, events := u.events })))

/-- States R67. Also from R53, R57, R58, R59, R60, R61, R66, R68, R62. A send by a master that runs. Its status is the first of R59 that
applies; UNBOUND, RANGE, ASLEEP and FULL change nothing else. An accepted notice carries sender, sequence, offset, length and topic,
advances the side's sequence, and on a shared channel replaces an unread one, both sides COLLIDED; its receiver's event is latched, or in S
the fabric is asked to wake. Both sides of a shared channel send at one edge: the notice of the lower identity is written first, the other
replaces it, and both sides are COLLIDED. -/
def Obligations.NoticeSendStatuses : Prop :=
  (∀ (s : State) (ch : Fin 12) (r : NoticeReq), s.masterRuns r.sender.val = true →
    let c := s.mailbox.channels[ch]
    let only := fun (code : BitVec 3) => Completes (.noticeSend ch r none) s (fun u =>
      u = { s with mailbox := { s.mailbox with sendStatus := (code, 0) } })
    (s.mailbox.locked = false ∨ c.decl = none → only 4) ∧
    (∀ d : ChannelDecl, s.mailbox.locked = true → c.decl = some d →
      (d.sendingSide r.sender.val = none → only 4) ∧
      (∀ a, d.sendingSide r.sender.val = some a →
        (noticeInRegion (d.side a) r = false → only 5) ∧
        (noticeInRegion (d.side a) r = true → isFabricMaster (d.side !a).identity = true → s.power.phase ≠ .n → (d.side !a).wake = false → only 3) ∧
        (noticeInRegion (d.side a) r = true → (isFabricMaster (d.side !a).identity = false ∨ s.power.phase = .n ∨ (d.side !a).wake = true) →
          (d.shared = false → d.depth ≤ c.queue.length → only 2) ∧
          (d.shared = true ∨ c.queue.length < d.depth → Completes (.noticeSend ch r none) s (fun u =>
            let e := u.mailbox.channels[ch]
            u.mailbox.sendStatus = (if d.shared = true ∧ c.queue ≠ [] then 1 else 0, 0) ∧
            (∃ w : BitVec 32, e.queue = (if d.shared = true then [] else c.queue) ++ [(w, a)] ∧ w.toNat / 2 ^ 28 = r.sender.val ∧
              w.toNat / 2 ^ 20 % 256 = (if a then c.seqA else c.seqB).toNat ∧ w.toNat / 2 ^ 12 % 256 = r.offset.toNat ∧
              w.toNat / 2 ^ 7 % 32 = r.length.toNat ∧ w.toNat % 128 = r.topic.toNat) ∧
            e.seqA = (if a then c.seqA + 1 else c.seqA) ∧ e.seqB = (if a then c.seqB else c.seqB + 1) ∧
            (d.shared = true → c.queue ≠ [] → e.collidedA = true ∧ e.collidedB = true) ∧ (∀ k, k ≠ ch → u.mailbox.channels[k] = s.mailbox.channels[k]) ∧
            (s.power.phase = .n → isFabricMaster (d.side !a).identity = true → ∀ n < 8, (d.side !a).event = some n → u.eventBit (Ev.mailbox n) = true) ∧
            (s.power.phase = .s → isFabricMaster (d.side !a).identity = true → u.sleep.resumeAt ≠ none ∧ u.events = s.events) ∧
            u = { s with mailbox := u.mailbox, events := u.events, sleep := u.sleep, power := u.power, freeDrawn := u.freeDrawn })))))) ∧
  (∀ (s : State) (ch : Fin 12) (d : ChannelDecl) (a b : NoticeReq), s.masterRuns a.sender.val = true → s.masterRuns b.sender.val = true → s.mailbox.locked = true →
    s.mailbox.channels[ch].decl = some d → d.shared = true → d.sideA.identity = a.sender.val → d.sideB.identity = b.sender.val →
    a.sender.val < b.sender.val → noticeInRegion d.sideA a = true → noticeInRegion d.sideB b = true → s.power.phase = .n →
    Completes (.noticeSend ch a (some b)) s (fun u => u.mailbox.sendStatus = (if s.mailbox.channels[ch].queue = [] then 0 else 1, 1) ∧
      (∃ w : BitVec 32, u.mailbox.channels[ch].queue = [(w, false)] ∧ w.toNat / 2 ^ 28 = b.sender.val) ∧
      u.mailbox.channels[ch].collidedA = true ∧ u.mailbox.channels[ch].collidedB = true ∧ u.tenants = s.tenants ∧ u.otp = s.otp))

/-- From R63, R64, R445, R33, R34, R43, R50. A receive takes the oldest notice that the other side sent, with the number still unread, up to
7, and COLLIDED, which it clears; with none unread it takes nothing; a side with an event receives at a polling slot of that event. A notice
that Badger reads is a trigger of the next tick. An identity that may not read the channel changes nothing. A poll is made at the event's
next polling slot by the schedule: it reads the bit and clears it, and no other; the receiver of a mailbox event reads every unread notice;
an occurrence in the same slot stays latched. -/
def Obligations.NoticesAndEventsAreRead : Prop :=
  (∀ (s : State) (ch : Fin 12) (reader : Fin 16), s.masterRuns reader.val = true →
    let c := s.mailbox.channels[ch]
    let m := match s.sideEvent? ch reader.val with | some n => s.atPoll (Ev.mailbox n) | none => s
    Timed s m ∧
    (c.decl = none → Unmoved (.noticeReceive ch reader) s) ∧
    (∀ d : ChannelDecl, c.decl = some d →
      (d.readingSide reader.val = none → Unmoved (.noticeReceive ch reader) s) ∧
      (∀ a, d.readingSide reader.val = some a → (∀ n ∈ c.queue, n.2 ≠ a) →
        let collided := if a then c.collidedA else c.collidedB
        ((d.side a).event = none → m = s) ∧
        (c.queue = [] → Completes (.noticeReceive ch reader) s (fun u =>
          u = { m with mailbox := { s.mailbox with received := (none, if collided then 8 else 0) } })) ∧
        (∀ w x rest, c.queue = (w, x) :: rest → Completes (.noticeReceive ch reader) s (fun u =>
          u.mailbox.received = (some w, BitVec.ofNat 4 (min 7 rest.length + (if collided then 8 else 0))) ∧
          u.mailbox.channels[ch] = { c with queue := rest, collidedA := if a then false else c.collidedA, collidedB := if a then c.collidedB else false } ∧
          (∀ k, k ≠ ch → u.mailbox.channels[k] = s.mailbox.channels[k]) ∧
          (reader.val = 5 → u.badger = { m.badger with notices := s.badger.notices ++ [w.setWidth 7] }) ∧
          (reader.val ≠ 5 → reader.val ≠ 2 → u = { m with mailbox := u.mailbox }) ∧ u.tenants = s.tenants ∧ u.otp = s.otp ∧ u.keys = s.keys))))) ∧
  (∀ (s : State) (e : Fin 256) (again : Bool), s.awake = true → Completes (.eventPoll e again) s (fun u =>
    u.polled = s.eventBit e.val ∧ (∀ k < 256, s.eventBit k = true → k ≠ e.val → u.eventBit k = true) ∧
    (again = true → u.eventBit e.val = true) ∧ Timed s (s.toPoll e.val) ∧ u.clock = (s.toPoll e.val).clock ∧
    (∀ (x : Schedule) (p : PollEntry), s.running.schedule = some x → x.polls[e.val]? = some p → p.code ≤ 7 → p.offset < 2 ^ (p.code + 9) →
      u.clock.slot % 2 ^ (p.code + 9) = p.offset) ∧
    (¬(200 ≤ e.val ∧ e.val ≤ 207) → (∀ k < 256, k ≠ e.val → u.eventBit k = s.eventBit k) ∧ u.eventBit e.val = again ∧
      u = { s.toPoll e.val with events := u.events, polled := u.polled, sleep := u.sleep }) ∧
    (∀ (ch : Fin 12) (d : ChannelDecl) (a : Bool) (n : Nat), s.mailbox.channels[ch].decl = some d → (d.side a).event = some n → Ev.mailbox n = e.val → n < 8 →
      d.readingSide (d.side a).identity = some a → u.mailbox.channels[ch].unread a = []) ∧
    u.tenants = s.tenants ∧ u.otp = s.otp ∧ u.keys = s.keys ∧ u.flash = s.flash))

/-- From R287, R339, R396, R465, R472. A statement page's request joins the queue of one in progress and two waiting, the first with its
serial taken and its STATEMENT record requested; a full queue refuses it with FULL on the page. Two laps of signing after the next Curve
interval begins the statement in progress is on its page, status done, and the next one begins; in the readout start it is at the readout
page and port A is free again. A signing that gives no signature is made again: the statement stays in progress. -/
def Obligations.StatementsQueueAndSign : Prop :=
  (∀ (s : State) (t : TSlot) (d : TenantDecl), s.client? t = some d → s.porchPending t .statement = true →
    (∀ q ∈ s.statements.queue, q.asker.slot? ≠ some t) →
    (3 ≤ s.statements.queue.length → Completes (.makeStatement t) s (fun u => (u.tenant t).statementPage.status = 3 ∧
      (u.tenant t).statementPage.reason = Code.full ∧ (u.tenant t).refuse = true ∧ (u.tenant t).lastReason = Code.full ∧ u.statements = s.statements ∧
      (∀ t', t' ≠ t → u.tenant t' = s.tenant t'))) ∧
    (s.statements.queue.length < 3 → Completes (.makeStatement t) s (fun u =>
      u.statements = { s.statements with queue := s.statements.queue ++ [⟨.tenant t, (s.tenant t).statementPage.range 4 16, none⟩] } ∧
      u.tenants = s.tenants ∧ AuditOnly { s with statements := u.statements } u ∧
      (s.statements.queue ≠ [] → u.vault = s.vault ∧ u.audit = s.audit) ∧
      (s.statements.queue = [] → s.isRunning = true →
        (∀ i < 4, u.vault.read erased (serialAt + i) = (be 4 ((s.vaultValue? serialAt).getD 0 + 1)).getD i 0) ∧
        (s.boot.life ≠ .scrapped → s.audit.queue.length < 32 → ∃ r, u.audit.queue = s.audit.queue ++ [r] ∧ r.kind = Code.statement ∧ r.onCommit = .statement))))) ∧
  (∀ (s : State) (q : StmtReq) (rest : List StmtReq) (payload : Bytes), s.awake = true → s.statements.queue = q :: rest → q.claims = some payload →
    let a := s.toStart 4
    let signed := fun (u : State) => u.clock = a.clock.skipLaps 2 true ∧ u.drbg = s.drbg + 32 ∧ u.otp = s.otp ∧ u.keys = s.keys ∧ u.flash = s.flash
    Timed s a ∧
    ((s.signStatement payload).1 = none → Completes .statementSigning s (fun u => signed u ∧ u.statements = s.statements ∧ u.tenants = s.tenants ∧
      u.eventBit Ev.curveBad = true)) ∧
    (∀ bytes, (s.signStatement payload).1 = some bytes → Completes .statementSigning s (fun u => signed u ∧ u.statements.queue = rest ∧
      (∀ t, q.asker = .tenant t → (u.tenant t).statementPage.status = 2 ∧ (u.tenant t).statementPage.reason = 0 ∧
        ∀ t', t' ≠ t → u.tenant t' = s.tenant t')))) ∧
  (∀ (s : State) (q : StmtReq) (payload : Bytes), s.power.phase = .b → s.boot.stage = .readout → s.statements.queue = [q] → q.claims = some payload → q.asker = .readout →
    ((s.signStatement payload).1 = none → Completes .statementSigning s (fun u => u.statements = s.statements ∧ u.portA = s.portA ∧ u.vault = s.vault)) ∧
    (∀ bytes, (s.signStatement payload).1 = some bytes → Completes .statementSigning s (fun u => u.statements.queue = [] ∧
      76 ≤ u.statements.readout.length ∧ u.portA = { s.portA with wip := false, wel := false } ∧ u.vault = s.vault ∧ u.otp = s.otp ∧ u.flash = s.flash)))

/-- From R288, R470, R290, R422, R430. A note whose slot byte is the tenant's own and whose type is a tenant's is requested of Ledger, at
most eight in a lap; another slot is refused as SPOOF, a type from 0x80 up by POLICY, and a ninth note waits. A confirmation that names the
running generation ends its trial: CONFIRMED, no window left, page done. Another generation is refused with POLICY and a frozen tenant with
FROZEN. -/
def Obligations.NotesAndConfirmations : Prop :=
  (∀ (s : State) (t : TSlot) (d : TenantDecl), s.client? t = some d → s.porchPending t .note = true → (∀ r ∈ s.audit.queue, r.onCommit ≠ .note t) →
    let p := (s.tenant t).notePage
    (p.byte3 ≠ BitVec.ofNat 8 t.val → Completes (.appendNote t) s (fun u => (u.tenant t).notePage.status = 3 ∧ (u.tenant t).notePage.reason = Code.spoof ∧
      (u.tenant t).lastReason = Code.spoof ∧ (u.tenant t).refuse = true)) ∧
    (p.byte3 = BitVec.ofNat 8 t.val → 0x80 ≤ (p.byte 4).toNat → Completes (.appendNote t) s (fun u => (u.tenant t).notePage.status = 3 ∧
      (u.tenant t).notePage.reason = Code.policy ∧ (u.tenant t).lastReason = Code.policy ∧ u.audit = s.audit)) ∧
    (p.byte3 = BitVec.ofNat 8 t.val → (p.byte 4).toNat < 0x80 →
      (8 ≤ s.notesNow t → Unmoved (.appendNote t) s) ∧
      (s.notesNow t < 8 → s.isRunning = true → s.boot.life ≠ .scrapped → s.audit.queue.length < 32 → Completes (.appendNote t) s (fun u =>
        u.audit = { s.audit with queue := s.audit.queue ++ [⟨Code.note, BitVec.ofNat 8 t.val, s.timeField, fit 20 0 (p.range 4 1 ++ p.range 8 18), .note t⟩] } ∧
        u.notesNow t = s.notesNow t + 1 ∧ (u.tenant t).notePage = p ∧ u = { s with audit := u.audit, tenants := u.tenants } ∧
        ∀ t', t' ≠ t → u.tenant t' = s.tenant t')))) ∧
  (∀ (s : State) (t : TSlot) (d : TenantDecl), s.client? t = some d → s.porchPending t .confirm = true →
    let named := beNat ((s.tenant t).confirmPage.range 4 2)
    ((s.tenant t).frozen = true → Completes (.confirmGeneration t) s (fun u => (u.tenant t).confirmPage.status = 3 ∧
      (u.tenant t).confirmPage.reason = Code.frozen ∧ (u.tenant t).lastReason = Code.frozen ∧ u.vault = s.vault)) ∧
    ((s.tenant t).frozen = false → named ≠ (s.tenant t).generation → Completes (.confirmGeneration t) s (fun u => (u.tenant t).confirmPage.status = 3 ∧
      (u.tenant t).confirmPage.reason = Code.policy ∧ (u.tenant t).lastReason = Code.policy ∧ u.vault = s.vault)) ∧
    ((s.tenant t).frozen = false → named = (s.tenant t).generation → Completes (.confirmGeneration t) s (fun u =>
      (u.tenant t).confirmPage.status = 2 ∧ (u.tenant t).confirmPage.reason = 0 ∧ u.otp = s.otp ∧ u.keys = s.keys ∧ u.flash = s.flash ∧
      (∀ t', t' ≠ t → u.tenant t' = s.tenant t') ∧ (u.tenant t).generation = (s.tenant t).generation ∧
      ((s.trial t).onTrial = true → (u.tenant t).confirmed = true ∧ (u.tenant t).windowEnds = none) ∧
      ((s.trial t).onTrial = false → u.vault = s.vault ∧ (u.tenant t).confirmed = (s.tenant t).confirmed))))

/-- From R172, R289, R430. Request 1 puts 32 new bytes of the DRBG and the next serial on the nonce page; request 2 advances the tenant
counter by one; request 3 does both or neither. A frozen tenant, the commit-low state and a counter at its maximum refuse an advance with
FROZEN, LOWBAT and POLICY. -/
def Obligations.NoncesAndCounters : Prop :=
  ∀ (s : State) (t : TSlot) (d : TenantDecl), s.client? t = some d → s.porchPending t .nonce = true →
    let req := (s.tenant t).noncePage.request
    let old := beNat ((s.tenant t).noncePage.range 8 4)
    let given := fun (u : State) => u.drbg = s.drbg + 32 ∧ (∀ i < 32, (u.tenant t).noncePage.byte (0x10 + i) = Config.drbgByte (s.drbg + i)) ∧
      (∀ i < 4, (u.tenant t).noncePage.byte (8 + i) = (be 4 ((old + 1) % 2 ^ 32)).getD i 0)
    let done := fun (u : State) => (u.tenant t).noncePage.status = 2 ∧ (u.tenant t).noncePage.reason = 0 ∧ (∀ t', t' ≠ t → u.tenant t' = s.tenant t') ∧
      u.otp = s.otp ∧ u.keys = s.keys ∧ u.flash = s.flash
    let counted := fun (u : State) => Cells.wf erased s.vault = true → u.counter (tenantCounterAt t) = s.counter (tenantCounterAt t) + 1
    let refused := fun (c : Instr) (reason : Byte) => Completes c s (fun u => (u.tenant t).noncePage.status = 3 ∧ (u.tenant t).noncePage.reason = reason ∧
      (u.tenant t).lastReason = reason ∧ u.vault = s.vault ∧ u.drbg = s.drbg ∧ ∀ t', t' ≠ t → u.tenant t' = s.tenant t')
    (req = 1 → Completes (.newNonce t) s (fun u => given u ∧ done u ∧ u.vault = s.vault)) ∧
    let advances := fun (c : Instr) =>
      ((s.tenant t).frozen = true → refused c Code.frozen) ∧
      ((s.tenant t).frozen = false → s.power.commitLow = true → refused c Code.lowbat) ∧
      ((s.tenant t).frozen = false → s.power.commitLow = false → 0xFFFFFFFE ≤ s.counter (tenantCounterAt t) → refused c Code.policy) ∧
      ((s.tenant t).frozen = false → s.power.commitLow = false → s.counter (tenantCounterAt t) < 0xFFFFFFFE → Completes c s (fun u => done u ∧ counted u ∧
        (req = 3 → given u) ∧ (req = 2 → u.drbg = s.drbg)))
    (req = 2 → advances (.advanceCounter t)) ∧ (req = 3 → advances (.nonceAndAdvance t)) ∧
    (req ≠ 1 → Unmoved (.newNonce t) s) ∧ (req ≠ 2 → Unmoved (.advanceCounter t) s) ∧ (req ≠ 3 → Unmoved (.nonceAndAdvance t) s)

/-- From R64, R235, R434, R441, R442, R443, R444, R445, R446, R447, R453, R454, R455. A tick falls at its BDG edge: it counts, takes what
was latched since the last one, moves the timers, the holds of E and T and the permit latch, and drives ACT_EN by the rows of R455; it
writes nothing of tenants, keys, vault, flash or OTP. A guard is as its decision left it. A program switch that is due comes before the
tick. Without a program Badger and the PMU only read their channels. -/
def Obligations.BadgerTickDrivesActEn : Prop :=
  (∀ (s : State) (p : BProgram) (v0 v1 v2 v3 : Nat), s.badgerRuns = some p → s.switchDue? = none → Completes (.badgerTick v0 v1 v2 v3) s (fun u =>
    let b := u.badger
    b.started = true ∧ b.tick = (if s.badger.started then s.badger.tick + 1 else 0) ∧ b.expired = 0 ∧ b.notices = [] ∧ b.guardChanged = false ∧
    b.program = some p ∧ b.policy = s.badger.policy ∧ u.pads.actEn = (if b.actEn then .high else .low) ∧
    (b.policy = none → b.actEn = false) ∧
    (b.policy ≠ none →
      (b.egress = true → b.actEn = true) ∧
      (b.egress = false → (∃ g ∈ b.guards, g.2 ≠ .released) → b.actEn = false) ∧
      (b.egress = false → (∀ g ∈ b.guards, g.2 = .released) → b.tamper = true → b.actEn = false) ∧
      (b.egress = false → (∀ g ∈ b.guards, g.2 = .released) → b.tamper = false → b.actEn = b.latch)) ∧
    (∀ a, b.policy = some a →
      (b.input a.egress = true → b.egress = true) ∧
      (b.input a.egress = false → s.badger.egress = false → b.egress = false) ∧
      (b.input a.egress = false → s.badger.egress = true → s.badger.input a.egress = true → b.egress = true ∧
        b.egressLeft = ticksOf a.egressHoldMs (tickPeriods p.tickCode)) ∧
      (b.input a.egress = false → s.badger.egress = true → s.badger.input a.egress = false → b.egress = decide (1 < s.badger.egressLeft) ∧
        b.egressLeft = s.badger.egressLeft - 1) ∧
      (b.input a.tamper = true → b.tamper = true) ∧ (b.input a.tamper = false → s.badger.tamper = false → b.tamper = false)) ∧
    (p.rules = [] → (∀ i : Fin 8, b.timers[i] = s.badger.timers[i] - 1) ∧ b.latch = (if s.badger.started then s.badger.latch else p.initialLatch)) ∧
    ((∃ r ∈ p.rules, r.source = 15 ∧ r.mask = 0 ∧ r.value = 0 ∧ r.actions.getLsbD 3 = true) → b.latch = false) ∧
    b.guards = s.badger.guards ∧ b.nextTick = u.clock.rtc + tickPeriods p.tickCode ∧
    u.clock = (s.pass (s.clock.slotsToRtc (if s.badger.started then s.badger.nextTick else s.clock.rtc + 1))).clock ∧
    u = { s with clock := u.clock, badger := u.badger, pads := u.pads, mailbox := u.mailbox, sram := u.sram, events := u.events, sleep := u.sleep, power := u.power
                 portA := u.portA, portB := u.portB, freeDrawn := u.freeDrawn })) ∧
  (∀ (s : State) (p q : BProgram) (v0 v1 v2 v3 : Nat), s.badgerRuns = some p → s.switchDue? = some q →
    exec (.badgerTick v0 v1 v2 v3) s = exec (.badgerTick v0 v1 v2 v3) (s.switchBadger q) ∧ (s.switchBadger q).badgerRuns = some q ∧ (s.switchBadger q).switchDue? = none) ∧
  (∀ (s : State) (v0 v1 v2 v3 : Nat), s.badgerRuns = none → s.inReset = false → Completes (.badgerTick v0 v1 v2 v3) s (fun u =>
    u = { s with mailbox := u.mailbox, badger := { s.badger with notices := u.badger.notices } } ∧
    ∀ (ch : Fin 12) (d : ChannelDecl), s.mailbox.channels[ch].decl = some d → d.sideB.identity = 5 →
      u.mailbox.channels[ch].unread false = [])) ∧
  (∀ (s : State) (v0 v1 v2 v3 : Nat), s.badgerRuns = none → s.inReset = true → Unmoved (.badgerTick v0 v1 v2 v3) s)

/-- From R436, R437, R438, R495. A sample beyond the tolerance of the threshold is certain: with no glitch reject and no filter the channel
follows it, with the polarity of its entry; a channel not enabled is not sampled. -/
def Obligations.BadgerSamplesFollowThePins : Prop :=
  ∀ (s : State) (p : BProgram) (v : Fin 4 → Nat) (i : Fin 4), s.badgerRuns = some p → s.switchDue? = none →
    let c := p.channel i.val
    let ref := if c.pull then s.power.vbat else 1200
    Completes (.badgerTick (v 0) (v 1) (v 2) (v 3)) s (fun u =>
      (c.enable = false → u.badger.chans[i] = s.badger.chans[i]) ∧
      (c.enable = true → c.glitch = false → c.mode = 0 →
        ((thresholds c.threshold).1 * ref + (2 * ref + 1000) < 100 * v i → u.badger.chans[i].comparator = true ∧ u.badger.chans[i].filtered = !c.lowActive) ∧
        (100 * v i + (2 * ref + 1000) < (thresholds c.threshold).2 * ref → u.badger.chans[i].comparator = false ∧ u.badger.chans[i].filtered = c.lowActive)))

/-- From R441, R452, R453, R454, R455, R457. What happens to Badger at the edge of the tick that is due: a timer at its last tick stops and its
expiry is latched; a hold at its last tick ends E or T and ACT_EN is computed again; a changed guard state is written to the guard word for the tick at slot 0
of a lap; the loaded program takes over with its state kept. -/
def Obligations.BadgerBetweenTicks : Prop :=
  (∀ (s : State) (p : BProgram) (i : Fin 8), s.badgerRuns = some p →
    (s.badger.timers[i] = 1 → Completes (.badgerTimerExpiry i) s (fun u => u.badger.timers[i] = 0 ∧ u.badger.expired.getLsbD i.val = true ∧
      (∀ k : Fin 8, k ≠ i → u.badger.timers[k] = s.badger.timers[k] ∧ u.badger.expired.getLsbD k.val = s.badger.expired.getLsbD k.val) ∧
      ∃ m, Timed s m ∧ m.clock = (s.pass (s.clock.slotsToRtc s.badger.nextTick)).clock ∧
        u = { m with badger := { m.badger with timers := u.badger.timers, expired := u.badger.expired } })) ∧
    (s.badger.timers[i] ≠ 1 → Unmoved (.badgerTimerExpiry i) s)) ∧
  (∀ (s : State) (p : BProgram) (a : ActuatorPolicy), s.badgerRuns = some p → s.badger.policy = some a →
    (s.badger.egress = true → s.badger.egressLeft = 1 → s.badger.input a.egress = false → Completes .egressHoldExpiry s (fun u =>
      u.badger.egress = false ∧ u.badger.egressLeft = 0 ∧ u.badger.tamper = s.badger.tamper ∧ u.badger.guards = s.badger.guards ∧ u.badger.latch = s.badger.latch ∧
      u.badger.actEn = u.badger.permit ∧ u.pads.actEn = (if u.badger.actEn then .high else .low) ∧ Noted Ev.egressEnded u ∧
      u.tenants = s.tenants ∧ u.vault = s.vault ∧ u.keys = s.keys ∧ u.otp = s.otp ∧ u.clock = (s.pass (s.clock.slotsToRtc s.badger.nextTick)).clock)) ∧
    (s.badger.tamper = true → s.badger.tamperLeft = 1 → s.badger.input a.tamper = false → Completes .tamperHoldExpiry s (fun u =>
      u.badger.tamper = false ∧ u.badger.tamperLeft = 0 ∧ u.badger.egress = s.badger.egress ∧ u.badger.guards = s.badger.guards ∧ u.badger.latch = s.badger.latch ∧
      u.badger.actEn = u.badger.permit ∧ u.pads.actEn = (if u.badger.actEn then .high else .low) ∧ Noted Ev.tamperCleared u ∧
      u.tenants = s.tenants ∧ u.vault = s.vault ∧ u.keys = s.keys ∧ u.otp = s.otp ∧ u.clock = (s.pass (s.clock.slotsToRtc s.badger.nextTick)).clock))) ∧
  (∀ (s : State) (a : ActuatorPolicy), s.awake = true → s.badger.policy = some a →
    (a.guards.map (fun t => (t, (s.tenant t).guard)) ≠ s.badger.guards → Completes .guardWordWrite s (fun u =>
      u.badger = { s.badger with guards := a.guards.map (fun t => (t, (s.tenant t).guard)), guardChanged := true, pulse := u.badger.pulse } ∧
      u.clock = s.clock.toLapStart ∧ u.clock.slot = 0 ∧ ∃ m, Timed s m ∧ u = { m with badger := u.badger })) ∧
    (a.guards.map (fun t => (t, (s.tenant t).guard)) = s.badger.guards → Unmoved .guardWordWrite s)) ∧
  (∀ (s : State) (p q : BProgram), s.badgerRuns = some p → s.switchDue? = some q → Completes .badgerProgramSwitch s (fun u =>
    u.badger.program = some q ∧ u.badger.inactive = none ∧ u.badger.timers = s.badger.timers ∧ u.badger.latch = s.badger.latch ∧ u.badger.tick = s.badger.tick ∧
    u.badger.actEn = s.badger.actEn ∧ (∀ i : Fin 4, u.badger.chans[i].filtered = s.badger.chans[i].filtered) ∧ Noted Ev.programSwitched u ∧
    u.pads = s.pads ∧ u.tenants = s.tenants ∧ u.otp = s.otp ∧ u.vault = s.vault))

/-- From R238, R346, R352, R363. A frame that the unit acts on goes through the rows in order; the first row that fails drops it with its
count, EARLY in the listen span, and the Source and Seal rows answer NOT_ADMITTED; a FORM or CHECK drop is a receive error, after which an
idle is waited for. A frame not for the unit, or before an idle, changes nothing. One that passes every row raises its session's counter and
nothing else. -/
def Obligations.FramesAreCheckedInRowOrder : Prop :=
  ∀ (c : Instr) (f : Frame) (k : Nat) (s : State), frameOf c = some (f, k) →
    (s.power.phase ≠ .s → (s.canHear = false ∨ f.addresses s.unitNumber = false) → Unmoved c s) ∧
    (f.kind ≠ k → Unmoved c s) ∧
    (Arrives s f k →
      let early := s.clock.startLap < 35
      let counted := fun (i : Fin 5) (told : Bool) (error : Bool) => Completes c s (fun u => Counted (if early then 4 else i) s u ∧
        u.link.idleSeen = (!error) ∧ (error = true → u.eventBit Ev.receiveError = true) ∧
        (if told then ToldNotAdmitted f s u else u.link.outbox = s.link.outbox))
      let opened := (s.session? f.peer).bind (fun x => gcmOpen x.toUs (sealNonce x.ident (!x.joiner) f.counter.toNat) f.head f.payload f.check)
      (early → (f.dstNode = 0 ∨ f.kind = Code.fBeacon ∧ f.payload = []) → counted 4 false false) ∧
      (¬(early ∧ (f.dstNode = 0 ∨ f.kind = Code.fBeacon ∧ f.payload = [])) →
        (f.formOk = false → counted 0 false true) ∧
        (f.formOk = true → f.isSealed = true → (f.peer = .unit s.unitNumber ∨ s.session? f.peer = none) → counted 2 true false) ∧
        (∀ x, f.formOk = true → f.isSealed = true → f.peer ≠ .unit s.unitNumber → s.session? f.peer = some x →
          (opened = none → counted 1 false true) ∧
          (∀ p, opened = some p → (contentOk f.kind p = false ∨ f.kind = Code.fParcel ∧ byteAt p 0 ≠ 0x01) → counted 0 false true) ∧
          (∀ p n, opened = some p → contentOk f.kind p = true → (f.kind = Code.fParcel → byteAt p 0 = 0x01) → x.heard = some n →
            f.counter.toNat ≤ n → counted 3 false false) ∧
          (∀ p, opened = some p → contentOk f.kind p = true → (f.kind = Code.fParcel → byteAt p 0 = 0x01) → (∀ n, x.heard = some n → n < f.counter.toNat) →
            ∃ r : State, Passes s f k p r ∧ r = { s with events := r.events, sleep := r.sleep, sessions := s.sessions.map (fun y =>
              if y.peer == f.peer then { y with heard := some f.counter.toNat, lastFrame := s.clock.boundaries } else y) })) ∧
        (f.formOk = true → f.isSealed = false → let good := f.check = be 2 (crc16 (f.head ++ f.payload)).toNat
          (¬good → counted 1 false true) ∧
          (good → f.peer = .unit s.unitNumber → counted 2 true false) ∧
          (good → f.peer ≠ .unit s.unitNumber → mustSeal f.kind f.payload = true → counted 0 true true) ∧
          (good → f.peer ≠ .unit s.unitNumber → mustSeal f.kind f.payload = false →
            ∃ r : State, Passes s f k f.payload r ∧ r = { s with events := r.events, sleep := r.sleep }))))

/-- From R237, R240, R241, R353, R365, R396, R346, R352. The link opens at slot 0 of lap 3 with a new start key and a signed BEACON; the
first BEACON is sent at slot 0 of lap 35, a member that heard no lead opening its cold window there, and further BEACONs at their pace, a
member that has heard no BEACON yet asking for one with each; the link-open record is requested at lap 1,024. A unit in S wakes for its
BEACON. A unit whose link is off opens none. An idle lets the unit send and receive; a receive error counts FORM, EARLY in the listen span,
and asks for a new idle. In S the edge wakes the fabric instead. -/
def Obligations.TheLinkOpensAndBeacons : Prop :=
  ((∀ s : State, s.awake = true → s.link.opened = false → s.link.role ≠ .off → Completes .linkOpen s (fun u =>
    let d := scalarOf ((List.range 48).map (fun i => Config.drbgByte (s.drbg + i)))
    u.link = { s.link with opened := true, idleSeen := false, startKey := publicKey d, beaconSig := u.link.beaconSig } ∧ AtStartLap 3 s u ∧
    u.key? .start = some (be 32 d) ∧ u.drbg = s.drbg + 80 ∧ u.pads.lnk = .function ∧
    (∃ rand, u.link.beaconSig = (ecdsaSign (u.linkScalar?.getD 0) (sha256 (beaconSigned u.unitNumber u.beaconFields)) rand).1) ∧
    ∃ m, Timed s m ∧ u = { m with link := u.link, keys := u.keys, drbg := u.drbg, pads := { m.pads with lnk := u.pads.lnk }, events := u.events, sleep := u.sleep })) ∧
  (∀ s : State, s.link.role = .off → Unmoved .linkOpen s) ∧
  (∀ s : State, s.awake = true → s.link.opened = true → s.link.beaconing = false →
    let lead? := s.link.heard.find? (fun h => h.leadFlag && h.group == s.group)
    ∃ m v : State, Timed s m ∧ AtStartLap 35 s m ∧
      SendsBeacon (contactAsked s) { m with link := { s.link with beaconing := true, lastBeacon := m.clock.boundaries, lastLead := m.clock.boundaries } } v ∧
      (s.link.role ≠ .member → exec .firstBeacon s = .next v) ∧
      (s.link.role = .member → lead? = none →
        exec .firstBeacon s = .next { v with link := { v.link with cold := some (v.clock.boundaries, false, v.clock.boundaries) } }) ∧
      (∀ h, s.link.role = .member → lead? = some h → exec .firstBeacon s = .next (v.joinUnit h))) ∧
  (∀ s : State, s.awake = true → s.link.opened = true → s.link.beaconing = true → ∃ m v : State, Timed s m ∧ AtBoundary s.beaconDue s m ∧
    (s.link.longPace = true → s.link.lastBeacon + 8192 ≤ m.clock.boundaries) ∧ SendsBeacon (contactAsked s) m v ∧
    exec .beaconPeriod s = .next { v with link := { v.link with
      lastBeacon := v.clock.boundaries, timeDue := if s.link.role = .lead then s.unitSessions else s.link.timeDue } }) ∧
  (∀ s : State, s.power.phase = .s → s.link.beaconing = true → s.sleep.resumeAt = none → Completes .beaconPeriod s (fun u => u.sleep.resumeAt ≠ none ∧
    u.power.fabricOn = true ∧ u.link = s.link ∧ AtBoundary (s.beaconDue - 1) s u)) ∧
  (∀ s : State, s.awake = true → s.link.opened = true → s.link.openRecorded = false → Completes .linkOpenRecordDeadline s (fun u => AtStartLap 1024 s u ∧
    u.link.openRecorded = true ∧ Requests Code.linkOpen
      ([BitVec.ofNat 8 s.link.role.code] ++ be 2 s.link.counts[(4 : Fin 5)] ++ fit 16 0 (s.link.lead.getD []) ++ [0]) s u)) ∧
  (∀ s : State, s.link.openRecorded = true → Unmoved .linkOpenRecordDeadline s)) ∧
  (∀ s : State,
    (s.awake = true → s.link.opened = true → Completes .busIdle s (fun u => u = { s with link := { s.link with idleSeen := true }, events := u.events, sleep := u.sleep })) ∧
    (s.awake = false ∨ s.link.opened = false → Unmoved .busIdle s) ∧
    (s.canHear = true → Completes .linkReceiveError s (fun u => u.link.idleSeen = false ∧ u.sessions = s.sessions ∧ u.link.outbox = s.link.outbox ∧
      u.eventBit Ev.receiveError = true ∧
      (∀ i : Fin 5, u.link.counts[i] = if i = (if s.clock.startLap < 35 then 4 else 0) then min 65535 (s.link.counts[i] + 1) else s.link.counts[i]))) ∧
    (s.power.phase ≠ .s → s.canHear = false → Unmoved .linkReceiveError s) ∧
    (s.power.phase = .s → s.link.opened = true → s.sleep.resumeAt = none → Completes .linkReceiveError s (fun u => u.sleep.resumeAt ≠ none ∧ u.sleep.lnkWoke = true ∧
      u.link = s.link ∧ u.power.fabricOn = true ∧ u.clock = s.clock)))

/-- From R343, R344, R346, R347, R349, R350, R358, R359, R360, R365. Once BEACONs are sent and an idle is seen, the frame of the lowest
priority value goes, the oldest of those, in the next Link interval; the ADMIT of a session goes before any other sealed frame of it. Sent,
it leaves the queue, sealed under its session with the next counter, LDIR high while it was on the bus where the unit drives a transceiver,
and a request's wait begins; a counter that would pass its end sends LEAVE in its place and ends the session, and so does a LEAVE. Lost or
abandoned, a frame is tried four times in all. With a transceiver no bit is read back: a mismatch goes unseen, and a bus that another sender
took first makes the frame wait, untried. -/
def Obligations.FramesGoOutByPriority : Prop :=
  ∀ (s : State) (o : OutFrame) (rest : List OutFrame), s.awake = true → s.link.opened = true → s.link.beaconing = true → s.link.idleSeen = true →
    let queue := s.link.outbox.filter s.sendable
    nextFrame? queue = some (o, rest) →
    let a := s.toStart 5
    let may := fun (q : OutFrame) => q.sealed = true → q.kind ≠ Code.fAdmit → ∀ x ∈ queue, x.kind = Code.fAdmit → x.dest ≠ q.dest
    let again := if o.tries + 1 < 4 then { o with tries := o.tries + 1 } :: rest else rest
    Timed s a ∧ (o ∈ queue ∧ may o ∧ ∀ q ∈ rest, q ∈ queue ∧ (may q → kindPriority o.kind ≤ kindPriority q.kind)) ∧
    (s.servesLdir = false →
      Completes (.frameTransmit .arbitrationLost) s (fun u => u = { a with link := { s.link with outbox := again }, events := u.events, sleep := u.sleep }) ∧
      Completes (.frameTransmit .mismatch) s (fun u => u.link = { s.link with outbox := again, idleSeen := false } ∧ u.otp = s.otp ∧ u.tenants = s.tenants ∧
        (s.sendSession? o = none → u.sessions = s.sessions))) ∧
    (s.servesLdir = true → exec (.frameTransmit .arbitrationLost) s = .next a ∧ exec (.frameTransmit .mismatch) s = exec (.frameTransmit .sent) s) ∧
    (let sent := fun (f : Frame) => { s.link with
       outbox := rest, lastSent := some f, ldir := if s.servesLdir then [true, false] else []
       request := s.link.request.map (fun r => if r.frame.kind = o.kind ∧ r.frame.request = o.request ∧ r.frame.dest = o.dest then
         { r with sentAt := some (a.clock.boundaries, a.clock.slot) } else r) }
     (s.sendSession? o = none → Completes (.frameTransmit .sent) s (fun u => u.link = sent (a.wire o none 0) ∧
       (a.wire o none 0).check = be 2 (crc16 ((a.wire o none 0).head ++ (a.wire o none 0).payload)).toNat ∧
       u = { a with link := u.link, events := u.events, sleep := u.sleep })) ∧
     (∀ y, s.sendSession? o = some y → nextCounter o y ≤ 0xFFFFFFFF →
       let f := a.wire o (some y) (nextCounter o y)
       (o.kind ≠ Code.fLeave → Completes (.frameTransmit .sent) s (fun u => u.link = sent f ∧ f.counter.toNat = nextCounter o y ∧ f.priority = kindPriority o.kind ∧
         (o.kind ≠ Code.fAdmit → u.sessions = s.sessions.map (fun z => if z.peer == y.peer then { z with sent := nextCounter o y } else z)) ∧
         (o.kind = Code.fAdmit → u.sessions = s.sessions) ∧ u = { a with link := u.link, sessions := u.sessions, events := u.events, sleep := u.sleep })) ∧
       (o.kind = Code.fLeave → Completes (.frameTransmit .sent) s (fun u => u.link.lastSent = some f ∧ u.session? y.peer = none ∧
         ∀ p, p ≠ y.peer → u.session? p = s.session? p))) ∧
     (∀ y, s.sendSession? o = some y → 0xFFFFFFFF < nextCounter o y → Completes (.frameTransmit .sent) s (fun u => u.session? y.peer = none ∧
       (∃ f, u.link.lastSent = some f ∧ f.kind = Code.fLeave ∧ f.isSealed = true) ∧ ∀ p, p ≠ y.peer → u.session? p = s.session? p)))

/-- From R238, R241, R353, R355, R365, R369, R371, R372. A BEACON request is answered with a BEACON, at most once in any 4 laps. A BEACON of
a unit of `peers` is kept until its boot counter changes, which ends its session; one of the own lead renews it; one of another lead has the
own lead asked for its BEACON; a lead answers a worse lead and steps down for a better one, its pending joins of units with it. Verification
takes two laps of the Curve engine, waits while a join is pending, and keeps its result. -/
def Obligations.BeaconsAreHeardAndVerified : Prop :=
  (∀ (s r : State) (f : Frame), Passes s f Code.fBeacon [] r →
    ((∀ b, s.link.lastAnswer = some b → b + 4 ≤ s.clock.boundaries) → Completes (.beaconRequest f) s
      (SendsBeacon [] { r with link := { r.link with lastAnswer := some s.clock.boundaries } })) ∧
    (∀ b, s.link.lastAnswer = some b → s.clock.boundaries < b + 4 → Completes (.beaconRequest f) s (fun u => u = { r with events := u.events, sleep := u.sleep }))) ∧
  (∀ (s r : State) (f : Frame) (p : Bytes), Passes s f Code.fBeacon p r → p.length = 145 →
    let u := f.srcUnit
    let lead := (byteAt p 0).getLsbD 0
    let own := s.inGroup = true ∧ slice p 1 8 = s.group
    let boot := field p 11 4
    let known := ∃ o, s.heardUnit? u = some o ∧ o.boot = boot
    (∃ t : State, exec (.beacon f) s = .next t ∧ t.otp = s.otp ∧ t.flash.chips = s.flash.chips) ∧
    (s.inGroup = true → s.peers.contains u = true →
      (¬known → Completes (.beacon f) s (fun t => ∃ o, t.heardUnit? u = some o ∧ o.boot = boot ∧ o.verified = none ∧ o.linkKey = slice p 15 33 ∧ o.startKey = slice p 48 33 ∧
        o.signature = slice p 81 64 ∧ (lead = false → (∀ x, s.session? (.unit u) = some x → x.boot ≠ boot → t.session? (.unit u) = none)))) ∧
      (∀ o, s.heardUnit? u = some o → o.boot = boot → Completes (.beacon f) s (fun t =>
        t.heardUnit? u = some { o with leadFlag := lead, leadRank := byteAt p 9, leadHeard := if lead then s.clock.boundaries else o.leadHeard }))) ∧
    (lead = false ∨ ¬own → s.session? (.unit u) = none → Completes (.beacon f) s (fun t => t.sessions = r.sessions ∧ t.tenants = s.tenants ∧ t.link.outbox = r.link.outbox ∧
      t.link.role = s.link.role ∧ t.link.lead = s.link.lead)) ∧
    (lead = true → own → s.session? (.unit u) = none →
      (s.link.role = .lead → s.better (byteAt p 9) u = false → Completes (.beacon f) s (fun t => t.link.role = .lead ∧
        (s.link.beaconSig ≠ zeros 64 → t.link.outbox = r.link.outbox ++ [beaconNow s]))) ∧
      (s.link.role = .lead → s.better (byteAt p 9) u = true → Completes (.beacon f) s (fun t => t.link.role = .member ∧ t.link.lead = none ∧ t.link.timeDue = [] ∧ (∀ j ∈ t.link.joins, ∃ n, j.peer = .module n) ∧
        ∀ m ∈ s.unitSessions, outFrame (.peer (.unit m)) Code.fLeave 0 true [0x00] ∈ t.link.outbox)) ∧
      (∀ l, s.link.role ≠ .lead → s.link.lead = some l → l ≠ u → s.link.foreign = none → Completes (.beacon f) s (fun t =>
        t.link.outbox = r.link.outbox ++ [outFrame (.peer (.unit l)) Code.fBeacon 0 false []] ∧ t.link.foreign = some (u, s.clock.boundaries) ∧ t.link.lead = some l)) ∧
      (s.link.role ≠ .lead → s.link.lead = some u → Completes (.beacon f) s (fun t => t.link.lastLead = s.clock.boundaries ∧ t.link.foreign = none ∧ t.link.lead = some u ∧
        t.link.outbox = r.link.outbox)) ∧
      (s.link.role ≠ .lead → s.link.lead = none → Completes (.beacon f) s (fun t => t.link.cold = none ∧ t.link.lastLead = s.clock.boundaries)))) ∧
  (∀ (s : State) (u : Bytes) (h : HeardUnit), s.awake = true → s.inGroup = true → s.heardUnit? u = some h →
    (h.verified = none → h.group = s.group → s.link.joins = [] → Completes (.beaconVerify u) s (fun t =>
      let fields := h.group ++ [h.leadRank, h.epoch] ++ be 4 h.boot ++ h.linkKey ++ h.startKey
      t.heardUnit? u = some { h with verified := some (ecdsaVerify h.linkKey (sha256 (ascii "BX4016 BEACON" ++ u ++ fields)) h.signature == .ok) } ∧
      t.clock = (s.toStart 4).clock.skipLaps 2 true ∧ Timed s (s.toStart 4) ∧ (∀ v, v ≠ u → t.heardUnit? v = s.heardUnit? v) ∧ t.sessions = s.sessions ∧ t.tenants = s.tenants ∧ t.otp = s.otp)) ∧
    ((h.verified ≠ none ∨ h.group ≠ s.group ∨ s.link.joins ≠ []) → Unmoved (.beaconVerify u) s))

/-- From R239, R338, R355, R356, R366. A JOIN to the unit is refused by the first row of R356 that applies, with its reason and retry-after;
otherwise it joins the four that may be pending, or is told to WAIT 12 laps. One sent to all asks for nothing. -/
def Obligations.JoinsAreRefusedOrPend : Prop :=
  ∀ (s r : State) (f : Frame) (p : Bytes), Passes s f Code.fJoin p r →
    let refused := fun (reason : Byte) (retry : Nat) => Completes (.join f) s (fun u => Sends (refusal r f reason 0xFFFFFF retry) r u ∧ u.link.joins = s.link.joins)
    let taken := s.link.joins.all (fun j => !(j.peer == f.peer && j.request == f.request)) = true →
      (s.link.joins.length < 4 → Completes (.join f) s (fun u => u.link = { r.link with joins := s.link.joins ++ [pendingJoin f p s.clock.boundaries] } ∧
        u = { r with link := u.link, events := u.events, sleep := u.sleep })) ∧
      (4 ≤ s.link.joins.length → Completes (.join f) s (fun u => Sends (waiting r f 12) r u ∧ u.link.joins = s.link.joins))
    (f.dstNode ≠ 0 → exec (.join f) s = .next r) ∧
    (f.dstNode = 0 →
      (∀ n, f.peer = .module n →
        (s.linkTenant? n = none → refused Code.policy 0) ∧
        (∀ t d, s.linkTenant? n = some (t, d) → let x := s.tenant t
          let served := x.life = .released ∨ x.life = .degraded
          (¬served ∨ field p 0 4 ≠ s.boot.counter → refused Code.notReady 16) ∧
          (served → field p 0 4 = s.boot.counter → (x.frozen = true → refused Code.frozen 0) ∧ (x.frozen = false → taken)))) ∧
      (∀ v, f.peer = .unit v →
        (s.link.role ≠ .lead ∨ s.peers.contains v = false → refused Code.policy 0) ∧
        (s.link.role = .lead → s.peers.contains v = true →
          (s.heardUnit? v = none → refused Code.notReady 8) ∧
          (∀ h, s.heardUnit? v = some h →
            (h.group ≠ s.group → refused Code.policy 0) ∧
            (h.group = s.group →
              (h.verified ≠ some true ∨ h.boot ≠ field p 4 4 → refused Code.notReady 8) ∧
              (h.verified = some true → h.boot = field p 4 4 →
                (field p 0 4 ≠ s.boot.counter → refused Code.notReady 16) ∧
                (field p 0 4 = s.boot.counter → (16 ≤ s.placesTaken v → refused Code.full 4096) ∧ (s.placesTaken v < 16 → taken))))))))

/-- From R239, R357, R358, R359, R360, R366, R369, R374, R379. The oldest pending JOIN is decided at the third boundary after the last ADMIT
or after its arrival. A confirm that matches the keys of the transcript gets a session under those keys, in place of any older one, and an
ADMIT with the session's identifier and the joiner's nonce; any other gets REFUSE with SPOOF. A unit admitted is due a TIME and an exchange.
A member that opens the ADMIT of its JOIN holds a session with its lead, last heard by its BEACON; a tag or a nonce that does not match
counts CHECK. -/
def Obligations.AdmitsOpenSessions : Prop :=
  (∀ (s : State) (j : PendingJoin) (rest : List PendingJoin), s.awake = true → s.link.opened = true → s.link.beaconing = true → s.link.joins = j :: rest →
    let due := max (match s.link.lastJoin with | some b => b + 3 | none => 0) (j.arrival + 3)
    let spoof := Completes .joinAdmit s (fun u => AtBoundary due s u ∧ u.link = { s.link with joins := rest, lastJoin := some u.clock.boundaries, outbox := s.link.outbox ++
        [outFrame (.peer j.peer) Code.fRefuse j.request (s.session? j.peer).isSome ([Code.spoof, BitVec.ofNat 8 Code.fJoin] ++ be 3 0xFFFFFF ++ be 2 0)] } ∧
      ∃ m, Timed s m ∧ u = { m with link := u.link, events := u.events, sleep := u.sleep })
    (s.joinSecret j = none → spoof) ∧
    (∀ key z res, s.joinSecret j = some (key, z, res) →
      let t := joinTranscript s.unitNumber s.boot.counter s.link.startKey j.peer.identity key j.nonce
      let keys := joinKeys z t
      (res ≠ .ok ∨ joinConfirm keys t ≠ j.confirm → spoof) ∧
      (res = .ok → joinConfirm keys t = j.confirm → Completes .joinAdmit s (fun u => AtBoundary due s u ∧ u.link.joins = rest ∧ u.link.lastJoin = some u.clock.boundaries ∧
        (∃ x, u.session? j.peer = some x ∧ x.toUs = keys.take 32 ∧ x.fromUs = keys.drop 32 ∧ x.joiner = false ∧ x.sent = 0 ∧ x.heard = none ∧ x.boot = j.joinerBoot ∧
          x.ident = (List.range 4).map (fun i => Config.drbgByte (s.drbg + i)) ∧
          outFrame (.peer j.peer) Code.fAdmit j.request true (x.ident ++ [if s.link.role = .lead then 1 else 0] ++ j.nonce) ∈ u.link.outbox) ∧
        (∀ v, j.peer = .unit v → v ∈ u.link.timeDue ∧ (v, u.clock.boundaries) ∈ u.link.crossJoins ∧ ∀ x ∈ u.link.lostMembers, x.1 ≠ v) ∧
        (∀ p, p ≠ j.peer → u.session? p = s.session? p) ∧ u.otp = s.otp ∧ u.drbg = s.drbg + 4)))) ∧
  (∀ s : State, s.link.joins = [] → Unmoved .joinAdmit s) ∧
  (∀ (s : State) (f : Frame) (ident : Word32) (h : HeardUnit), Arrives s f Code.fAdmit → 35 ≤ s.clock.startLap → f.formOk = true → f.isSealed = true →
    s.joinedUnit? f = some h →
    (∀ x, s.openAdmit f h ident = some x → Completes (.admitFrame f ident) s (fun u => u.session? (.unit h.number) = some x ∧ x.joiner = true ∧ x.heard = some 0 ∧ x.boot = h.boot ∧
      x.ident = be 4 ident.toNat ∧ u.link.lead = some h.number ∧ u.link.request = none ∧ u.link.cold = none ∧ u.link.leadBoot = h.boot ∧ u.link.lastLead = h.leadHeard ∧
      u.link.crossJoins = [(h.number, s.clock.boundaries)] ∧ u.link.openRecorded = true ∧
      (∀ p, p ≠ .unit h.number → u.session? p = s.session? p) ∧ u.clock = s.clock ∧ u.tenants = s.tenants ∧ u.otp = s.otp ∧ u.keys = s.keys)) ∧
    (s.openAdmit f h ident = none → Completes (.admitFrame f ident) s (fun u => Counted 1 s u ∧ u.link.idleSeen = false))) ∧
  (∀ (s : State) (f : Frame) (ident : Word32), f.kind ≠ Code.fAdmit → Unmoved (.admitFrame f ident) s)

/-- From R239, R337, R347, R365, R433. WAIT and a REFUSE with a retry-after make the request that they answer wait so many laps; a REFUSE
without one ends it; any other reply changes nothing more. A request without a reply is repeated, 2.048 ms after its last bit, three times
with REPEAT set and then given up; one that waited goes out again at its time. A unit in S wakes first. -/
def Obligations.RequestsWaitRepeatAndEnd : Prop :=
  (∀ (s r : State) (f : Frame) (p : Bytes), Passes s f Code.fWait p r →
    (∀ q, s.requestOf? f (byteAt p 0).toNat = some q → exec (.waitFrame f) s =
      .next { r with link := { r.link with request := some { q with retryAt := some (s.clock.boundaries + field p 1 2) } } }) ∧
    (s.requestOf? f (byteAt p 0).toNat = none → exec (.waitFrame f) s = .next r)) ∧
  (∀ (s r : State) (f : Frame) (p : Bytes), Passes s f Code.fRefuse p r →
    (∀ q, s.requestOf? f (byteAt p 1).toNat = some q →
      (field p 5 2 ≠ 0 → exec (.refuseFrame f) s = .next { r with link := { r.link with request := some { q with retryAt := some (s.clock.boundaries + field p 5 2) } } }) ∧
      (field p 5 2 = 0 → Completes (.refuseFrame f) s (fun u => u.link.request = none ∧ (q.frame.kind ≠ Code.fParcel → u = { r with link := { r.link with request := none } }) ∧
        (q.frame.kind = Code.fParcel → byteAt q.frame.payload 0 = 0x01 → u.update.exporting = none)))) ∧
    (s.requestOf? f (byteAt p 1).toNat = none → exec (.refuseFrame f) s = .next r)) ∧
  (∀ (s : State) (q : OutRequest) (sent : Nat × Nat), s.link.opened = true → s.link.request = some q → q.retryAt = none → q.sentAt = some sent → s.unsent q = false →
    let again := { q.frame with rep := true, tries := 0 }
    let a := s.afterReply sent
    (s.awake = true → Timed s a ∧ (sent.2 < 65536 → (sent.1 + 2) * 65536 + sent.2 ≤ a.now) ∧
      (q.repeats < 3 → exec .requestRepeatTimeout s =
        .next { a with link := { s.link with outbox := s.link.outbox ++ [again], request := some ⟨again, q.repeats + 1, none, none⟩ } }) ∧
      (3 ≤ q.repeats → Completes .requestRepeatTimeout s (fun u => u.link.request = none ∧ u.clock = a.clock ∧
        (q.frame.kind ≠ Code.fParcel → u = { a with link := { s.link with request := none } }) ∧
        (q.frame.kind = Code.fParcel → byteAt q.frame.payload 0 = 0x01 → u.update.exporting = none)))) ∧
    (s.power.phase = .s → Completes .requestRepeatTimeout s (fun u => AtBoundary (sent.1 + 1) s u ∧ u.sleep.resumeAt ≠ none ∧ u.link = s.link))) ∧
  (∀ (s : State) (q : OutRequest), s.link.request = some q → q.sentAt = none ∨ s.unsent q = true → Unmoved .requestRepeatTimeout s) ∧
  (∀ s : State, s.link.request = none → Unmoved .requestRepeatTimeout s ∧ Unmoved .retryAfterExpiry s) ∧
  (∀ (s : State) (q : OutRequest) (b : Nat), s.link.opened = true → s.link.request = some q → q.retryAt = some b →
    let again := { q.frame with rep := true, tries := 0 }
    (s.awake = true → Completes .retryAfterExpiry s (fun u => AtBoundary b s u ∧ ∃ m, Timed s m ∧
      u = { m with link := { s.link with outbox := s.link.outbox ++ [again], request := some ⟨again, q.repeats, none, none⟩ } })) ∧
    (s.power.phase = .s → Completes .retryAfterExpiry s (fun u => AtBoundary (b - 1) s u ∧ u.sleep.resumeAt ≠ none ∧ u.link = s.link)))

/-- From R285, R306, R314, R337, R340, R351, R361, R387. A READ or WRITE of a unit is refused with POLICY, and one of a tenant that is not
served with NOT_READY and a retry-after of 16 laps; a module that no tenant has is not answered. A READ that a degraded or released tenant
may make and whose leaves are published is answered with DATA; one that meets a leaf not published is reported as a miss, and waits a lap
where the leaf is of the data region; a byte of another region is refused as SPOOF or by POLICY. A WRITE of a degraded or read-only tenant
is refused with POLICY, one of a porch page waits for the next poll, one while another waits is told to WAIT and queued behind it, any other
waits for the lane. A repeated request hears its outcome again, or WAIT while it has none. -/
def Obligations.ModuleReadsAndWritesAreServed : Prop :=
  ∀ (s r : State) (f : Frame) (p : Bytes),
    let isServed := fun (t : TSlot) => ((s.tenant t).life = .released ∨ (s.tenant t).life = .degraded) ∧ (s.tenant t).restarting = false
    let turned := fun (c : Instr) (addr : Nat) =>
      (∀ u, f.peer = .unit u → Completes c s (Sends (refusal r f Code.policy addr 0) r)) ∧
      (∀ n, f.peer = .module n → s.linkTenant? n = none → exec c s = .next r) ∧
      (∀ n t d, f.peer = .module n → s.linkTenant? n = some (t, d) →
        (¬isServed t → Completes c s (Sends (refusal r f Code.notReady addr 16) r)) ∧
        (∀ q reason, isServed t → s.keptRequest? t f = some q → q.outcome = some reason → reason ≠ 0 → Completes c s (Sends (refusal r f reason addr 0) r)))
    let refused := fun (c : Instr) (t : TSlot) (reason : Byte) (addr : Nat) => Completes c s (fun u => refusal r f reason addr 0 ∈ u.link.outbox ∧
      (u.tenant t).refuse = true ∧ (u.tenant t).lastReason = reason ∧ (u.tenant t).write = (s.tenant t).write ∧ u.flash = s.flash)
    let kept := fun (u : State) (t : TSlot) => ∃ q ∈ (u.tenant t).linkReq, q.request = f.request ∧ q.kind = f.kind ∧ q.outcome = none
    let only := fun (u : State) (t : TSlot) => u.flash = s.flash ∧ u.vault = s.vault ∧ ∀ t', t' ≠ t → u.tenant t' = s.tenant t'
    (Passes s f Code.fRead p r →
      let addr := field p 0 3
      turned (.readFrame f) addr ∧
      (∀ n t d, f.peer = .module n → s.linkTenant? n = some (t, d) → isServed t → s.keptRequest? t f = none →
        let w := r.walkRead t d false ((byteAt p 3).toNat / 1024 + 2) addr (byteAt p 3).toNat ⟨[], none, none, none, none⟩
        (w.spoof = none → w.denied = none → w.missed = none → Completes (.readFrame f) s (fun u =>
          let flag := (u.tenant t).flagByte false ||| (if w.tampered = none then 0 else 0x04)
          u.link.outbox = r.link.outbox ++ [outFrame (.peer f.peer) Code.fData f.request true (flag :: be 3 addr ++ [BitVec.ofNat 8 w.out.length] ++ w.out)] ∧
          (∀ a, w.tampered = some a → LaneEvent.tampered a ∈ (u.tenant t).events) ∧ only u t)) ∧
        (∀ a, w.spoof = none → w.denied = none → w.missed = some a → Completes (.readFrame f) s (fun u =>
          u.link.outbox = r.link.outbox ++ (if d.region a = .data then [waiting r f 1] else []) ∧
          LaneEvent.miss (BitVec.ofNat 8 Code.fRead) a ∈ (u.tenant t).events ∧ kept u t ∧ only u t)) ∧
        (∀ a, w.spoof = some a → refused (.readFrame f) t Code.spoof a) ∧
        (∀ a, w.spoof = none → w.denied = some a → refused (.readFrame f) t Code.policy a))) ∧
    (Passes s f Code.fWrite p r →
      let addr := field p 1 3
      let writes := fun (c : Instr) (op : WriteOp) => turned c addr ∧
        (∀ n t d, f.peer = .module n → s.linkTenant? n = some (t, d) → isServed t →
          (∀ q, s.keptRequest? t f = some q → q.outcome = none → Completes c s (Sends (waiting r f 1) r)) ∧
          (∀ q, s.keptRequest? t f = some q → q.outcome = some 0 → Completes c s
            (Sends (outFrame (.peer f.peer) Code.fAck f.request true [(s.tenant t).flagByte false]) r)) ∧
          (s.keptRequest? t f = none →
            let x := s.tenant t
            let page := op.isProgram = true ∧ (d.region addr).isPage = true
            let w : PendingWrite := ⟨op, s.clock.boundaries, false, BitVec.ofNat 8 Code.fWrite, some f.request⟩
            (x.life = .degraded ∨ d.writeMode = .readOnly → refused c t Code.policy addr) ∧
            (x.life ≠ .degraded → d.writeMode ≠ .readOnly →
              (page → Completes c s (fun u => LaneEvent.porchFrame f.request addr (p.drop 5) ∈ (u.tenant t).events ∧ u.link.outbox = r.link.outbox ∧
                (u.tenant t).write = x.write ∧ kept u t ∧ only u t)) ∧
              (¬page → x.write ≠ none ∨ x.accepted ≠ none ∨ x.writes ≠ [] → Completes c s (fun u => (u.tenant t).write = x.write ∧
                (u.tenant t).writes = x.writes ++ [w] ∧ u.link.outbox = r.link.outbox ++ [waiting r f 1] ∧ kept u t ∧ only u t)) ∧
              (¬page → x.write = none → x.accepted = none → x.writes = [] → Completes c s (fun u => (u.tenant t).write = some w ∧ (u.tenant t).writes = [] ∧
                (u.link.outbox = r.link.outbox ∨ u.link.outbox = r.link.outbox ++ [waiting r f 1]) ∧ kept u t ∧ only u t)))))
      (byteAt p 0 = 0x01 → writes (.writeProgram f) (.program addr (p.drop 5))) ∧ (byteAt p 0 = 0x02 → writes (.writeErase4k f) (.erase4k addr)) ∧
      (byteAt p 0 = 0x03 → writes (.writeErase64k f) (.erase64k addr)))

/-- From R287, R339, R351, R361, R362, R387. A STATEMENT request of a unit joins the queue or is refused with FULL; one of a tenant waits
for its lane's next poll, which puts it into the queue; a fragment of a peer's statement is kept once. An ACK of a module ends the repeats
of its NOTICE, which goes out again every 8 laps with the content then current, at most four times, in place of one not yet sent; that of a
degraded tenant is refused with POLICY. A NOTICE to the unit is refused with POLICY; a DATA changes nothing more. -/
def Obligations.StatementsAcksAndNotices : Prop :=
  (∀ (s r : State) (f : Frame) (p : Bytes) (u : Bytes), Passes s f Code.fStatement p r → byteAt p 0 = 0x00 → f.peer = .unit u →
    (∀ q ∈ s.statements.queue, q.asker ≠ .unit u f.request) →
    (s.statements.queue.length < 3 → Completes (.statementRequest f) s (fun t =>
      (∃ q, t.statements.queue = s.statements.queue ++ [q] ∧ q.asker = .unit u f.request ∧ q.nonce = slice p 1 16) ∧ t.tenants = s.tenants ∧ t.link.outbox = r.link.outbox)) ∧
    (3 ≤ s.statements.queue.length → Completes (.statementRequest f) s (Sends (refusal r f Code.full 0xFFFFFF 0) r))) ∧
  (∀ (s r : State) (f : Frame) (p : Bytes) (n : Byte) (t : TSlot) (d : TenantDecl), Passes s f Code.fStatement p r → byteAt p 0 = 0x00 → f.peer = .module n →
    s.linkTenant? n = some (t, d) → (s.tenant t).restarting = false → s.keptRequest? t f = none →
    let pending := (∃ b, LaneEvent.statementFrame f.request b ∈ (s.tenant t).events) ∨ ∃ q ∈ s.statements.queue, q.asker = .linkTenant t f.request
    ((s.tenant t).life = .degraded → Completes (.statementRequest f) s (fun u => refusal r f Code.policy 0xFFFFFF 0 ∈ u.link.outbox ∧
      (u.tenant t).lastReason = Code.policy ∧ u.statements = s.statements)) ∧
    ((s.tenant t).life = .released → pending → Completes (.statementRequest f) s (Sends (waiting r f 1) r)) ∧
    ((s.tenant t).life = .released → ¬pending → Completes (.statementRequest f) s (fun u => u.statements = s.statements ∧ u.link.outbox = r.link.outbox ∧
      LaneEvent.statementFrame f.request (slice p 1 16) ∈ (u.tenant t).events ∧ ∀ t', t' ≠ t → u.tenant t' = s.tenant t'))) ∧
  (∀ (s : State) (t : TSlot) (d : TenantDecl) (request : Byte) (nonce : Bytes), s.porchPending t .statement = false → s.statements.queue.length < 3 →
    ∃ q, (s.pollStatement t d request nonce).statements.queue = s.statements.queue ++ [q] ∧ q.asker = .linkTenant t request ∧ q.nonce = nonce) ∧
  (∀ (s r : State) (f : Frame) (p : Bytes) (u : Bytes), Passes s f Code.fStatement p r → byteAt p 0 = 0x01 → f.peer = .unit u → Completes (.statementFragment f) s (fun t =>
    ∃ x, t = { r with statements := { s.statements with heard := some x } } ∧ x.peer = u ∧ x.count = (byteAt p 2).toNat ∧ (∃ q ∈ x.parts, q.1 = (byteAt p 1).toNat) ∧
      ((∀ y, s.statements.heard = some y → y.peer = u → y.count = x.count → y.complete = true) → x.parts = [((byteAt p 1).toNat, p.drop 3)]))) ∧
  (∀ (s r : State) (f : Frame) (p : Bytes) (n : Byte) (t : TSlot) (d : TenantDecl), Passes s f Code.fAck p r → f.peer = .module n → s.linkTenant? n = some (t, d) →
    ((s.tenant t).life ≠ .degraded → Completes (.ackFrame f) s (fun u => u.tenant t = { s.tenant t with notice := none } ∧ (∀ t', t' ≠ t → u.tenant t' = s.tenant t') ∧
      u = { r with tenants := u.tenants, events := u.events, sleep := u.sleep })) ∧
    ((s.tenant t).life = .degraded → Completes (.ackFrame f) s (fun u => refusal r f Code.policy 0xFFFFFF 0 ∈ u.link.outbox ∧ (u.tenant t).refuse = true ∧
      (u.tenant t).lastReason = Code.policy ∧ (u.tenant t).notice = (s.tenant t).notice))) ∧
  (∀ (s : State) (t : TSlot) (d : TenantDecl) (n b : Nat), s.awake = true → s.link.opened = true → s.decl? t = some d → (s.tenant t).notice = some (n, b) →
    (n < 4 → Completes (.noticeRepeat t) s (fun u => AtBoundary (b + 8) s u ∧ (u.tenant t).notice = some (n + 1, u.clock.boundaries) ∧
      u.link.outbox = s.link.outbox.filter (fun o => !(o.kind == Code.fNotice && o.dest == .peer (.module d.linkNode))) ++
        [outFrame (.peer (.module d.linkNode)) Code.fNotice 0 true (s.tenant t).pubFault] ∧ u.eventBit (Ev.noticeTimer t.val) = true ∧ ∀ t', t' ≠ t → u.tenant t' = s.tenant t')) ∧
    (4 ≤ n → Completes (.noticeRepeat t) s (fun u => AtBoundary (b + 8) s u ∧ (u.tenant t).notice = none ∧ u.link = s.link ∧ ∀ t', t' ≠ t → u.tenant t' = s.tenant t'))) ∧
  (∀ (s : State) (t : TSlot), (s.tenant t).notice = none → Unmoved (.noticeRepeat t) s) ∧
  (∀ (s r : State) (f : Frame) (p : Bytes), (Passes s f Code.fNotice p r → Completes (.noticeFrame f) s (Sends (refusal r f Code.policy 0xFFFFFF 0) r)) ∧
    (Passes s f Code.fData p r → exec (.dataFrame f) s = .next r))

/-- From R241, R242, R366, R370. A lead-eligible member in its cold window sends ELECT in its first lap and every 16th lap after it, falls
silent at a better candidate, and becomes lead at the 257th lap, its predecessor declared lost. A lead answers an ELECT of its group.
Sixty-four laps with no lead heard open a new window. A unit in S wakes first. -/
def Obligations.ElectionsMakeALead : Prop :=
  (∀ (s r : State) (f : Frame) (p : Bytes), Passes s f Code.fElect p r →
    (s.inGroup = false ∨ p.take 8 ≠ s.group → Completes (.elect f) s (fun u => u = { r with events := u.events, sleep := u.sleep })) ∧
    (s.inGroup = true → p.take 8 = s.group →
      (s.link.role = .lead → Completes (.elect f) s (SendsBeacon [] r)) ∧
      (s.link.role ≠ .lead → s.link.lead ≠ none ∨ s.better (byteAt p 8) f.srcUnit = false → Completes (.elect f) s (fun u => u = { r with events := u.events, sleep := u.sleep })) ∧
      (s.link.role ≠ .lead → s.link.lead = none → s.better (byteAt p 8) f.srcUnit = true → Completes (.elect f) s (fun u =>
        u.link = { r.link with lastLead := s.clock.boundaries, cold := s.link.cold.map (fun c => (c.1, true, c.2.2)) } ∧
        u = { r with link := u.link, events := u.events, sleep := u.sleep })))) ∧
  (∀ (s : State) (start due : Nat), s.link.opened = true → s.link.beaconing = true → s.link.role = .member → s.leadEligible = true → s.link.cold = some (start, false, due) →
    (s.awake = true → due ≤ start + 255 → ∃ m : State, Timed s m ∧ AtBoundary due s m ∧ exec .electSend s = .next { m with link := { s.link with
      cold := some (start, false, start + 16 * ((m.clock.boundaries - start) / 16 + 1))
      outbox := s.link.outbox ++ (if m.clock.boundaries ≤ start + 255 then [outFrame .everyone Code.fElect 0 false (s.group ++ [s.leadRank])] else []) } }) ∧
    (s.power.phase = .s → due ≤ start + 255 → Completes .electSend s (fun u => AtBoundary (due - 1) s u ∧ u.sleep.resumeAt ≠ none ∧ u.link = s.link)) ∧
    (start + 255 < due → Unmoved .electSend s) ∧
    (due ≤ start + 255 → s.clock.boundaries ≤ start + 255 → Unmoved .leadElection s) ∧
    (s.awake = true → start + 255 < max due s.clock.boundaries →
      Completes .leadElection s (fun u => AtBoundary (start + 256) s u ∧ u.link.role = .lead ∧ u.link.lead = some s.unitNumber ∧ u.link.cold = none ∧ u.link.openRecorded = true ∧
        (∀ v, s.link.former = some v → u.session? (.unit v) = none ∧ (v, u.clock.boundaries) ∈ u.link.lostMembers) ∧ u.link.outbox.getLast? = some (beaconNow u) ∧
        u.link.leadSince = some u.clock.boundaries ∧ (s.link.former = none → u.sessions = s.sessions) ∧ u.otp = s.otp)) ∧
    (s.power.phase = .s → start + 255 < max due s.clock.boundaries → Completes .leadElection s (fun u => AtBoundary (start + 255) s u ∧ u.sleep.resumeAt ≠ none ∧ u.link = s.link))) ∧
  (∀ s : State, s.link.cold = none → Unmoved .electSend s ∧ Unmoved .leadElection s) ∧
  (∀ (s : State) (start due : Nat), s.link.cold = some (start, true, due) → Unmoved .electSend s ∧ Unmoved .leadElection s) ∧
  (∀ s : State, s.awake = true → s.link.beaconing = true → s.link.role = .member → s.leadEligible = true → s.link.lead = none →
    (s.link.cold = none ∨ (∃ a b, s.link.cold = some (a, true, b))) → Completes .coldWindowRenew s (fun u => AtBoundary (s.link.lastLead + 64) s u ∧
      u.link = { s.link with cold := some (u.clock.boundaries, false, u.clock.boundaries) } ∧ ∃ m, Timed s m ∧ u = { m with link := u.link })) ∧
  (∀ s : State, s.leadEligible = false ∨ s.link.lead ≠ none → Unmoved .coldWindowRenew s)

/-- From R360, R366, R369, R370, R371, R373. A lead or a member that is silent for 24,640 boundaries, or that sends LEAVE, is declared lost
with its record and its session ends; a lead-eligible member then opens its window at the next lap. A foreign lead whose rival does not
answer within 8 laps is joined without a window. The LEAVE of a degraded tenant's module is refused with POLICY (the model's reading, log
194). A unit in S wakes first. -/
def Obligations.SilenceAndLeaveEndSessions : Prop :=
  (∀ (s : State) (l : Bytes), s.link.role = .member → s.link.lead = some l →
    (s.awake = true → Completes .leadLossTimeout s (fun u => AtBoundary (s.link.lastLead + 24640) s u ∧ u.link.lead = none ∧ u.link.former = some l ∧ u.session? (.unit l) = none ∧
      u.link.cold = (if s.leadEligible then some (u.clock.boundaries + 1, false, u.clock.boundaries + 1) else s.link.cold) ∧ (∀ p, p ≠ .unit l → u.session? p = s.session? p) ∧
      (s.session? (.unit l) = none → Requests Code.leadLost (fit 16 0 l ++ [0x01]) s u))) ∧
    (s.power.phase = .s → s.sleep.resumeAt = none → Completes .leadLossTimeout s (fun u => u.sleep.resumeAt ≠ none ∧ u.link = s.link ∧ u.sessions = s.sessions))) ∧
  (∀ s : State, s.link.role ≠ .member ∨ s.link.lead = none → Unmoved .leadLossTimeout s) ∧
  (∀ (s : State) (l v : Bytes) (b : Nat), s.awake = true → s.link.lead = some l → s.link.foreign = some (v, b) → Completes .leadConfirmTimeout s (fun u => AtBoundary (b + 8) s u ∧
    u.link.lead = none ∧ u.link.foreign = none ∧ u.link.former = some l ∧ u.session? (.unit l) = none ∧ u.link.cold = s.link.cold)) ∧
  (∀ s : State, s.link.foreign = none → Unmoved .leadConfirmTimeout s) ∧
  (∀ (s : State) (m : Bytes) (x : Session), s.link.role = .lead → s.session? (.unit m) = some x →
    (s.awake = true → Completes (.memberLossTimeout m) s (fun u => AtBoundary (x.lastFrame + 24640) s u ∧ u.session? (.unit m) = none ∧
      (m, u.clock.boundaries) ∈ u.link.lostMembers ∧ m ∉ u.link.timeDue ∧ (∀ p, p ≠ .unit m → u.session? p = s.session? p))) ∧
    (s.power.phase = .s → s.sleep.resumeAt = none → Completes (.memberLossTimeout m) s (fun u => u.sleep.resumeAt ≠ none ∧ u.link = s.link ∧ u.sessions = s.sessions))) ∧
  (∀ (s : State) (m : Bytes), s.session? (.unit m) = none → Unmoved (.memberLossTimeout m) s) ∧
  (∀ (s r : State) (f : Frame) (p : Bytes), Passes s f Code.fLeave p r →
    let degraded := ∃ n t d, f.peer = .module n ∧ s.linkTenant? n = some (t, d) ∧ (s.tenant t).life = .degraded
    (degraded → Completes (.leave f) s (fun u => u.sessions = r.sessions ∧ refusal r f Code.policy 0xFFFFFF 0 ∈ u.link.outbox)) ∧
    (¬degraded → Completes (.leave f) s (fun u => u.session? f.peer = none ∧ (∀ q, q ≠ f.peer → u.session? q = r.session? q) ∧
    u.clock = s.clock ∧ u.otp = s.otp ∧
    (∀ v, f.peer = .unit v → s.link.role = .lead → (v, s.clock.boundaries) ∈ u.link.lostMembers) ∧
    (∀ v, f.peer = .unit v → s.link.role ≠ .lead → s.link.lead = some v → u.link.lead = none ∧ u.link.former = some v))))

/-- States R376. Also from R246, R374, R375. A TIME from the lead sets the offset so that the own time at the SOF edge plus the offset is
the lead's, with a record when it moves by more than a millisecond; from any other unit it counts SOURCE. The lead sends TIME to every unit
that is due one, at slot 0 of a lap, once its LFXO is qualified or 1,024 laps after its election. -/
def Obligations.TimeComesFromTheLead : Prop :=
  (∀ (s r : State) (f : Frame) (p : Bytes), Passes s f Code.fTime p r →
    (∀ l, s.link.role = .member → s.link.lead = some l → f.peer = .unit l → Completes (.timeFrame f) s (fun u =>
      (s.clock.rtc : Int) + u.link.offset = ((field p 0 6 % 2 ^ 46 : Nat) : Int) ∧ u.link.shared = true ∧ u.link.timeApprox = (byteAt p 6).getLsbD 0 ∧ u.clock = s.clock ∧
      (1000 * (u.link.offset - s.link.offset).natAbs ≤ 32768 → u.audit = s.audit ∧ u.vault = s.vault) ∧ u.otp = s.otp ∧ u.tenants = s.tenants)) ∧
    (s.link.role ≠ .member ∨ s.link.lead.map Peer.unit ≠ some f.peer → Completes (.timeFrame f) s (fun u =>
      Counted (if s.clock.startLap < 35 then 4 else 2) r u ∧ u.link.offset = s.link.offset))) ∧
  (∀ (s : State) (b : Nat), s.awake = true → s.link.opened = true → s.link.role = .lead → s.link.timeDue ≠ [] → s.link.leadSince = some b → Completes .timeSend s (fun u =>
    u.link = { s.link with timeDue := [], outbox := s.link.outbox ++ s.link.timeDue.map (fun m => outFrame (.peer (.unit m)) Code.fTime 0 true (zeros 8)) } ∧
    (s.power.lfxoQualified = true → u.clock = s.clock.toLapStart) ∧ (s.power.lfxoQualified = false → u.clock = (s.clock.toBoundary (b + 1024) true).toLapStart) ∧
    u.clock.slot = 0 ∧ ∃ m, Timed s m ∧ u = { m with link := u.link })) ∧
  (∀ s : State, s.link.role ≠ .lead ∨ s.link.timeDue = [] → Unmoved .timeSend s)

/-- From R355, R377, R378, R379, R380, R381, R396. An exchange is begun, when it is due, by a CROSS over the own head to the next peer in
rotation, one whose ADMIT made it due first; without a signature it stays due. The oldest CROSS queued is verified, once no join and no
BEACON waits for the Curve engine, and answered with one over the head that holds its CROSS_IN, or refused with SPOOF and CROSS_BAD, after
four laps of that engine; a CROSS from the peer that is asked is its reply. With no reply for 256 laps CROSS_MISS is requested and none is
begun for 4,096 laps. -/
def Obligations.CrossExchangesRun : Prop :=
  (∀ (s : State) (due : Nat) (v : Bytes), s.awake = true → s.link.opened = true → s.inGroup = true → s.link.crossOut = none → s.crossNext? = some (v, due) →
    let made := (s.reach (max due s.link.crossNotBefore)).makeCross
    let spent := fun (u : State) => max due s.link.crossNotBefore + 2 ≤ u.clock.boundaries ∧ u.drbg = s.drbg + 32 ∧ u.link.crossDue = s.link.crossDue ∧
      u.tenants = s.tenants ∧ u.otp = s.otp ∧ u.vault = s.vault ∧ u.audit = s.audit
    (made.1 = none → Completes .crossInitiate s (fun u => spent u ∧ u.link = s.link)) ∧
    (∀ payload, made.1 = some payload → Completes .crossInitiate s (fun u => spent u ∧
      (∃ request, u.link.outbox = s.link.outbox ++ [outFrame (.peer (.unit v)) Code.fCross request true payload] ∧ request ≠ 0) ∧
      u.link.crossOut = some (v, field payload 0 4, u.clock.boundaries) ∧ u.link.crossLast = v ∧ (∀ x ∈ u.link.crossJoins, x.1 ≠ v)))) ∧
  (∀ s : State, s.link.crossOut ≠ none ∨ s.crossNext? = none → Unmoved .crossInitiate s) ∧
  (∀ (s r : State) (f : Frame) (p v : Bytes), Passes s f Code.fCross p r → f.peer = .unit v →
    (s.link.crossOut.map (·.1) ≠ some v → Completes (.cross f) s (fun u => u.link = { r.link with crossIn := s.link.crossIn ++ [(v, f.request, p)] } ∧
      u = { r with link := u.link, events := u.events, sleep := u.sleep })) ∧
    (∀ q b h, s.link.crossOut = some (v, q, b) → s.heardUnit? v = some h → h.verified = some true →
      let res := ecdsaVerify h.linkKey (sha256 (ascii "BX4016 CROSS" ++ s.group ++ v ++ p.take 34)) (slice p 34 64)
      Completes (.cross f) s (fun u => u.link.crossOut = none ∧ u.clock = (s.toStart 4).clock.skipLaps 2 true ∧ u.otp = s.otp ∧ u.tenants = s.tenants ∧
        (res = .ok → (v, p) ∈ u.crossTable ∧ u.link.crossDue = none ∧ u.crossTable.length ≤ max 15 s.crossTable.length) ∧
        (res ≠ .ok → u.crossTable = s.crossTable ∧ u.link.crossDue = some (u.clock.boundaries + 4096))))) ∧
  (∀ (s : State) (v : Bytes) (request : Byte) (p : Bytes) (rest : List (Bytes × Byte × Bytes)) (h : HeardUnit), s.awake = true → s.link.opened = true → s.isRunning = true →
    s.link.joins = [] → (∀ x ∈ s.link.heard, x.verified = none → x.group ≠ s.group) → s.link.crossIn = (v, request, p) :: rest → s.heardUnit? v = some h → h.verified = some true →
    let res := ecdsaVerify h.linkKey (sha256 (ascii "BX4016 CROSS" ++ s.group ++ v ++ p.take 34)) (slice p 34 64)
    Completes .crossResponderTurn s (fun u => u.link.crossIn = rest ∧ s.clock.boundaries + 4 ≤ u.clock.boundaries ∧ u.otp = s.otp ∧
      (res = .ok → (v, p) ∈ u.crossTable ∧ u.audit.queue = [] ∧ u.link.crossDue = none ∧
        let chained := ((({ s with link := { s.link with crossIn := rest } }.checkCross v p).2.keepCross v p).recordCrossIn v p).appendAll
        let last := if chained.makeCross.1.isSome then chained.makeCross else chained.makeCross.2.makeCross
        (∀ own, last.1 = some own → u.link.outbox = s.link.outbox ++ [outFrame (.peer (.unit v)) Code.fCross request true own]) ∧
        (last.1 = none → u.link.outbox = s.link.outbox)) ∧
      (res ≠ .ok → u.crossTable = s.crossTable ∧ u.link.outbox = s.link.outbox ++ [outFrame (.peer (.unit v)) Code.fRefuse request (s.session? (.unit v)).isSome
        ([Code.spoof, BitVec.ofNat 8 Code.fCross] ++ be 3 0xFFFFFF ++ be 2 0)]))) ∧
  (∀ s : State, s.link.crossIn = [] ∨ s.link.joins ≠ [] ∨ (∃ x ∈ s.link.heard, x.verified = none ∧ x.group = s.group) → Unmoved .crossResponderTurn s) ∧
  (∀ (s : State) (v : Bytes) (q b : Nat), s.awake = true → s.link.crossOut = some (v, q, b) → Completes .crossReplyTimeout s (fun u => AtBoundary (b + 256) s u ∧ u.link.crossOut = none ∧
    u.link.crossNotBefore = u.clock.boundaries + 4096 ∧ u.link.crossDue = some (u.clock.boundaries + 4096) ∧ Requests Code.crossMiss (unit8 v ++ be 4 q) s u ∧
    u.sessions = s.sessions)) ∧
  (∀ s : State, s.link.crossOut = none → Unmoved .crossReplyTimeout s)

/-- From R430, R432, R433, R431. The target stores each fragment once and acknowledges it, the first one with its state record at step 1,
while nothing else is in work; a complete parcel that a check of R432 turns down is aborted with its reason, one that passes is written. The
source takes a good result as its ledger update and any other result, or none for 4,096 boundaries, as the end: the tenant runs on unfrozen.
An ACK brings the next fragment. An order that stands checked freezes its tenant at slot 0 of the next lap, its state record at step 1
before it; once the tenant's writes have drained the parcel is sealed and its first fragment sent, or the export ends with the tenant
unfrozen. -/
def Obligations.TenantParcelsTravel : Prop :=
  ((∀ (s r : State) (f : Frame) (p u : Bytes), Passes s f Code.fParcel p r → isFragment 0x01 p = true → f.peer = .unit u →
    let acked := fun (v : State) => ∃ b : Bytes, b.length = 1 ∧ v.link.outbox = r.link.outbox ++ [outFrame (.peer f.peer) Code.fAck f.request true b]
    (s.update.importing = none → s.installBusy = true → Completes (.parcelTenantFragment f) s (Sends (refusal r f Code.notReady 0xFFFFFF 0) r)) ∧
    (s.update.importing = none → s.installBusy = false → Completes (.parcelTenantFragment f) s (fun v => acked v ∧
      v.update.importing = some { peer := u, content := 0x01, transfer := parcelTransferOf p, count := parcelCountOf p, parts := [(parcelIndexOf p, p.drop 7)] } ∧
      v.vault.read erased importRecordAt = 1 ∧ v.tenants = s.tenants ∧ v.otp = s.otp ∧ v.flash = s.flash)) ∧
    (∀ x, s.update.importing = some x → x.takes u p = true → Completes (.parcelTenantFragment f) s (fun v => acked v ∧
      v.update = { s.update with importing := some (x.store (parcelIndexOf p) (p.drop 7)) } ∧ v.vault = s.vault ∧ v.tenants = s.tenants)) ∧
    (∀ x, s.update.importing = some x → x.takes u p = false → x.peer ≠ u ∨ r.importBegun = true →
      Completes (.parcelTenantFragment f) s (Sends (refusal r f Code.notReady 0xFFFFFF 0) r)) ∧
    (∀ x, s.update.importing = some x → x.takes u p = false → x.peer = u → r.importBegun = false → s.update.install = none → s.update.exporting = none → s.link.receiving = none → s.intakeOpen = false →
      Completes (.parcelTenantFragment f) s (fun v => v.update.importing = some { peer := u, content := 0x01, transfer := parcelTransferOf p, count := parcelCountOf p, parts := [(parcelIndexOf p, p.drop 7)] } ∧
        (∃ reason ∈ Code.reasons, outFrame (.peer (.unit u)) Code.fParcel 0 true (parcelPayload 1 x.transfer 0xFFFF 0 [reason]) ∈ v.link.outbox) ∧ v.tenants = s.tenants ∧ v.otp = s.otp))) ∧
  (∀ (s : State) (m : Manifest) (x : Transfer), s.awake = true → s.link.opened = true → s.flash.poolReady = true → s.running.manifest = some m → s.importReady? = some x →
    let r := s.setClock (s.clock.skipLaps 3 true)
    let aborted := fun (reason : Byte) => Completes .parcelImport s (fun v => v.update.importing = none ∧ v.update.plan = none ∧ v.update.flashTasks = [] ∧ v.otp = s.otp ∧ v.clock = r.clock ∧
      outFrame (.peer (.unit x.peer)) Code.fParcel 0 true (parcelPayload 1 x.transfer 0xFFFF 0 [reason]) ∈ v.link.outbox ∧ v.tenants = s.tenants ∧ v.flash.chips = s.flash.chips)
    Timed s r ∧ (parcelOf x.bytes = none → aborted Code.insForm) ∧
    (∀ p, parcelOf x.bytes = some p →
      (∀ reason, r.importFit x.peer p = some reason → aborted reason) ∧
      (∀ d, r.importFit x.peer p = none → s.decl? p.slot = some d → r.openParcel p = none → aborted CryptoResult.badTag.code) ∧
      (∀ d blocks, r.importFit x.peer p = none → s.decl? p.slot = some d → r.openParcel p = some blocks → parcelContent d blocks = none → aborted Code.insMismatch) ∧
      (∀ d blocks c, r.importFit x.peer p = none → s.decl? p.slot = some d → r.openParcel p = some blocks → parcelContent d blocks = some c →
        (s.power.commitLow = true → aborted Code.lowbat) ∧
        (s.power.commitLow = false → let b := r.beginImport m d x c
          exec .parcelImport s = .next b.startWork ∧ b.update.importing = some x ∧ b.update.plan = none ∧ b.vault.read erased importRecordAt = 2 ∧
            b.otp = s.otp ∧ b.flash = s.flash ∧ b.tenants = s.tenants)))) ∧
  (∀ s : State, s.update.importing = none → Unmoved .parcelImport s) ∧
  (∀ (s r : State) (f : Frame) (p : Bytes) (e : Export), Passes s f Code.fParcel p r → isMessage 0x01 p = true → s.update.exporting = some e →
    let answers := f.peer = .unit e.target ∧ parcelTransferOf p = e.transfer ∧ e.step = 3
    (answers → byteAt p 7 ≠ 0 → Completes (.parcelResult f) s (fun v => v.update.exporting = none ∧ (v.tenant e.slot).frozen = false ∧ v.otp = s.otp ∧ v.flash = s.flash)) ∧
    (answers → byteAt p 7 = 0 → e.count ≤ e.next + 1 → Completes (.parcelResult f) s (fun v => v.update.exporting = some { e with step := 4 } ∧
      (∃ q, v.update.ledger = s.update.ledger ++ [q] ∧ q.after = .exported) ∧ v.vault.read erased exportRecordAt = 4 ∧
      (∀ q, r.link.request = some q → q.frame.dest = .peer (.unit e.target) → v.link.request = none) ∧ v.tenants = s.tenants)) ∧
    (answers → byteAt p 7 = 0 → e.next + 1 < e.count → Completes (.parcelResult f) s (fun v => v = { r with events := v.events, sleep := v.sleep })) ∧
    (¬answers → Completes (.parcelResult f) s (fun v => v = { r with events := v.events, sleep := v.sleep }))) ∧
  (∀ (s : State) (e : Export), s.awake = true → s.update.exporting = some e → e.step = 3 → e.count ≤ e.next → Completes .parcelResultTimeout s (fun v =>
    AtBoundary (e.lastSent + 4096) s v ∧ v.update.exporting = none ∧ (v.tenant e.slot).frozen = false ∧ v.otp = s.otp ∧ v.flash = s.flash)) ∧
  (∀ s : State, s.update.exporting = none → Unmoved .parcelResultTimeout s) ∧
  (∀ (s r : State) (f : Frame) (p u : Bytes) (q : OutRequest) (e : Export), Passes s f Code.fAck p r → f.peer = .unit u → s.requestOf? f Code.fParcel = some q →
    s.update.exporting = some e → e.step = 3 → byteAt q.frame.payload 0 = 0x01 → e.next + 1 < e.count → Completes (.ackFrame f) s (fun v =>
      v.update.exporting = some { e with next := e.next + 1, lastSent := s.clock.boundaries } ∧ (∃ o, v.link.request = some ⟨o, 0, none, none⟩ ∧ v.link.outbox = r.link.outbox ++ [o] ∧
        o.dest = .peer (.unit e.target) ∧ o.kind = Code.fParcel ∧ o.sealed = true ∧ o.payload = parcelPayload 1 e.transfer (e.next + 1) e.count (fragment e.parcel (e.next + 1)))))) ∧
  ((∀ (s : State) (m : Manifest) (i : Install), s.awake = true → s.running.manifest = some m → s.update.exporting = none → s.update.install = some i → i.kind = 3 → i.checked = true →
    (s.tenant (slotOfNat i.slot.toNat)).bounce.state ≠ .empty → Completes .parcelExport s (fun u => ∃ e, u.update.exporting = some e ∧ e.slot = slotOfNat i.slot.toNat ∧ e.step = 1 ∧
      (u.tenant e.slot).frozen = true ∧ u.clock = s.clock.nextLap true ∧ u.vault.read erased exportRecordAt = 1 ∧ (∀ t', t' ≠ e.slot → u.tenant t' = s.tenant t') ∧ u.otp = s.otp)) ∧
  (∀ (s : State) (m : Manifest) (d : TenantDecl) (e : Export), s.awake = true → s.running.manifest = some m → s.update.exporting = some e → e.step = 1 → s.decl? e.slot = some d →
    (s.drained e.slot = false → Unmoved .parcelExport s) ∧
    (s.drained e.slot = true → Completes .parcelExport s (fun u => u.otp = s.otp ∧ u.flash.chips = s.flash.chips ∧
      ((u.update.exporting = none ∧ (u.tenant e.slot).frozen = false) ∨ (∃ e', u.update.exporting = some e' ∧ e'.step = 3 ∧ e'.slot = e.slot ∧ e'.transfer = e.transfer ∧
        e'.target = e.target ∧ e'.count = ceilDiv e'.parcel.length 240 ∧ e'.digest = sha3 e'.parcel ∧ u.tenants = s.tenants))))) ∧
  (∀ (s : State), s.update.exporting = none → s.update.install = none → Unmoved .parcelExport s))

/-- From R192, R383, R384, R385, R387, R407. A running unit refuses a recovery pair with POLICY; the ROM that tries PEER keeps its
fragments. A lead sends its own pair in install form to a lost member that its binding admits, one cycle after another for 40,960 laps. A
held member asks its lead for the image, every 4,096 laps; the lead sends one that answers, or refuses; fragments count only from the lead.
-/
def Obligations.RecoveryObjectsTravel : Prop :=
  (∀ (s r : State) (f : Frame) (p : Bytes), Passes s f Code.fParcel p r → isFragment 0x02 p = true → Completes (.parcelRecoveryPair f) s (Sends (refusal r f Code.policy 0xFFFFFF 0) r)) ∧
  (∀ (s : State) (f : Frame), s.romTakes f = true → f.kind = Code.fParcel → isFragment 0x02 f.payload = true →
    let x := storeFragment s.link.receiving f.srcUnit f.payload
    (x.complete = false → Completes (.parcelRecoveryPair f) s (fun u => u = { s with link := { s.link with receiving := some x } })) ∧
    (x.complete = true → exec (.parcelRecoveryPair f) s = .next (({ s with link := { s.link with receiving := none } } : State).objectArrived .peer x.bytes))) ∧
  (∀ (s : State) (f : Frame), s.power.phase = .b → s.romTakes f = false → Unmoved (.parcelRecoveryPair f) s) ∧
  (∀ (s : State) (v : Bytes) (m : Manifest) (b : Nat), s.awake = true → s.link.opened = true → s.link.role = .lead → s.running.manifest = some m →
    s.link.lostMembers.find? (fun x => x.1 == v) = some (v, b) →
    (s.clock.boundaries < b + 40960 → m.binding.admits v = true → s.sending v 0x02 = false →
      Completes (.recoveryPairCycle v) s (fun u => u = { s with link := u.link } ∧
        u.link = { s.link with nextTransfer := s.link.nextTransfer + 1, outbox := s.link.outbox ++ parcelFrames v 2 0 s.link.nextTransfer s.recoveryPair })) ∧
    (b + 40960 ≤ s.clock.boundaries ∨ m.binding.admits v = false ∨ s.sending v 0x02 = true → Unmoved (.recoveryPairCycle v) s)) ∧
  (∀ (s r : State) (f : Frame) (p : Bytes), Passes s f Code.fParcel p r → isFragment 0x03 p = true →
    (s.link.role ≠ .member ∨ s.link.lead.map Peer.unit ≠ some f.peer → Completes (.parcelImageFragment f) s (Sends (refusal r f Code.policy 0xFFFFFF 0) r)) ∧
    (s.link.role = .member → s.link.lead.map Peer.unit = some f.peer →
      (s.link.receiving = none → s.installBusy = true → Completes (.parcelImageFragment f) s (fun u => refusal r f Code.notReady 0xFFFFFF 0 ∈ u.link.outbox ∧ u.link.receiving = none)) ∧
      (s.link.receiving ≠ none ∨ s.installBusy = false → (storeFragment s.link.receiving f.srcUnit p).complete = false → Completes (.parcelImageFragment f) s (fun u =>
        u.link.receiving = some (storeFragment s.link.receiving f.srcUnit p) ∧ u.link.outbox = r.link.outbox ∧ u.tenants = s.tenants)) ∧
      (s.link.receiving ≠ none ∨ s.installBusy = false → (storeFragment s.link.receiving f.srcUnit p).complete = true → Completes (.parcelImageFragment f) s (fun u => u.link.receiving = none)) ∧
      (∀ q, r.requestOf? f Code.fParcel = some q → byteAt q.frame.payload 0 = 0x03 → Completes (.parcelImageFragment f) s (fun u => u.link.request = none)))) ∧
  (∀ (s r : State) (f : Frame) (p v : Bytes), Passes s f Code.fParcel p r → isMessage 0x03 p = true → f.peer = .unit v →
    (s.link.role ≠ .lead ∨ s.session? f.peer = none → Completes (.parcelRecoveryRequest f) s (Sends (refusal r f Code.policy 0xFFFFFF 0) r)) ∧
    (s.link.role = .lead → s.session? f.peer ≠ none → let busy := s.link.outbox.any (fun o => o.kind == Code.fParcel && byteAt o.payload 0 == 0x03)
      (busy = true → Completes (.parcelRecoveryRequest f) s (Sends (waiting r f 4096) r)) ∧
      (busy = false → allSlots.find? (s.holdsImage (slice p 8 16)) = none → Completes (.parcelRecoveryRequest f) s (Sends (refusal r f Code.policy 0xFFFFFF 0) r)) ∧
      (∀ t, busy = false → allSlots.find? (s.holdsImage (slice p 8 16)) = some t → Completes (.parcelRecoveryRequest f) s (fun u =>
        u = { r with events := u.events, sleep := u.sleep, link := u.link } ∧
        u.link = { r.link with nextTransfer := s.link.nextTransfer + 1, outbox := r.link.outbox ++ parcelFrames v 3 f.request s.link.nextTransfer (s.imageObject t (byteAt p 7)) })))) ∧
  (∀ (s : State) (t : TSlot) (l : Bytes), s.awake = true → s.link.opened = true → s.link.role = .member → s.link.request = none → s.link.lead = some l → s.recoverySource? t = some .peer →
    (s.tenant t).life = .held → s.session? (.unit l) ≠ none → Completes (.recoveryRequestSend t) s (fun u =>
      let digest := if s.boot.ledgerLost then zeros 16 else entryDigest s.ledger t
      (∃ o, u.link.request = some ⟨o, 0, none, none⟩ ∧ u.link.outbox = s.link.outbox ++ [o] ∧ o.kind = Code.fParcel ∧ o.dest = .peer (.unit l) ∧
        o.payload = parcelPayload 3 s.link.nextTransfer 0xFFFF 0 (BitVec.ofNat 8 t.val :: digest)) ∧
      (t, u.clock.boundaries) ∈ u.link.recoveryAsked ∧ (∀ b, s.link.recoveryAsked.find? (fun x => x.1 == t) = some (t, b) → AtBoundary (b + 4096) s u) ∧ u.tenants = s.tenants)) ∧
  (∀ (s : State) (t : TSlot), (s.tenant t).life ≠ .held → Unmoved (.recoveryRequestSend t) s)

/-- From R47, R49, R122, R198, R407, R413, R415, R416, R420. An object taken is read to its end, one leaf a lap, and checked, a pair in the
Warden slots that its stated lengths take; the first failed stage refuses it with its reason and its record, nothing else changed; one that
passes stands checked. A checked object is written only while flash changes are permitted. -/
def Obligations.InstallsAreCheckedThenWritten : Prop :=
  (∀ (s : State) (i : Install), s.awake = true → s.update.install = some i → i.checked = false → i.generation = 0 →
    let refused := fun (u : State) (reason : Byte) => u.update.install = none ∧ u.update.flashTasks = [] ∧ u.flash = s.flash ∧ u.otp = s.otp ∧ u.keys = s.keys ∧
      (s.isRunning = true → s.boot.life ≠ .scrapped → s.audit.queue.length < 32 → ∃ q, u.audit.queue = s.audit.queue ++ [q] ∧ q.kind = Code.installRefused ∧ byteAt q.body 2 = reason)
    (s.readObject i = none → Completes .installCheck s (fun u => refused u Code.insForm ∧ u.clock = s.clock.skipLaps 2 true)) ∧
    (∀ j, s.readObject i = some j →
      let k := j.named (j.object.drop 64)
      let read := s.setClock (s.clock.skipLaps (i.lapsLeft + 2) true)
      let past := if i.kind = 2 then read.wardenSlots (pairSlots (j.object.drop 64)) else read
      let r : State := { past with update := { s.update with install := some k } }
      Timed s past ∧ s.clock.boundaries + i.lapsLeft + 2 ≤ past.clock.boundaries ∧
      (∀ reason n, r.stages k (j.object.drop 64) = some (reason, n) → Completes .installCheck s (fun u => refused u reason ∧ u.clock = r.clock)) ∧
      (r.stages k (j.object.drop 64) = none → exec .installCheck s = .next { r with update := { r.update with install := some { k with checked := true } } }))) ∧
  (∀ s : State, s.update.install = none → Unmoved .installCheck s ∧ Unmoved .tenantImageInstall s) ∧
  (∀ (s : State) (m : Manifest) (i : Install) (d : TenantDecl) (stmt image : Bytes), s.awake = true → s.power.commitLow = false → s.running.manifest = some m → s.update.install = some i →
    i.kind = 1 → i.checked = true → i.generation = 0 → s.decl? (slotOfNat i.slot.toNat) = some d → bodyParts 1 (i.object.drop 64) = some (stmt, image) →
    let b := s.beginImage m d i image
    exec .tenantImageInstall s = .next b.startWork ∧ b.update.install = some { i with generation := s.nextGen d.slot } ∧ b.vault.read erased installRecordAt = 1 ∧
      s.nextGen d.slot % 2 ≠ s.runningGen d.slot % 2 ∧ s.runningGen d.slot < s.nextGen d.slot ∧ b.flash.chips = s.flash.chips ∧ b.tenants = s.tenants ∧ b.otp = s.otp) ∧
  (∀ (s : State) (i : Install) (manifest image : Bytes), s.awake = true → s.power.commitLow = false → s.update.install = some i → i.kind = 2 → i.checked = true → i.generation = 0 →
    i.pair = some (manifest, image) → let b := s.beginPair i manifest image
    exec .schedulePairInstall s = .next b.startWork ∧ b.update.install = some { i with generation := 1 } ∧ b.flash.chips = s.flash.chips ∧ b.tenants = s.tenants ∧
      ((byteAt image 15).getLsbD 0 = false → b.vault.read erased installRecordAt = 1) ∧ b.otp = s.otp) ∧
  (∀ (s : State) (manifest image : Bytes), s.awake = true → s.power.commitLow = false → s.update.install = none → s.update.pendingPair = some (image, manifest) → s.installBusy = false → s.staged = true →
    exec .schedulePairInstall s = .next (s.beginReseal manifest image).startWork ∧ (s.beginReseal manifest image).update.pendingPair = none) ∧
  (∀ s : State, s.power.commitLow = true → Unmoved .tenantImageInstall s ∧ Unmoved .schedulePairInstall s)

/-- From R419, R422, R423. A restart that is asked for waits until the tenant's writes have drained, then holds the tenant in reset from
slot 0 of the next lap and stages it anew. A confirmation window that ends asks for one, from S after a wake; a revert is asked for again at
slot 0 of a lap with the commit monitor clear. -/
def Obligations.TrialsRestartAndRevert : Prop :=
  (∀ (s : State) (t : TSlot) (d : TenantDecl), s.decl? t = some d → s.awake = true → (s.tenant t).waiting = 1 →
    (s.mayRestart t = true → Completes (.tenantRestart t) s (fun u => u.clock = s.clock.nextLap true ∧ (u.tenant t).restarting = true ∧ (u.tenant t).waiting ≠ 1 ∧ (u.tenant t).windowEnds = none ∧
      (u.tenant t).life = (if (s.tenant t).life = .held then .held else .created) ∧ (∀ l ∈ (u.tenant t).cache, l.valid = false) ∧ (∀ i, d.resetLine = some i → u.pads.prst[i] = .low) ∧
      (∀ t', t' ≠ t → u.tenant t' = s.tenant t') ∧ u.otp = s.otp ∧ u.flash = s.flash)) ∧
    (s.mayRestart t = false → Unmoved (.tenantRestart t) s)) ∧
  (∀ (s : State) (t : TSlot), (s.tenant t).waiting ≠ 1 → Unmoved (.tenantRestart t) s) ∧
  (∀ (s : State) (t : TSlot) (d : TenantDecl) (e : Nat), (s.tenant t).windowEnds = some e → s.decl? t = some d → s.probe.halted = false → (s.trial t).onTrial = true →
    (s.power.phase = .n → s.mayRestart t = false → Completes (.confirmWindowExpiry t) s (fun u => e ≤ u.clock.rtc ∧ u.tenant t = { s.tenant t with windowEnds := none, waiting := 1 } ∧
      (∀ t', t' ≠ t → u.tenant t' = s.tenant t') ∧
      u.eventBit (Ev.tenant t.val 7) = true ∧ ∃ m, Timed s m ∧ u = { m with tenants := u.tenants, events := u.events, sleep := u.sleep })) ∧
    (s.power.phase = .n → s.mayRestart t = true → Completes (.confirmWindowExpiry t) s (fun u => (u.tenant t).restarting = true ∧ (u.tenant t).windowEnds = none ∧ ∀ i, d.resetLine = some i → u.pads.prst[i] = .low)) ∧
    (s.power.phase = .s → s.sleep.resumeAt = none → Completes (.confirmWindowExpiry t) s (fun u => (u.tenant t).waiting = 1 ∧ (u.tenant t).windowEnds = none ∧ u.sleep.resumeAt ≠ none ∧
      u.sleep.waiting.getLsbD (Ev.tenant t.val 7) = true))) ∧
  (∀ (s : State) (t : TSlot), (s.tenant t).windowEnds = none → Unmoved (.confirmWindowExpiry t) s) ∧
  (∀ (s : State) (t : TSlot), s.awake = true → (s.tenant t).waiting = 2 → s.power.commitLow = false → (∀ q ∈ s.update.ledger, q.after ≠ .revert t) → Completes (.revertRetry t) s (fun u =>
    u.clock = s.clock.toLapStart ∧ u.clock.slot = 0 ∧ (∃ q, u.update.ledger = s.update.ledger ++ [q] ∧ q.after = .revert t) ∧ (s.clock.slot = 0 → u.clock = s.clock) ∧ u.tenants = s.tenants ∧ u.vault = s.vault)) ∧
  (∀ (s : State) (t : TSlot), (s.tenant t).waiting ≠ 2 ∨ s.power.commitLow = true → Unmoved (.revertRetry t) s)

/-- From R31, R32, R45, R424, R425, R426, R427, R428, R435. Once no write, staging or restart is under way the handover waits for the frame
boundary, where the leaves still in a Cipher lane are passed on, applies the map and switches at slot 0: the new programs run from their lap
0, sessions, mailboxes, keys, tenants and vault as they were but for the records requested, HANDOVER and VERSIONS of the pair. ACT_EN falls
when the new manifest has no Badger program or no policy. The self-check by slot 0 of lap 64 ends it with HANDOVER_OK. -/
def Obligations.HandoverSwitchesThePrograms : Prop :=
  (∀ (s : State) (encoded image : Bytes) (old new : Manifest) (run : Schedule), s.awake = true → s.isRunning = true → s.handoverClear = true → s.running.handover = some (encoded, image) →
    s.running.manifest = some old → s.running.schedule = some run → decodeManifest encoded = some new → 
    let r := s.toFrame.endLanes
    Timed s s.toFrame ∧ s.toFrame.clock.slot = 0 ∧ s.toFrame.clock.lap % s.frameLength = 0 ∧ Completes .handoverLap s (fun u =>
      u.running = { r.running with handover := none, manifestBytes := encoded, image := image, manifest := some { new with mailbox := old.mailbox }
                                   schedule := some (scheduleOf image), selfCheckDue := true } ∧
      u.clock.lap = 0 ∧ u.clock.slot = 0 ∧ u.clock.boundaries = r.clock.boundaries + 1 ∧ u.sram = (r.applyMap run (scheduleOf image)).sram ∧
      u.sessions = r.sessions ∧ u.mailbox = r.mailbox ∧ u.keys = r.keys ∧ u.otp = r.otp ∧ u.tenants = r.tenants ∧ u.flash.chips = r.flash.chips ∧
      (new.spillRecords = old.spillRecords → u.vault = r.vault ∧ u.flash = r.flash) ∧
      (new.badger = none ∨ new.actuator = none → u.pads.actEn = .low) ∧ (new.badger ≠ none → new.actuator ≠ none → u.pads = r.pads) ∧
      (r.boot.life ≠ .scrapped → r.audit.queue.length < 32 → ∃ q ∈ u.audit.queue, q.kind = Code.handover ∧ q.body = fit 20 0
        (be 4 run.version ++ be 4 (scheduleOf image).version ++ run.digest.take 6 ++ (scheduleOf image).digest.take 6)) ∧
      (r.boot.life ≠ .scrapped → r.audit.queue.length + 3 ≤ 32 → ((u.audit.queue.drop r.audit.queue.length).map (·.kind)) = [Code.handover, Code.versions, Code.versions]))) ∧
  (∀ s : State, s.handoverClear = false ∨ s.running.handover = none → Unmoved .handoverLap s) ∧
  (∀ s : State, s.awake = true → s.running.selfCheckDue = true →
    let m := s.setClock (s.clock.toLap s.frameLength)
    let timely := m.clock.lap < 64 ∨ (m.clock.lap = 64 ∧ m.clock.slot = 0)
    Timed s m ∧ s.frameLength ≤ m.clock.lap ∧
    (m.selfCheckPasses = true → timely → Completes .handoverSelfCheck s (fun u => u.running = { s.running with selfCheckDue := false } ∧ u.clock = m.clock ∧
      u.tenants = s.tenants ∧ u.otp = s.otp ∧ Requests Code.handoverOk (be 2 m.clock.lap) m u)) ∧
    (m.selfCheckPasses = false ∨ ¬timely → exec .handoverSelfCheck s = .next m)) ∧
  (∀ s : State, s.running.selfCheckDue = false → Unmoved .handoverSelfCheck s)

/-- From R31, R32, R139, R153, R154, R159, R478, R479, R131, R133, R251, R477. A probe that reaches HALT asks; the halt waits for the end of
updates, commits, staging, restarts and handovers and then for the next frame boundary, where the fabric stops and WDT with it. It resumes
at the next lap boundary. A resume withdraws a halt still asked for. A port without the reach asks nothing. A granted access word reads or
writes its word and nothing else; one that the port's reach does not grant returns nothing and changes nothing but its event. At no reach is
a byte of the ledger, the session table or the key OTP returned, or a byte of the vault written. A word of OTP only gains bits, none in the
life-cycle groups, the key or a locked or reserved word. The scan chain and an address that a space does not have stop the run. -/
def Obligations.DebugPortStaysWithinReach : Prop :=
  ((∀ s : State, s.reaches 1 = true → s.power.phase = .n → s.probe.halted = false → Completes .probeHaltRequest s (fun u => u.probe = { s.probe with haltAsked := true } ∧
    u = { s with probe := u.probe, events := u.events, sleep := u.sleep })) ∧
  (∀ s : State, s.reaches 1 = false → Unmoved .probeHaltRequest s ∧ Unmoved .probeResumeRequest s) ∧
  (∀ s : State, s.probe.haltAsked = true → s.awake = true →
    (s.mayHalt = true → ∃ m : State, Timed s m ∧ m.clock.slot = 0 ∧ s.clock.lap ≤ m.clock.lap ∧
      (∀ run, s.running.schedule = some run → run.frameLaps ≠ 0 → m.clock.lap % run.frameLaps = 0 ∧ m.clock.lap ≤ s.clock.lap + run.frameLaps) ∧
      Completes .haltEntry s (fun u => u.awake = false ∧ u.probe.halted = true ∧ u.power.wdtOn = false ∧
        let v := m.endLanes
        u = { v with power := { v.power with wdtOn := false }, probe := { v.probe with haltAsked := false, halted := true } })) ∧
    (s.mayHalt = false → Unmoved .haltEntry s)) ∧
  (∀ s : State, s.probe.haltAsked = false → Unmoved .haltEntry s) ∧
  (∀ s : State, s.reaches 1 = true → s.power.phase = .n → s.probe.halted = true → Completes .probeResumeRequest s (fun u => u.awake = true ∧ u.power.wdtOn = true ∧
    u.clock = s.clock.nextLap true ∧ u.clock.slot = 0 ∧ u.probe = { s.probe with haltAsked := false, halted := false } ∧
    ∃ m, Timed s m ∧ u = { m with power := { s.power with wdtOn := true }, probe := u.probe, events := u.events, sleep := u.sleep })) ∧
  (∀ s : State, s.reaches 1 = true → s.power.phase = .n → s.probe.halted = false → Completes .probeResumeRequest s (fun u => u.probe = { s.probe with haltAsked := false } ∧
    u = { s with probe := u.probe, events := u.events, sleep := u.sleep }))) ∧
  ((∀ (s : State) (op : DebugOp), s.probe.reach = none ∨ s.power.phase ≠ .n → Unmoved (.debugAccessWord op) s) ∧
  (∀ (s : State) (sp : DebugSpace) (a : Nat), s.probe.reach.isSome = true → s.power.phase = .n →
    (s.grants (readReach sp a) = false → Completes (.debugAccessWord (.read sp a)) s (fun u => u = { s with probe := { s.probe with out := [] }, events := u.events, sleep := u.sleep })) ∧
    (s.grants (readReach sp a) = true → sp ≠ .scan →
      (s.hasWord sp a = true → Completes (.debugAccessWord (.read sp a)) s (fun u => u = { s with probe := { s.probe with out := (s.latch Ev.debugWord).debugWord sp a }, events := u.events, sleep := u.sleep })) ∧
      (s.hasWord sp a = false → exec (.debugAccessWord (.read sp a)) s = .fault .noSuchAddress)) ∧
    (s.grants (readReach .scan a) = true → exec (.debugAccessWord (.read .scan a)) s = .refused .scanChain) ∧
    ((sp = .ledgerHalves ∨ sp = .commitWord ∨ sp = .sessionTable ∨ sp = .keyOtp) → Completes (.debugAccessWord (.read sp a)) s (fun u => u.probe.out = []))) ∧
  (∀ (s : State) (sp : DebugSpace) (a : Nat) (v : Word32), s.probe.reach.isSome = true → s.power.phase = .n →
    (s.grants (writeReach sp) = false → Completes (.debugAccessWord (.write sp a v)) s (fun u => u = { s with events := u.events, sleep := u.sleep })) ∧
    (s.grants (writeReach sp) = true → sp ≠ .scan → s.hasWord sp a = true → Completes (.debugAccessWord (.write sp a v)) s (fun u => u.flash = s.flash ∧
      u.sessions = s.sessions ∧ (s.isRunning = true → u.vault = s.vault) ∧ OtpRises s.otp u.otp ∧
      (sp ≠ .otpWord → sp ≠ .otpPatch → u.vault = s.vault ∧ u.clock = s.clock ∧ u.audit = s.audit ∧ u.otp = s.otp) ∧
      (sp = .sram → (∀ i < 4, u.sram.read (fillOf u.sramFill) (a + i) = (be 4 v.toNat).getD i 0) ∧ (∀ b, b < a ∨ a + 4 ≤ b → u.sram.read (fillOf u.sramFill) b = s.sram.read (fillOf s.sramFill) b)) ∧
      (sp = .den → ∀ i < 4, u.den.read (fillOf u.denFill) (a + i) = (be 4 v.toNat).getD i 0) ∧
      (sp = .otpWord → (∀ w : Fin 32, w.val ≠ a / 4 → w ≠ 23 → u.otp.words[w] = s.otp.words[w]) ∧ u.otp.groups = s.otp.groups ∧ u.otp.keyTrue = s.otp.keyTrue ∧
        u.otp.patch0 = s.otp.patch0) ∧
      (sp = .otpWord → 14 ≤ a / 4 → a / 4 ≠ 23 → u.otp = s.otp) ∧
      (sp = .otpWord → a / 4 ≤ 13 → (s.otpWord 23).getLsbD (makerField (a / 4)).2.2 = true → u.otp = s.otp) ∧
      (sp = .otpPatch → u.otp.words = s.otp.words ∧ u.otp.groups = s.otp.groups ∧ u.audit = s.audit ∧ u.vault = s.vault) ∧
      (sp = .otpWord ∨ sp = .otpPatch → s.power.commitLow = true → u = { s with events := u.events, sleep := u.sleep }))) ∧
    (sp = .otpGroup ∨ sp = .keyOtp ∨ sp = .vaultOther ∨ sp = .ledgerHalves ∨ sp = .commitWord → s.grants (writeReach sp) = false) ∧
    (s.grants (writeReach sp) = true → sp ≠ .scan → s.hasWord sp a = false → exec (.debugAccessWord (.write sp a v)) s = .fault .noSuchAddress)) ∧
  (∀ (s : State) (c : Fin 2) (a n : Nat), s.probe.reach.isSome = true → s.power.phase = .n → s.reaches 1 = true → s.chipServes c = true → Completes (.debugAccessWord (.flashRead c a n)) s (fun u =>
    u = { s with probe := { s.probe with out := s.raw c a n }, events := u.events, sleep := u.sleep })) ∧
  (∀ (s : State) (c : Fin 2) (a : Nat) (bs : Bytes) (op : DebugOp) (kind : FlashOpKind), s.probe.reach.isSome = true → s.power.phase = .n →
    (op = .flashProgram c a bs ∧ kind = .program) ∨ (op = .flashErase4k c a ∧ kind = .erase4k ∧ bs = []) ∨ (op = .flashErase64k c a ∧ kind = .erase64k ∧ bs = []) →
    (s.reaches 1 = false ∨ s.power.commitLow = true ∨ s.flashBusy = true ∨ s.flash.cutAt ≠ none ∨ s.flash.deepDown = true ∨ s.chipServes c = false → Completes (.debugAccessWord op) s (fun u => u = { s with events := u.events, sleep := u.sleep })) ∧
    (s.reaches 1 = true → s.flashBusy = false → s.power.commitLow = false → s.flash.cutAt = none → s.flash.deepDown = false → s.chipServes c = true → Completes (.debugAccessWord op) s (fun u =>
      u.flash.op[c] = some ⟨⟨kind, c, a, bs⟩, .debug, false⟩ ∧ u.flash.sent[c] = [0x06, (s.chip c).sfdp.taskOp kind] ∧ u.flash.chips = s.flash.chips ∧ u.otp = s.otp ∧ u.vault = s.vault))) ∧
  (∀ s : State, s.probe.reach.isSome = true → s.power.phase = .n → s.reaches 1 = true → s.probe.halted = true → Completes (.debugAccessWord .stepLap) s (fun u =>
    u.clock = s.clock.nextLap true ∧ ∃ m, Timed s m ∧ u = { m with events := u.events, sleep := u.sleep })))
end

