-- ==== Sys2Proof/Laws/Audit.lean ====
section
/-!
SUPPORT. What requesting or appending an audit record can change: the vault, the queue, the event vector, the note bits of the head search,
the time at which a cross-signing falls due, and nothing else.
-/
namespace Sys2Proof.Laws
open Sys2Proof.Machine Sys2Proof.Safety

theorem audit_refl (s : State) : AuditOnly s s := rfl

theorem audit_trans {s t u : State} (h : AuditOnly s t) (k : AuditOnly t u) : AuditOnly s u := by
  unfold AuditOnly at *; rw [k]; simp only; rw [h]

theorem audit_writeRecord (s : State) (k t : Byte) (a b) : AuditOnly s (s.writeRecord k t a b) := by
  unfold State.writeRecord State.noteForCross; simp only []
  split <;> split <;> try split
  all_goals rfl

theorem audit_dropBatch (s : State) (l v) : AuditOnly s (s.dropBatch l v) := by
  unfold State.dropBatch; exact audit_trans (by rfl) (audit_writeRecord _ _ _ _ _)

theorem audit_makeRoom (s : State) : AuditOnly s s.makeRoom := by
  unfold State.makeRoom; simp only []
  split
  · split
    · rfl
    · split
      · exact audit_trans (by rfl) (audit_dropBatch _ _ _)
      · exact audit_trans (by rfl) (audit_dropBatch _ _ _)
  · rfl

theorem audit_settleHead (s : State) : AuditOnly s s.settleHead := by
  unfold State.settleHead
  split
  · rfl
  · have h1 : ∀ s : State, AuditOnly s s.settleSearch := by
      intro s; unfold State.settleSearch; simp only []; split <;> rfl
    have h2 : ∀ s : State, AuditOnly s s.settleCase := by
      intro s; unfold State.settleCase; split
      · exact h1 s
      · split
        · split
          · split <;> rfl
          · rfl
        · split
          · exact h1 s
          · rfl
    have h3 : ∀ s : State, AuditOnly s s.adoptNext := by
      intro s; unfold State.adoptNext; split
      · split
        · split <;> rfl
        · rfl
      · rfl
    exact audit_trans (audit_trans (by rfl) (h2 _)) (h3 _)

theorem audit_appendNow (s : State) (k t : Byte) (a b) : AuditOnly s (s.appendNow k t a b) := by
  unfold State.appendNow; simp only []
  refine audit_trans (audit_settleHead s) (audit_trans ?_ (audit_trans (audit_makeRoom _) (audit_writeRecord _ _ _ _ _)))
  split
  · exact audit_writeRecord _ _ _ _ _
  · rfl

theorem audit_latch (s : State) (e : Nat) : AuditOnly s (s.latch e) := rfl

theorem audit_enqueueRecord (s : State) (r : AuditReq) : AuditOnly s (s.enqueueRecord r) := by
  unfold State.enqueueRecord; split <;> rfl

theorem audit_recordThen (s : State) (k t : Byte) (b : Bytes) (o : OnCommit) : AuditOnly s (s.recordThen k t b o) := by
  unfold State.recordThen
  split
  · rfl
  · split
    · exact audit_enqueueRecord _ _
    · exact audit_appendNow _ _ _ _ _

theorem audit_record (s : State) (k t : Byte) (b : Bytes) : AuditOnly s (s.record k t b) := audit_recordThen _ _ _ _ _

theorem audit_recordLimited (s : State) (k t : Byte) (b : Nat → Bytes) : AuditOnly s (s.recordLimited k t b) := by
  have step : ∀ (x : Audit) (y : Bytes), AuditOnly s (({ s with audit := x } : State).record k t y) := fun x y =>
    audit_trans (t := { s with audit := x }) rfl (audit_record _ _ _ _)
  unfold State.recordLimited
  split
  · rename_i r _
    cases r.last with
    | none => exact step _ _
    | some n =>
      simp only []
      by_cases h : n + 1024 ≤ s.clock.boundaries
      · simp only [h, decide_true, if_true]; exact step _ _
      · simp only [h, decide_false]; rfl
  · exact step _ _

/-- A record requested while the schedule runs, the queue with room: it is the queue's last (R463). -/
theorem recordThen_queued (s : State) (k t : Byte) (b : Bytes) (o : OnCommit) (h : s.isRunning = true) (l : s.boot.life ≠ .scrapped)
    (q : s.audit.queue.length < 32) :
    s.recordThen k t b o = { s with audit := { s.audit with queue := s.audit.queue ++ [⟨k, t, s.timeField, fit 20 0 b, o⟩] } } := by
  unfold State.recordThen
  rw [if_neg l, if_pos h]
  unfold State.enqueueRecord
  rw [if_pos (by exact q)]

end Sys2Proof.Laws
end

