-- ==== Sys2Proof/Laws/Cells.lean ====
section
/-! SUPPORT. The byte stores: every operation keeps the canonical form, a read after a write answers what was written, and a write leaves
every other byte. -/
namespace Sys2Proof.Laws
open Sys2Proof.Machine

/-- The canonical form said without recursion. -/
theorem wfFrom_iff (d : Nat → Byte) (lo : Nat) (m : Cells) :
    Cells.wfFrom d lo m = true ↔ (∀ c ∈ m, lo ≤ c.1 ∧ c.2 ≠ d c.1) ∧ m.Pairwise (fun x y => x.1 < y.1) := by
  induction m generalizing lo with
  | nil => simp [Cells.wfFrom]
  | cons c rest ih =>
    obtain ⟨a, b⟩ := c
    simp only [Cells.wfFrom, Bool.and_eq_true, decide_eq_true_eq, ih, List.mem_cons, forall_eq_or_imp, List.pairwise_cons]
    constructor
    · rintro ⟨⟨h1, h2⟩, h3, h4⟩
      exact ⟨⟨⟨h1, h2⟩, fun c hc => ⟨by have := (h3 c hc).1; omega, (h3 c hc).2⟩⟩, fun c hc => by have := (h3 c hc).1; omega, h4⟩
    · rintro ⟨⟨⟨h1, h2⟩, h3⟩, h4, h5⟩
      exact ⟨⟨h1, h2⟩, fun c hc => ⟨by have := h4 c hc; omega, (h3 c hc).2⟩, h5⟩

/-- The canonical form in terms of members and order. -/
theorem wf_iff (d : Nat → Byte) (m : Cells) :
    Cells.wf d m = true ↔ (∀ c ∈ m, c.2 ≠ d c.1) ∧ m.Pairwise (fun x y => x.1 < y.1) := by
  simp [Cells.wf, wfFrom_iff]

theorem wf_nil (d : Nat → Byte) : Cells.wf d [] = true := rfl

/-- What `fresh` lists: addresses of the run, contents that differ from an unlisted byte, in rising order. -/
theorem fresh_spec (d : Nat → Byte) (bs : Bytes) (a : Nat) :
    (∀ c ∈ Cells.fresh d a bs, a ≤ c.1 ∧ c.1 < a + bs.length ∧ c.2 ≠ d c.1) ∧
      (Cells.fresh d a bs).Pairwise (fun x y => x.1 < y.1) := by
  induction bs generalizing a with
  | nil => simp [Cells.fresh]
  | cons b bs ih =>
    obtain ⟨h1, h2⟩ := ih (a + 1)
    simp only [Cells.fresh]
    split
    · exact ⟨fun c hc => by obtain ⟨p, q, r⟩ := h1 c hc; simp only [List.length_cons]; exact ⟨by omega, by omega, r⟩, h2⟩
    · rename_i hb
      refine ⟨?_, List.pairwise_cons.2 ⟨fun c hc => by have := (h1 c hc).1; omega, h2⟩⟩
      intro c hc
      rcases List.mem_cons.1 hc with rfl | hc
      · exact ⟨by simp, by simp, hb⟩
      · obtain ⟨p, q, r⟩ := h1 c hc; simp only [List.length_cons]; exact ⟨by omega, by omega, r⟩

/-- A write keeps the canonical form. -/
theorem wf_writeRange {d : Nat → Byte} {m : Cells} (h : Cells.wf d m = true) (a : Nat) (bs : Bytes) :
    Cells.wf d (m.writeRange d a bs) = true := by
  rw [wf_iff] at h ⊢
  obtain ⟨h1, h2⟩ := h
  obtain ⟨f1, f2⟩ := fresh_spec d bs a
  refine ⟨?_, ?_⟩
  · intro c hc
    simp only [Cells.writeRange, List.mem_append, List.mem_filter] at hc
    rcases hc with (hc | hc) | hc
    · exact h1 c hc.1
    · exact (f1 c hc).2.2
    · exact h1 c hc.1
  · simp only [Cells.writeRange, List.pairwise_append, List.mem_append, List.mem_filter, decide_eq_true_eq]
    refine ⟨⟨h2.filter _, f2, fun x hx y hy => ?_⟩, h2.filter _, fun x hx y hy => ?_⟩
    · have := (f1 y hy).1; omega
    · rcases hx with hx | hx
      · omega
      · have := (f1 x hx).2.1; omega

/-- Clearing a range keeps the canonical form. -/
theorem wf_clearRange {d : Nat → Byte} {m : Cells} (h : Cells.wf d m = true) (a n : Nat) : Cells.wf d (m.clearRange a n) = true := by
  rw [wf_iff] at h ⊢
  obtain ⟨h1, h2⟩ := h
  refine ⟨?_, ?_⟩
  · intro c hc
    simp only [Cells.clearRange, List.mem_append, List.mem_filter] at hc
    rcases hc with hc | hc <;> exact h1 c hc.1
  · simp only [Cells.clearRange, List.pairwise_append, List.mem_filter, decide_eq_true_eq]
    exact ⟨h2.filter _, h2.filter _, fun x hx y hy => by omega⟩

/-- A program keeps the canonical form. -/
theorem wf_clearRanges {d : Nat → Byte} (ks : List Nat) {m : Cells} (h : Cells.wf d m = true) (n : Nat) :
    Cells.wf d (ks.foldl (fun m k => m.clearRange (n * k) n) m) = true := by
  induction ks generalizing m with
  | nil => exact h
  | cons k ks ih => exact ih (wf_clearRange h _ _)

theorem wf_program {m : Cells} (h : Cells.wf erased m = true) (a : Nat) (bs : Bytes) : Cells.wf erased (m.program a bs) = true :=
  wf_writeRange h _ _

/-- One byte written keeps the canonical form. -/
theorem wf_write {d : Nat → Byte} {m : Cells} (h : Cells.wf d m = true) (a : Nat) (b : Byte) : Cells.wf d (m.write d a b) = true :=
  wf_writeRange h _ _

/-! ### Reads -/

theorem find_none_of_lt {m : Cells} {a lo : Nat} (h : ∀ c ∈ m, lo ≤ c.1) (ha : a < lo) : m.find? (fun c => c.1 == a) = none := by
  rw [List.find?_eq_none]
  intro c hc
  have := h c hc
  simp only [beq_iff_eq]
  omega

/-- A byte of `fresh` inside its run. -/
theorem fresh_read (d : Nat → Byte) (bs : Bytes) (a x : Nat) (h1 : a ≤ x) (h2 : x < a + bs.length) :
    Cells.read d (Cells.fresh d a bs) x = bs[x - a]'(by omega) := by
  induction bs generalizing a with
  | nil => simp at h2; omega
  | cons b bs ih =>
    simp only [Cells.fresh]
    by_cases hx : x = a
    · subst hx
      by_cases hb : b = d x
      · rw [if_pos hb]
        unfold Cells.read
        rw [find_none_of_lt (lo := x + 1) (fun c hc => ((fresh_spec d bs (x + 1)).1 c hc).1) (by omega)]
        simp [hb]
      · rw [if_neg hb]
        simp [Cells.read]
    · have ih' := ih (a + 1) (by omega) (by simp at h2; omega)
      have hi : x - a = (x - (a + 1)) + 1 := by omega
      have hr : (b :: bs)[x - a]'(by simp at h2 ⊢; omega) = bs[x - (a + 1)]'(by simp at h2; omega) := by
        simp only [hi, List.getElem_cons_succ]
      rw [hr]
      by_cases hb : b = d a
      · rw [if_pos hb]
        exact ih'
      · have : (a == x) = false := by simpa using fun e => hx e.symm
        rw [if_neg hb]
        unfold Cells.read at ih' ⊢
        rw [List.find?_cons]
        simp only [this]
        exact ih'

theorem filter_find_lt {m : Cells} {a x : Nat} (hx : x < a) :
    (m.filter (fun c => decide (c.1 < a))).find? (fun c => c.1 == x) = m.find? (fun c => c.1 == x) := by
  rw [List.find?_filter]
  congr 1
  funext c
  by_cases h : c.1 = x
  · simp [h, hx]
  · simp [h]

theorem filter_find_ge {m : Cells} {a x : Nat} (hx : a ≤ x) :
    (m.filter (fun c => decide (a ≤ c.1))).find? (fun c => c.1 == x) = m.find? (fun c => c.1 == x) := by
  rw [List.find?_filter]
  congr 1
  funext c
  by_cases h : c.1 = x
  · simp [h, hx]
  · simp [h]

theorem filter_find_lt_none {m : Cells} {a x : Nat} (hx : a ≤ x) :
    (m.filter (fun c => decide (c.1 < a))).find? (fun c => c.1 == x) = none := by
  rw [List.find?_eq_none]
  intro c hc
  have := (List.mem_filter.1 hc).2
  simp only [decide_eq_true_eq] at this
  simp only [beq_iff_eq]
  omega

theorem filter_find_ge_none {m : Cells} {a x : Nat} (hx : x < a) :
    (m.filter (fun c => decide (a ≤ c.1))).find? (fun c => c.1 == x) = none := by
  rw [List.find?_eq_none]
  intro c hc
  have := (List.mem_filter.1 hc).2
  simp only [decide_eq_true_eq] at this
  simp only [beq_iff_eq]
  omega

/-- A write leaves every other byte. -/
theorem read_writeRange_other {d : Nat → Byte} (m : Cells) (a : Nat) (bs : Bytes) (x : Nat) (h : x < a ∨ a + bs.length ≤ x) :
    (m.writeRange d a bs).read d x = m.read d x := by
  have hf : (Cells.fresh d a bs).find? (fun c => c.1 == x) = none := by
    rw [List.find?_eq_none]
    intro c hc
    have := (fresh_spec d bs a).1 c hc
    simp only [beq_iff_eq]
    omega
  unfold Cells.read Cells.writeRange
  rw [List.find?_append, List.find?_append, hf]
  rcases h with h | h
  · rw [filter_find_lt h, filter_find_ge_none (by omega)]
    simp
  · rw [filter_find_lt_none (by omega), filter_find_ge h]
    simp

/-- A read answers what was written. -/
theorem read_writeRange_same {d : Nat → Byte} (m : Cells) (a : Nat) (bs : Bytes) (i : Nat) (h : i < bs.length) :
    (m.writeRange d a bs).read d (a + i) = bs[i] := by
  have hf := fresh_read d bs a (a + i) (by omega) (by omega)
  unfold Cells.read at hf ⊢
  unfold Cells.writeRange
  rw [List.find?_append, List.find?_append, filter_find_lt_none (by omega), filter_find_ge_none (by omega)]
  simp only [Option.none_or, Option.or_none]
  simpa using hf

/-- Clearing leaves every byte outside the range. -/
theorem read_clearRange_other {d : Nat → Byte} (m : Cells) (a n x : Nat) (h : x < a ∨ a + n ≤ x) :
    (m.clearRange a n).read d x = m.read d x := by
  unfold Cells.read Cells.clearRange
  rw [List.find?_append]
  rcases h with h | h
  · rw [filter_find_lt h, filter_find_ge_none (by omega)]; simp
  · rw [filter_find_lt_none (by omega), filter_find_ge h]; simp

/-- A cleared byte reads as unlisted. -/
theorem read_clearRange_same {d : Nat → Byte} (m : Cells) (a n x : Nat) (h1 : a ≤ x) (h2 : x < a + n) : (m.clearRange a n).read d x = d x := by
  unfold Cells.read Cells.clearRange
  rw [List.find?_append, filter_find_lt_none h1, filter_find_ge_none h2]
  rfl

/-! ### Runs -/

/-- A run read from cells in rising order is the bytes read one by one. -/
theorem readFrom_eq (d : Nat → Byte) (n a : Nat) (m : Cells) (lo : ∀ c ∈ m, a ≤ c.1) (up : m.Pairwise (fun x y => x.1 < y.1)) :
    Cells.readFrom d n a m = (List.range n).map (fun i => m.read d (a + i)) := by
  induction n generalizing a m with
  | zero => simp [Cells.readFrom]
  | succ n ih =>
    rw [List.range_succ_eq_map, List.map_cons, List.map_map]
    cases m with
    | nil =>
      simp only [Cells.readFrom]
      rw [ih (a + 1) [] (by simp) (by simp)]
      simp [Cells.read, Function.comp_def, Nat.add_assoc, Nat.add_comm 1]
    | cons c rest =>
      obtain ⟨k, b⟩ := c
      have k0 := lo (k, b) (by simp)
      rw [List.pairwise_cons] at up
      simp only [Cells.readFrom]
      by_cases h : k = a
      · subst h
        rw [if_pos rfl, ih (k + 1) rest (fun c hc => up.1 c hc) up.2]
        congr 1
        · simp [Cells.read]
        · apply List.map_congr_left
          intro i _
          have e : (k == k + (i + 1)) = false := by simp
          simp only [Function.comp, Cells.read, List.find?_cons, e, Nat.succ_eq_add_one]
          rw [show k + 1 + i = k + (i + 1) by omega]
      · rw [if_neg h, ih (a + 1) ((k, b) :: rest) (fun c hc => ?_) (List.pairwise_cons.2 up)]
        · congr 1
          · have e : (k == a) = false := by simpa using h
            have f := find_none_of_lt (m := rest) (a := a) (lo := a + 1) (fun c hc => by have := up.1 c hc; omega) (by omega)
            simp [Cells.read, e, f]
          · apply List.map_congr_left
            intro i _
            simp only [Function.comp, Nat.succ_eq_add_one]
            rw [show a + 1 + i = a + (i + 1) by omega]
        · rcases List.mem_cons.1 hc with rfl | hc
          · show a + 1 ≤ k
            omega
          · have := up.1 c hc
            omega

/-- A run read from a canonical store is the bytes read one by one. -/
theorem readRange_eq {d : Nat → Byte} {m : Cells} (h : Cells.wf d m = true) (a n : Nat) :
    m.readRange d a n = (List.range n).map (fun i => m.read d (a + i)) := by
  have w := ((wf_iff d m).1 h).2
  unfold Cells.readRange
  rw [readFrom_eq d n a _ (fun c hc => by simpa using (List.mem_filter.1 hc).2) (w.filter _)]
  apply List.map_congr_left
  intro i _
  unfold Cells.read
  rw [filter_find_ge (by omega)]

/-- A run outside a write is unchanged. -/
theorem readRange_writeRange_other {d : Nat → Byte} {m : Cells} (h : Cells.wf d m = true) (a : Nat) (bs : Bytes) (x n : Nat)
    (o : x + n ≤ a ∨ a + bs.length ≤ x) : (m.writeRange d a bs).readRange d x n = m.readRange d x n := by
  rw [readRange_eq (wf_writeRange h a bs), readRange_eq h]
  apply List.map_congr_left
  intro i hi
  have := List.mem_range.1 hi
  exact read_writeRange_other m a bs (x + i) (by omega)

/-- The run written answers what was written. -/
theorem readRange_writeRange_same {d : Nat → Byte} {m : Cells} (h : Cells.wf d m = true) (a : Nat) (bs : Bytes) :
    (m.writeRange d a bs).readRange d a bs.length = bs := by
  rw [readRange_eq (wf_writeRange h a bs)]
  apply List.ext_getElem (by simp)
  intro i h1 h2
  rw [List.getElem_map, List.getElem_range]
  exact read_writeRange_same m a bs i h2

/-- A run read is as long as asked. -/
theorem readRange_length {d : Nat → Byte} {m : Cells} (h : Cells.wf d m = true) (a n : Nat) : (m.readRange d a n).length = n := by
  rw [readRange_eq h]; simp

end Sys2Proof.Laws
end

