-- ==== Sys2Proof/Laws/State.lean ====
section
/-! SUPPORT. The named updates of the state, field by field: what each leaves as it was. -/
namespace Sys2Proof.Laws
open Sys2Proof.Machine

variable (s : State)

@[simp] theorem latch_pending (e : Nat) : (s.latch e).pending = s.pending := rfl
@[simp] theorem latch_clock (e : Nat) : (s.latch e).clock = s.clock := rfl
@[simp] theorem latch_power (e : Nat) : (s.latch e).power = s.power := rfl
@[simp] theorem latch_pads (e : Nat) : (s.latch e).pads = s.pads := rfl
@[simp] theorem latch_straps (e : Nat) : (s.latch e).straps = s.straps := rfl
@[simp] theorem latch_otp (e : Nat) : (s.latch e).otp = s.otp := rfl
@[simp] theorem latch_boot (e : Nat) : (s.latch e).boot = s.boot := rfl
@[simp] theorem latch_running (e : Nat) : (s.latch e).running = s.running := rfl
@[simp] theorem latch_polled (e : Nat) : (s.latch e).polled = s.polled := rfl
@[simp] theorem latch_vault (e : Nat) : (s.latch e).vault = s.vault := rfl
@[simp] theorem latch_vaultBad (e : Nat) : (s.latch e).vaultBad = s.vaultBad := rfl
@[simp] theorem latch_sram (e : Nat) : (s.latch e).sram = s.sram := rfl
@[simp] theorem latch_sramFill (e : Nat) : (s.latch e).sramFill = s.sramFill := rfl
@[simp] theorem latch_den (e : Nat) : (s.latch e).den = s.den := rfl
@[simp] theorem latch_denFill (e : Nat) : (s.latch e).denFill = s.denFill := rfl
@[simp] theorem latch_keys (e : Nat) : (s.latch e).keys = s.keys := rfl
@[simp] theorem latch_sessions (e : Nat) : (s.latch e).sessions = s.sessions := rfl
@[simp] theorem latch_crossTable (e : Nat) : (s.latch e).crossTable = s.crossTable := rfl
@[simp] theorem latch_portA (e : Nat) : (s.latch e).portA = s.portA := rfl
@[simp] theorem latch_portB (e : Nat) : (s.latch e).portB = s.portB := rfl
@[simp] theorem latch_tenants (e : Nat) : (s.latch e).tenants = s.tenants := rfl
@[simp] theorem latch_stagingPlace (e : Nat) : (s.latch e).stagingPlace = s.stagingPlace := rfl
@[simp] theorem latch_lanes (e : Nat) : (s.latch e).lanes = s.lanes := rfl
@[simp] theorem latch_commit (e : Nat) : (s.latch e).commit = s.commit := rfl
@[simp] theorem latch_lastLane (e : Nat) : (s.latch e).lastLane = s.lastLane := rfl
@[simp] theorem latch_commitWaits (e : Nat) : (s.latch e).commitWaits = s.commitWaits := rfl
@[simp] theorem latch_flash (e : Nat) : (s.latch e).flash = s.flash := rfl
@[simp] theorem latch_audit (e : Nat) : (s.latch e).audit = s.audit := rfl
@[simp] theorem latch_statements (e : Nat) : (s.latch e).statements = s.statements := rfl
@[simp] theorem latch_badger (e : Nat) : (s.latch e).badger = s.badger := rfl
@[simp] theorem latch_mailbox (e : Nat) : (s.latch e).mailbox = s.mailbox := rfl
@[simp] theorem latch_link (e : Nat) : (s.latch e).link = s.link := rfl
@[simp] theorem latch_update (e : Nat) : (s.latch e).update = s.update := rfl
@[simp] theorem latch_debug (e : Nat) : (s.latch e).probe = s.probe := rfl
@[simp] theorem latch_drbg (e : Nat) : (s.latch e).drbg = s.drbg := rfl
@[simp] theorem latch_freeDrawn (e : Nat) : (s.latch e).freeDrawn = s.freeDrawn := rfl

@[simp] theorem clearEvent_pending (e : Nat) : (s.clearEvent e).pending = s.pending := rfl
@[simp] theorem clearEvent_clock (e : Nat) : (s.clearEvent e).clock = s.clock := rfl
@[simp] theorem clearEvent_power (e : Nat) : (s.clearEvent e).power = s.power := rfl
@[simp] theorem clearEvent_sleep (e : Nat) : (s.clearEvent e).sleep = s.sleep := rfl
@[simp] theorem clearEvent_pads (e : Nat) : (s.clearEvent e).pads = s.pads := rfl
@[simp] theorem clearEvent_straps (e : Nat) : (s.clearEvent e).straps = s.straps := rfl
@[simp] theorem clearEvent_otp (e : Nat) : (s.clearEvent e).otp = s.otp := rfl
@[simp] theorem clearEvent_boot (e : Nat) : (s.clearEvent e).boot = s.boot := rfl
@[simp] theorem clearEvent_running (e : Nat) : (s.clearEvent e).running = s.running := rfl
@[simp] theorem clearEvent_polled (e : Nat) : (s.clearEvent e).polled = s.polled := rfl
@[simp] theorem clearEvent_vault (e : Nat) : (s.clearEvent e).vault = s.vault := rfl
@[simp] theorem clearEvent_vaultBad (e : Nat) : (s.clearEvent e).vaultBad = s.vaultBad := rfl
@[simp] theorem clearEvent_sram (e : Nat) : (s.clearEvent e).sram = s.sram := rfl
@[simp] theorem clearEvent_sramFill (e : Nat) : (s.clearEvent e).sramFill = s.sramFill := rfl
@[simp] theorem clearEvent_den (e : Nat) : (s.clearEvent e).den = s.den := rfl
@[simp] theorem clearEvent_denFill (e : Nat) : (s.clearEvent e).denFill = s.denFill := rfl
@[simp] theorem clearEvent_keys (e : Nat) : (s.clearEvent e).keys = s.keys := rfl
@[simp] theorem clearEvent_sessions (e : Nat) : (s.clearEvent e).sessions = s.sessions := rfl
@[simp] theorem clearEvent_crossTable (e : Nat) : (s.clearEvent e).crossTable = s.crossTable := rfl
@[simp] theorem clearEvent_portA (e : Nat) : (s.clearEvent e).portA = s.portA := rfl
@[simp] theorem clearEvent_portB (e : Nat) : (s.clearEvent e).portB = s.portB := rfl
@[simp] theorem clearEvent_tenants (e : Nat) : (s.clearEvent e).tenants = s.tenants := rfl
@[simp] theorem clearEvent_stagingPlace (e : Nat) : (s.clearEvent e).stagingPlace = s.stagingPlace := rfl
@[simp] theorem clearEvent_lanes (e : Nat) : (s.clearEvent e).lanes = s.lanes := rfl
@[simp] theorem clearEvent_commit (e : Nat) : (s.clearEvent e).commit = s.commit := rfl
@[simp] theorem clearEvent_lastLane (e : Nat) : (s.clearEvent e).lastLane = s.lastLane := rfl
@[simp] theorem clearEvent_commitWaits (e : Nat) : (s.clearEvent e).commitWaits = s.commitWaits := rfl
@[simp] theorem clearEvent_flash (e : Nat) : (s.clearEvent e).flash = s.flash := rfl
@[simp] theorem clearEvent_audit (e : Nat) : (s.clearEvent e).audit = s.audit := rfl
@[simp] theorem clearEvent_statements (e : Nat) : (s.clearEvent e).statements = s.statements := rfl
@[simp] theorem clearEvent_badger (e : Nat) : (s.clearEvent e).badger = s.badger := rfl
@[simp] theorem clearEvent_mailbox (e : Nat) : (s.clearEvent e).mailbox = s.mailbox := rfl
@[simp] theorem clearEvent_link (e : Nat) : (s.clearEvent e).link = s.link := rfl
@[simp] theorem clearEvent_update (e : Nat) : (s.clearEvent e).update = s.update := rfl
@[simp] theorem clearEvent_debug (e : Nat) : (s.clearEvent e).probe = s.probe := rfl
@[simp] theorem clearEvent_drbg (e : Nat) : (s.clearEvent e).drbg = s.drbg := rfl
@[simp] theorem clearEvent_freeDrawn (e : Nat) : (s.clearEvent e).freeDrawn = s.freeDrawn := rfl

@[simp] theorem vaultWrite_pending (off : Nat) (bs : Bytes) : (s.vaultWrite off bs).pending = s.pending := rfl
@[simp] theorem vaultWrite_clock (off : Nat) (bs : Bytes) : (s.vaultWrite off bs).clock = s.clock := rfl
@[simp] theorem vaultWrite_power (off : Nat) (bs : Bytes) : (s.vaultWrite off bs).power = s.power := rfl
@[simp] theorem vaultWrite_sleep (off : Nat) (bs : Bytes) : (s.vaultWrite off bs).sleep = s.sleep := rfl
@[simp] theorem vaultWrite_pads (off : Nat) (bs : Bytes) : (s.vaultWrite off bs).pads = s.pads := rfl
@[simp] theorem vaultWrite_straps (off : Nat) (bs : Bytes) : (s.vaultWrite off bs).straps = s.straps := rfl
@[simp] theorem vaultWrite_otp (off : Nat) (bs : Bytes) : (s.vaultWrite off bs).otp = s.otp := rfl
@[simp] theorem vaultWrite_boot (off : Nat) (bs : Bytes) : (s.vaultWrite off bs).boot = s.boot := rfl
@[simp] theorem vaultWrite_running (off : Nat) (bs : Bytes) : (s.vaultWrite off bs).running = s.running := rfl
@[simp] theorem vaultWrite_events (off : Nat) (bs : Bytes) : (s.vaultWrite off bs).events = s.events := rfl
@[simp] theorem vaultWrite_polled (off : Nat) (bs : Bytes) : (s.vaultWrite off bs).polled = s.polled := rfl
@[simp] theorem vaultWrite_sram (off : Nat) (bs : Bytes) : (s.vaultWrite off bs).sram = s.sram := rfl
@[simp] theorem vaultWrite_sramFill (off : Nat) (bs : Bytes) : (s.vaultWrite off bs).sramFill = s.sramFill := rfl
@[simp] theorem vaultWrite_den (off : Nat) (bs : Bytes) : (s.vaultWrite off bs).den = s.den := rfl
@[simp] theorem vaultWrite_denFill (off : Nat) (bs : Bytes) : (s.vaultWrite off bs).denFill = s.denFill := rfl
@[simp] theorem vaultWrite_keys (off : Nat) (bs : Bytes) : (s.vaultWrite off bs).keys = s.keys := rfl
@[simp] theorem vaultWrite_sessions (off : Nat) (bs : Bytes) : (s.vaultWrite off bs).sessions = s.sessions := rfl
@[simp] theorem vaultWrite_crossTable (off : Nat) (bs : Bytes) : (s.vaultWrite off bs).crossTable = s.crossTable := rfl
@[simp] theorem vaultWrite_portA (off : Nat) (bs : Bytes) : (s.vaultWrite off bs).portA = s.portA := rfl
@[simp] theorem vaultWrite_portB (off : Nat) (bs : Bytes) : (s.vaultWrite off bs).portB = s.portB := rfl
@[simp] theorem vaultWrite_tenants (off : Nat) (bs : Bytes) : (s.vaultWrite off bs).tenants = s.tenants := rfl
@[simp] theorem vaultWrite_stagingPlace (off : Nat) (bs : Bytes) : (s.vaultWrite off bs).stagingPlace = s.stagingPlace := rfl
@[simp] theorem vaultWrite_lanes (off : Nat) (bs : Bytes) : (s.vaultWrite off bs).lanes = s.lanes := rfl
@[simp] theorem vaultWrite_commit (off : Nat) (bs : Bytes) : (s.vaultWrite off bs).commit = s.commit := rfl
@[simp] theorem vaultWrite_lastLane (off : Nat) (bs : Bytes) : (s.vaultWrite off bs).lastLane = s.lastLane := rfl
@[simp] theorem vaultWrite_commitWaits (off : Nat) (bs : Bytes) : (s.vaultWrite off bs).commitWaits = s.commitWaits := rfl
@[simp] theorem vaultWrite_flash (off : Nat) (bs : Bytes) : (s.vaultWrite off bs).flash = s.flash := rfl
@[simp] theorem vaultWrite_audit (off : Nat) (bs : Bytes) : (s.vaultWrite off bs).audit = s.audit := rfl
@[simp] theorem vaultWrite_statements (off : Nat) (bs : Bytes) : (s.vaultWrite off bs).statements = s.statements := rfl
@[simp] theorem vaultWrite_badger (off : Nat) (bs : Bytes) : (s.vaultWrite off bs).badger = s.badger := rfl
@[simp] theorem vaultWrite_mailbox (off : Nat) (bs : Bytes) : (s.vaultWrite off bs).mailbox = s.mailbox := rfl
@[simp] theorem vaultWrite_link (off : Nat) (bs : Bytes) : (s.vaultWrite off bs).link = s.link := rfl
@[simp] theorem vaultWrite_update (off : Nat) (bs : Bytes) : (s.vaultWrite off bs).update = s.update := rfl
@[simp] theorem vaultWrite_debug (off : Nat) (bs : Bytes) : (s.vaultWrite off bs).probe = s.probe := rfl
@[simp] theorem vaultWrite_drbg (off : Nat) (bs : Bytes) : (s.vaultWrite off bs).drbg = s.drbg := rfl
@[simp] theorem vaultWrite_freeDrawn (off : Nat) (bs : Bytes) : (s.vaultWrite off bs).freeDrawn = s.freeDrawn := rfl

@[simp] theorem vaultErase_pending (off n : Nat) : (s.vaultErase off n).pending = s.pending := rfl
@[simp] theorem vaultErase_clock (off n : Nat) : (s.vaultErase off n).clock = s.clock := rfl
@[simp] theorem vaultErase_power (off n : Nat) : (s.vaultErase off n).power = s.power := rfl
@[simp] theorem vaultErase_sleep (off n : Nat) : (s.vaultErase off n).sleep = s.sleep := rfl
@[simp] theorem vaultErase_pads (off n : Nat) : (s.vaultErase off n).pads = s.pads := rfl
@[simp] theorem vaultErase_straps (off n : Nat) : (s.vaultErase off n).straps = s.straps := rfl
@[simp] theorem vaultErase_otp (off n : Nat) : (s.vaultErase off n).otp = s.otp := rfl
@[simp] theorem vaultErase_boot (off n : Nat) : (s.vaultErase off n).boot = s.boot := rfl
@[simp] theorem vaultErase_running (off n : Nat) : (s.vaultErase off n).running = s.running := rfl
@[simp] theorem vaultErase_events (off n : Nat) : (s.vaultErase off n).events = s.events := rfl
@[simp] theorem vaultErase_polled (off n : Nat) : (s.vaultErase off n).polled = s.polled := rfl
@[simp] theorem vaultErase_sram (off n : Nat) : (s.vaultErase off n).sram = s.sram := rfl
@[simp] theorem vaultErase_sramFill (off n : Nat) : (s.vaultErase off n).sramFill = s.sramFill := rfl
@[simp] theorem vaultErase_den (off n : Nat) : (s.vaultErase off n).den = s.den := rfl
@[simp] theorem vaultErase_denFill (off n : Nat) : (s.vaultErase off n).denFill = s.denFill := rfl
@[simp] theorem vaultErase_keys (off n : Nat) : (s.vaultErase off n).keys = s.keys := rfl
@[simp] theorem vaultErase_sessions (off n : Nat) : (s.vaultErase off n).sessions = s.sessions := rfl
@[simp] theorem vaultErase_crossTable (off n : Nat) : (s.vaultErase off n).crossTable = s.crossTable := rfl
@[simp] theorem vaultErase_portA (off n : Nat) : (s.vaultErase off n).portA = s.portA := rfl
@[simp] theorem vaultErase_portB (off n : Nat) : (s.vaultErase off n).portB = s.portB := rfl
@[simp] theorem vaultErase_tenants (off n : Nat) : (s.vaultErase off n).tenants = s.tenants := rfl
@[simp] theorem vaultErase_stagingPlace (off n : Nat) : (s.vaultErase off n).stagingPlace = s.stagingPlace := rfl
@[simp] theorem vaultErase_lanes (off n : Nat) : (s.vaultErase off n).lanes = s.lanes := rfl
@[simp] theorem vaultErase_commit (off n : Nat) : (s.vaultErase off n).commit = s.commit := rfl
@[simp] theorem vaultErase_lastLane (off n : Nat) : (s.vaultErase off n).lastLane = s.lastLane := rfl
@[simp] theorem vaultErase_commitWaits (off n : Nat) : (s.vaultErase off n).commitWaits = s.commitWaits := rfl
@[simp] theorem vaultErase_flash (off n : Nat) : (s.vaultErase off n).flash = s.flash := rfl
@[simp] theorem vaultErase_audit (off n : Nat) : (s.vaultErase off n).audit = s.audit := rfl
@[simp] theorem vaultErase_statements (off n : Nat) : (s.vaultErase off n).statements = s.statements := rfl
@[simp] theorem vaultErase_badger (off n : Nat) : (s.vaultErase off n).badger = s.badger := rfl
@[simp] theorem vaultErase_mailbox (off n : Nat) : (s.vaultErase off n).mailbox = s.mailbox := rfl
@[simp] theorem vaultErase_link (off n : Nat) : (s.vaultErase off n).link = s.link := rfl
@[simp] theorem vaultErase_update (off n : Nat) : (s.vaultErase off n).update = s.update := rfl
@[simp] theorem vaultErase_debug (off n : Nat) : (s.vaultErase off n).probe = s.probe := rfl
@[simp] theorem vaultErase_drbg (off n : Nat) : (s.vaultErase off n).drbg = s.drbg := rfl
@[simp] theorem vaultErase_freeDrawn (off n : Nat) : (s.vaultErase off n).freeDrawn = s.freeDrawn := rfl

@[simp] theorem sramWrite_pending (off : Nat) (bs : Bytes) : (s.sramWrite off bs).pending = s.pending := rfl
@[simp] theorem sramWrite_clock (off : Nat) (bs : Bytes) : (s.sramWrite off bs).clock = s.clock := rfl
@[simp] theorem sramWrite_power (off : Nat) (bs : Bytes) : (s.sramWrite off bs).power = s.power := rfl
@[simp] theorem sramWrite_sleep (off : Nat) (bs : Bytes) : (s.sramWrite off bs).sleep = s.sleep := rfl
@[simp] theorem sramWrite_pads (off : Nat) (bs : Bytes) : (s.sramWrite off bs).pads = s.pads := rfl
@[simp] theorem sramWrite_straps (off : Nat) (bs : Bytes) : (s.sramWrite off bs).straps = s.straps := rfl
@[simp] theorem sramWrite_otp (off : Nat) (bs : Bytes) : (s.sramWrite off bs).otp = s.otp := rfl
@[simp] theorem sramWrite_boot (off : Nat) (bs : Bytes) : (s.sramWrite off bs).boot = s.boot := rfl
@[simp] theorem sramWrite_running (off : Nat) (bs : Bytes) : (s.sramWrite off bs).running = s.running := rfl
@[simp] theorem sramWrite_events (off : Nat) (bs : Bytes) : (s.sramWrite off bs).events = s.events := rfl
@[simp] theorem sramWrite_polled (off : Nat) (bs : Bytes) : (s.sramWrite off bs).polled = s.polled := rfl
@[simp] theorem sramWrite_vault (off : Nat) (bs : Bytes) : (s.sramWrite off bs).vault = s.vault := rfl
@[simp] theorem sramWrite_vaultBad (off : Nat) (bs : Bytes) : (s.sramWrite off bs).vaultBad = s.vaultBad := rfl
@[simp] theorem sramWrite_sramFill (off : Nat) (bs : Bytes) : (s.sramWrite off bs).sramFill = s.sramFill := rfl
@[simp] theorem sramWrite_den (off : Nat) (bs : Bytes) : (s.sramWrite off bs).den = s.den := rfl
@[simp] theorem sramWrite_denFill (off : Nat) (bs : Bytes) : (s.sramWrite off bs).denFill = s.denFill := rfl
@[simp] theorem sramWrite_keys (off : Nat) (bs : Bytes) : (s.sramWrite off bs).keys = s.keys := rfl
@[simp] theorem sramWrite_sessions (off : Nat) (bs : Bytes) : (s.sramWrite off bs).sessions = s.sessions := rfl
@[simp] theorem sramWrite_crossTable (off : Nat) (bs : Bytes) : (s.sramWrite off bs).crossTable = s.crossTable := rfl
@[simp] theorem sramWrite_portA (off : Nat) (bs : Bytes) : (s.sramWrite off bs).portA = s.portA := rfl
@[simp] theorem sramWrite_portB (off : Nat) (bs : Bytes) : (s.sramWrite off bs).portB = s.portB := rfl
@[simp] theorem sramWrite_tenants (off : Nat) (bs : Bytes) : (s.sramWrite off bs).tenants = s.tenants := rfl
@[simp] theorem sramWrite_stagingPlace (off : Nat) (bs : Bytes) : (s.sramWrite off bs).stagingPlace = s.stagingPlace := rfl
@[simp] theorem sramWrite_lanes (off : Nat) (bs : Bytes) : (s.sramWrite off bs).lanes = s.lanes := rfl
@[simp] theorem sramWrite_commit (off : Nat) (bs : Bytes) : (s.sramWrite off bs).commit = s.commit := rfl
@[simp] theorem sramWrite_lastLane (off : Nat) (bs : Bytes) : (s.sramWrite off bs).lastLane = s.lastLane := rfl
@[simp] theorem sramWrite_commitWaits (off : Nat) (bs : Bytes) : (s.sramWrite off bs).commitWaits = s.commitWaits := rfl
@[simp] theorem sramWrite_flash (off : Nat) (bs : Bytes) : (s.sramWrite off bs).flash = s.flash := rfl
@[simp] theorem sramWrite_audit (off : Nat) (bs : Bytes) : (s.sramWrite off bs).audit = s.audit := rfl
@[simp] theorem sramWrite_statements (off : Nat) (bs : Bytes) : (s.sramWrite off bs).statements = s.statements := rfl
@[simp] theorem sramWrite_badger (off : Nat) (bs : Bytes) : (s.sramWrite off bs).badger = s.badger := rfl
@[simp] theorem sramWrite_mailbox (off : Nat) (bs : Bytes) : (s.sramWrite off bs).mailbox = s.mailbox := rfl
@[simp] theorem sramWrite_link (off : Nat) (bs : Bytes) : (s.sramWrite off bs).link = s.link := rfl
@[simp] theorem sramWrite_update (off : Nat) (bs : Bytes) : (s.sramWrite off bs).update = s.update := rfl
@[simp] theorem sramWrite_debug (off : Nat) (bs : Bytes) : (s.sramWrite off bs).probe = s.probe := rfl
@[simp] theorem sramWrite_drbg (off : Nat) (bs : Bytes) : (s.sramWrite off bs).drbg = s.drbg := rfl
@[simp] theorem sramWrite_freeDrawn (off : Nat) (bs : Bytes) : (s.sramWrite off bs).freeDrawn = s.freeDrawn := rfl

@[simp] theorem denWrite_pending (off : Nat) (bs : Bytes) : (s.denWrite off bs).pending = s.pending := rfl
@[simp] theorem denWrite_clock (off : Nat) (bs : Bytes) : (s.denWrite off bs).clock = s.clock := rfl
@[simp] theorem denWrite_power (off : Nat) (bs : Bytes) : (s.denWrite off bs).power = s.power := rfl
@[simp] theorem denWrite_sleep (off : Nat) (bs : Bytes) : (s.denWrite off bs).sleep = s.sleep := rfl
@[simp] theorem denWrite_pads (off : Nat) (bs : Bytes) : (s.denWrite off bs).pads = s.pads := rfl
@[simp] theorem denWrite_straps (off : Nat) (bs : Bytes) : (s.denWrite off bs).straps = s.straps := rfl
@[simp] theorem denWrite_otp (off : Nat) (bs : Bytes) : (s.denWrite off bs).otp = s.otp := rfl
@[simp] theorem denWrite_boot (off : Nat) (bs : Bytes) : (s.denWrite off bs).boot = s.boot := rfl
@[simp] theorem denWrite_running (off : Nat) (bs : Bytes) : (s.denWrite off bs).running = s.running := rfl
@[simp] theorem denWrite_events (off : Nat) (bs : Bytes) : (s.denWrite off bs).events = s.events := rfl
@[simp] theorem denWrite_polled (off : Nat) (bs : Bytes) : (s.denWrite off bs).polled = s.polled := rfl
@[simp] theorem denWrite_vault (off : Nat) (bs : Bytes) : (s.denWrite off bs).vault = s.vault := rfl
@[simp] theorem denWrite_vaultBad (off : Nat) (bs : Bytes) : (s.denWrite off bs).vaultBad = s.vaultBad := rfl
@[simp] theorem denWrite_sram (off : Nat) (bs : Bytes) : (s.denWrite off bs).sram = s.sram := rfl
@[simp] theorem denWrite_sramFill (off : Nat) (bs : Bytes) : (s.denWrite off bs).sramFill = s.sramFill := rfl
@[simp] theorem denWrite_denFill (off : Nat) (bs : Bytes) : (s.denWrite off bs).denFill = s.denFill := rfl
@[simp] theorem denWrite_keys (off : Nat) (bs : Bytes) : (s.denWrite off bs).keys = s.keys := rfl
@[simp] theorem denWrite_sessions (off : Nat) (bs : Bytes) : (s.denWrite off bs).sessions = s.sessions := rfl
@[simp] theorem denWrite_crossTable (off : Nat) (bs : Bytes) : (s.denWrite off bs).crossTable = s.crossTable := rfl
@[simp] theorem denWrite_portA (off : Nat) (bs : Bytes) : (s.denWrite off bs).portA = s.portA := rfl
@[simp] theorem denWrite_portB (off : Nat) (bs : Bytes) : (s.denWrite off bs).portB = s.portB := rfl
@[simp] theorem denWrite_tenants (off : Nat) (bs : Bytes) : (s.denWrite off bs).tenants = s.tenants := rfl
@[simp] theorem denWrite_stagingPlace (off : Nat) (bs : Bytes) : (s.denWrite off bs).stagingPlace = s.stagingPlace := rfl
@[simp] theorem denWrite_lanes (off : Nat) (bs : Bytes) : (s.denWrite off bs).lanes = s.lanes := rfl
@[simp] theorem denWrite_commit (off : Nat) (bs : Bytes) : (s.denWrite off bs).commit = s.commit := rfl
@[simp] theorem denWrite_lastLane (off : Nat) (bs : Bytes) : (s.denWrite off bs).lastLane = s.lastLane := rfl
@[simp] theorem denWrite_commitWaits (off : Nat) (bs : Bytes) : (s.denWrite off bs).commitWaits = s.commitWaits := rfl
@[simp] theorem denWrite_flash (off : Nat) (bs : Bytes) : (s.denWrite off bs).flash = s.flash := rfl
@[simp] theorem denWrite_audit (off : Nat) (bs : Bytes) : (s.denWrite off bs).audit = s.audit := rfl
@[simp] theorem denWrite_statements (off : Nat) (bs : Bytes) : (s.denWrite off bs).statements = s.statements := rfl
@[simp] theorem denWrite_badger (off : Nat) (bs : Bytes) : (s.denWrite off bs).badger = s.badger := rfl
@[simp] theorem denWrite_mailbox (off : Nat) (bs : Bytes) : (s.denWrite off bs).mailbox = s.mailbox := rfl
@[simp] theorem denWrite_link (off : Nat) (bs : Bytes) : (s.denWrite off bs).link = s.link := rfl
@[simp] theorem denWrite_update (off : Nat) (bs : Bytes) : (s.denWrite off bs).update = s.update := rfl
@[simp] theorem denWrite_debug (off : Nat) (bs : Bytes) : (s.denWrite off bs).probe = s.probe := rfl
@[simp] theorem denWrite_drbg (off : Nat) (bs : Bytes) : (s.denWrite off bs).drbg = s.drbg := rfl
@[simp] theorem denWrite_freeDrawn (off : Nat) (bs : Bytes) : (s.denWrite off bs).freeDrawn = s.freeDrawn := rfl

@[simp] theorem dropKey_pending (k : KeyId) : (s.dropKey k).pending = s.pending := rfl
@[simp] theorem dropKey_clock (k : KeyId) : (s.dropKey k).clock = s.clock := rfl
@[simp] theorem dropKey_power (k : KeyId) : (s.dropKey k).power = s.power := rfl
@[simp] theorem dropKey_sleep (k : KeyId) : (s.dropKey k).sleep = s.sleep := rfl
@[simp] theorem dropKey_pads (k : KeyId) : (s.dropKey k).pads = s.pads := rfl
@[simp] theorem dropKey_straps (k : KeyId) : (s.dropKey k).straps = s.straps := rfl
@[simp] theorem dropKey_otp (k : KeyId) : (s.dropKey k).otp = s.otp := rfl
@[simp] theorem dropKey_boot (k : KeyId) : (s.dropKey k).boot = s.boot := rfl
@[simp] theorem dropKey_running (k : KeyId) : (s.dropKey k).running = s.running := rfl
@[simp] theorem dropKey_events (k : KeyId) : (s.dropKey k).events = s.events := rfl
@[simp] theorem dropKey_polled (k : KeyId) : (s.dropKey k).polled = s.polled := rfl
@[simp] theorem dropKey_vault (k : KeyId) : (s.dropKey k).vault = s.vault := rfl
@[simp] theorem dropKey_vaultBad (k : KeyId) : (s.dropKey k).vaultBad = s.vaultBad := rfl
@[simp] theorem dropKey_sram (k : KeyId) : (s.dropKey k).sram = s.sram := rfl
@[simp] theorem dropKey_sramFill (k : KeyId) : (s.dropKey k).sramFill = s.sramFill := rfl
@[simp] theorem dropKey_den (k : KeyId) : (s.dropKey k).den = s.den := rfl
@[simp] theorem dropKey_denFill (k : KeyId) : (s.dropKey k).denFill = s.denFill := rfl
@[simp] theorem dropKey_sessions (k : KeyId) : (s.dropKey k).sessions = s.sessions := rfl
@[simp] theorem dropKey_crossTable (k : KeyId) : (s.dropKey k).crossTable = s.crossTable := rfl
@[simp] theorem dropKey_portA (k : KeyId) : (s.dropKey k).portA = s.portA := rfl
@[simp] theorem dropKey_portB (k : KeyId) : (s.dropKey k).portB = s.portB := rfl
@[simp] theorem dropKey_tenants (k : KeyId) : (s.dropKey k).tenants = s.tenants := rfl
@[simp] theorem dropKey_stagingPlace (k : KeyId) : (s.dropKey k).stagingPlace = s.stagingPlace := rfl
@[simp] theorem dropKey_lanes (k : KeyId) : (s.dropKey k).lanes = s.lanes := rfl
@[simp] theorem dropKey_commit (k : KeyId) : (s.dropKey k).commit = s.commit := rfl
@[simp] theorem dropKey_lastLane (k : KeyId) : (s.dropKey k).lastLane = s.lastLane := rfl
@[simp] theorem dropKey_commitWaits (k : KeyId) : (s.dropKey k).commitWaits = s.commitWaits := rfl
@[simp] theorem dropKey_flash (k : KeyId) : (s.dropKey k).flash = s.flash := rfl
@[simp] theorem dropKey_audit (k : KeyId) : (s.dropKey k).audit = s.audit := rfl
@[simp] theorem dropKey_statements (k : KeyId) : (s.dropKey k).statements = s.statements := rfl
@[simp] theorem dropKey_badger (k : KeyId) : (s.dropKey k).badger = s.badger := rfl
@[simp] theorem dropKey_mailbox (k : KeyId) : (s.dropKey k).mailbox = s.mailbox := rfl
@[simp] theorem dropKey_link (k : KeyId) : (s.dropKey k).link = s.link := rfl
@[simp] theorem dropKey_update (k : KeyId) : (s.dropKey k).update = s.update := rfl
@[simp] theorem dropKey_debug (k : KeyId) : (s.dropKey k).probe = s.probe := rfl
@[simp] theorem dropKey_drbg (k : KeyId) : (s.dropKey k).drbg = s.drbg := rfl
@[simp] theorem dropKey_freeDrawn (k : KeyId) : (s.dropKey k).freeDrawn = s.freeDrawn := rfl

@[simp] theorem putKey_pending (k : KeyId) (v : Bytes) : (s.putKey k v).pending = s.pending := rfl
@[simp] theorem putKey_clock (k : KeyId) (v : Bytes) : (s.putKey k v).clock = s.clock := rfl
@[simp] theorem putKey_power (k : KeyId) (v : Bytes) : (s.putKey k v).power = s.power := rfl
@[simp] theorem putKey_sleep (k : KeyId) (v : Bytes) : (s.putKey k v).sleep = s.sleep := rfl
@[simp] theorem putKey_pads (k : KeyId) (v : Bytes) : (s.putKey k v).pads = s.pads := rfl
@[simp] theorem putKey_straps (k : KeyId) (v : Bytes) : (s.putKey k v).straps = s.straps := rfl
@[simp] theorem putKey_otp (k : KeyId) (v : Bytes) : (s.putKey k v).otp = s.otp := rfl
@[simp] theorem putKey_boot (k : KeyId) (v : Bytes) : (s.putKey k v).boot = s.boot := rfl
@[simp] theorem putKey_running (k : KeyId) (v : Bytes) : (s.putKey k v).running = s.running := rfl
@[simp] theorem putKey_events (k : KeyId) (v : Bytes) : (s.putKey k v).events = s.events := rfl
@[simp] theorem putKey_polled (k : KeyId) (v : Bytes) : (s.putKey k v).polled = s.polled := rfl
@[simp] theorem putKey_vault (k : KeyId) (v : Bytes) : (s.putKey k v).vault = s.vault := rfl
@[simp] theorem putKey_vaultBad (k : KeyId) (v : Bytes) : (s.putKey k v).vaultBad = s.vaultBad := rfl
@[simp] theorem putKey_sram (k : KeyId) (v : Bytes) : (s.putKey k v).sram = s.sram := rfl
@[simp] theorem putKey_sramFill (k : KeyId) (v : Bytes) : (s.putKey k v).sramFill = s.sramFill := rfl
@[simp] theorem putKey_den (k : KeyId) (v : Bytes) : (s.putKey k v).den = s.den := rfl
@[simp] theorem putKey_denFill (k : KeyId) (v : Bytes) : (s.putKey k v).denFill = s.denFill := rfl
@[simp] theorem putKey_sessions (k : KeyId) (v : Bytes) : (s.putKey k v).sessions = s.sessions := rfl
@[simp] theorem putKey_crossTable (k : KeyId) (v : Bytes) : (s.putKey k v).crossTable = s.crossTable := rfl
@[simp] theorem putKey_portA (k : KeyId) (v : Bytes) : (s.putKey k v).portA = s.portA := rfl
@[simp] theorem putKey_portB (k : KeyId) (v : Bytes) : (s.putKey k v).portB = s.portB := rfl
@[simp] theorem putKey_tenants (k : KeyId) (v : Bytes) : (s.putKey k v).tenants = s.tenants := rfl
@[simp] theorem putKey_stagingPlace (k : KeyId) (v : Bytes) : (s.putKey k v).stagingPlace = s.stagingPlace := rfl
@[simp] theorem putKey_lanes (k : KeyId) (v : Bytes) : (s.putKey k v).lanes = s.lanes := rfl
@[simp] theorem putKey_commit (k : KeyId) (v : Bytes) : (s.putKey k v).commit = s.commit := rfl
@[simp] theorem putKey_lastLane (k : KeyId) (v : Bytes) : (s.putKey k v).lastLane = s.lastLane := rfl
@[simp] theorem putKey_commitWaits (k : KeyId) (v : Bytes) : (s.putKey k v).commitWaits = s.commitWaits := rfl
@[simp] theorem putKey_flash (k : KeyId) (v : Bytes) : (s.putKey k v).flash = s.flash := rfl
@[simp] theorem putKey_audit (k : KeyId) (v : Bytes) : (s.putKey k v).audit = s.audit := rfl
@[simp] theorem putKey_statements (k : KeyId) (v : Bytes) : (s.putKey k v).statements = s.statements := rfl
@[simp] theorem putKey_badger (k : KeyId) (v : Bytes) : (s.putKey k v).badger = s.badger := rfl
@[simp] theorem putKey_mailbox (k : KeyId) (v : Bytes) : (s.putKey k v).mailbox = s.mailbox := rfl
@[simp] theorem putKey_link (k : KeyId) (v : Bytes) : (s.putKey k v).link = s.link := rfl
@[simp] theorem putKey_update (k : KeyId) (v : Bytes) : (s.putKey k v).update = s.update := rfl
@[simp] theorem putKey_debug (k : KeyId) (v : Bytes) : (s.putKey k v).probe = s.probe := rfl
@[simp] theorem putKey_drbg (k : KeyId) (v : Bytes) : (s.putKey k v).drbg = s.drbg := rfl
@[simp] theorem putKey_freeDrawn (k : KeyId) (v : Bytes) : (s.putKey k v).freeDrawn = s.freeDrawn := rfl

@[simp] theorem zeroiseKeys_pending : s.zeroiseKeys.pending = s.pending := rfl
@[simp] theorem zeroiseKeys_clock : s.zeroiseKeys.clock = s.clock := rfl
@[simp] theorem zeroiseKeys_power : s.zeroiseKeys.power = s.power := rfl
@[simp] theorem zeroiseKeys_sleep : s.zeroiseKeys.sleep = s.sleep := rfl
@[simp] theorem zeroiseKeys_pads : s.zeroiseKeys.pads = s.pads := rfl
@[simp] theorem zeroiseKeys_straps : s.zeroiseKeys.straps = s.straps := rfl
@[simp] theorem zeroiseKeys_otp : s.zeroiseKeys.otp = s.otp := rfl
@[simp] theorem zeroiseKeys_boot : s.zeroiseKeys.boot = s.boot := rfl
@[simp] theorem zeroiseKeys_running : s.zeroiseKeys.running = s.running := rfl
@[simp] theorem zeroiseKeys_events : s.zeroiseKeys.events = s.events := rfl
@[simp] theorem zeroiseKeys_polled : s.zeroiseKeys.polled = s.polled := rfl
@[simp] theorem zeroiseKeys_vault : s.zeroiseKeys.vault = s.vault := rfl
@[simp] theorem zeroiseKeys_vaultBad : s.zeroiseKeys.vaultBad = s.vaultBad := rfl
@[simp] theorem zeroiseKeys_sram : s.zeroiseKeys.sram = s.sram := rfl
@[simp] theorem zeroiseKeys_sramFill : s.zeroiseKeys.sramFill = s.sramFill := rfl
@[simp] theorem zeroiseKeys_den : s.zeroiseKeys.den = s.den := rfl
@[simp] theorem zeroiseKeys_denFill : s.zeroiseKeys.denFill = s.denFill := rfl
@[simp] theorem zeroiseKeys_sessions : s.zeroiseKeys.sessions = s.sessions := rfl
@[simp] theorem zeroiseKeys_crossTable : s.zeroiseKeys.crossTable = s.crossTable := rfl
@[simp] theorem zeroiseKeys_portA : s.zeroiseKeys.portA = s.portA := rfl
@[simp] theorem zeroiseKeys_portB : s.zeroiseKeys.portB = s.portB := rfl
@[simp] theorem zeroiseKeys_tenants : s.zeroiseKeys.tenants = s.tenants := rfl
@[simp] theorem zeroiseKeys_stagingPlace : s.zeroiseKeys.stagingPlace = s.stagingPlace := rfl
@[simp] theorem zeroiseKeys_lanes : s.zeroiseKeys.lanes = s.lanes := rfl
@[simp] theorem zeroiseKeys_commit : s.zeroiseKeys.commit = s.commit := rfl
@[simp] theorem zeroiseKeys_lastLane : s.zeroiseKeys.lastLane = s.lastLane := rfl
@[simp] theorem zeroiseKeys_commitWaits : s.zeroiseKeys.commitWaits = s.commitWaits := rfl
@[simp] theorem zeroiseKeys_flash : s.zeroiseKeys.flash = s.flash := rfl
@[simp] theorem zeroiseKeys_audit : s.zeroiseKeys.audit = s.audit := rfl
@[simp] theorem zeroiseKeys_statements : s.zeroiseKeys.statements = s.statements := rfl
@[simp] theorem zeroiseKeys_badger : s.zeroiseKeys.badger = s.badger := rfl
@[simp] theorem zeroiseKeys_mailbox : s.zeroiseKeys.mailbox = s.mailbox := rfl
@[simp] theorem zeroiseKeys_link : s.zeroiseKeys.link = s.link := rfl
@[simp] theorem zeroiseKeys_update : s.zeroiseKeys.update = s.update := rfl
@[simp] theorem zeroiseKeys_debug : s.zeroiseKeys.probe = s.probe := rfl
@[simp] theorem zeroiseKeys_drbg : s.zeroiseKeys.drbg = s.drbg := rfl
@[simp] theorem zeroiseKeys_freeDrawn : s.zeroiseKeys.freeDrawn = s.freeDrawn := rfl

@[simp] theorem setTenant_pending (t : TSlot) (x : Tenant) : (s.setTenant t x).pending = s.pending := rfl
@[simp] theorem setTenant_clock (t : TSlot) (x : Tenant) : (s.setTenant t x).clock = s.clock := rfl
@[simp] theorem setTenant_power (t : TSlot) (x : Tenant) : (s.setTenant t x).power = s.power := rfl
@[simp] theorem setTenant_sleep (t : TSlot) (x : Tenant) : (s.setTenant t x).sleep = s.sleep := rfl
@[simp] theorem setTenant_pads (t : TSlot) (x : Tenant) : (s.setTenant t x).pads = s.pads := rfl
@[simp] theorem setTenant_straps (t : TSlot) (x : Tenant) : (s.setTenant t x).straps = s.straps := rfl
@[simp] theorem setTenant_otp (t : TSlot) (x : Tenant) : (s.setTenant t x).otp = s.otp := rfl
@[simp] theorem setTenant_boot (t : TSlot) (x : Tenant) : (s.setTenant t x).boot = s.boot := rfl
@[simp] theorem setTenant_running (t : TSlot) (x : Tenant) : (s.setTenant t x).running = s.running := rfl
@[simp] theorem setTenant_events (t : TSlot) (x : Tenant) : (s.setTenant t x).events = s.events := rfl
@[simp] theorem setTenant_polled (t : TSlot) (x : Tenant) : (s.setTenant t x).polled = s.polled := rfl
@[simp] theorem setTenant_vault (t : TSlot) (x : Tenant) : (s.setTenant t x).vault = s.vault := rfl
@[simp] theorem setTenant_vaultBad (t : TSlot) (x : Tenant) : (s.setTenant t x).vaultBad = s.vaultBad := rfl
@[simp] theorem setTenant_sram (t : TSlot) (x : Tenant) : (s.setTenant t x).sram = s.sram := rfl
@[simp] theorem setTenant_sramFill (t : TSlot) (x : Tenant) : (s.setTenant t x).sramFill = s.sramFill := rfl
@[simp] theorem setTenant_den (t : TSlot) (x : Tenant) : (s.setTenant t x).den = s.den := rfl
@[simp] theorem setTenant_denFill (t : TSlot) (x : Tenant) : (s.setTenant t x).denFill = s.denFill := rfl
@[simp] theorem setTenant_keys (t : TSlot) (x : Tenant) : (s.setTenant t x).keys = s.keys := rfl
@[simp] theorem setTenant_sessions (t : TSlot) (x : Tenant) : (s.setTenant t x).sessions = s.sessions := rfl
@[simp] theorem setTenant_crossTable (t : TSlot) (x : Tenant) : (s.setTenant t x).crossTable = s.crossTable := rfl
@[simp] theorem setTenant_portA (t : TSlot) (x : Tenant) : (s.setTenant t x).portA = s.portA := rfl
@[simp] theorem setTenant_portB (t : TSlot) (x : Tenant) : (s.setTenant t x).portB = s.portB := rfl
@[simp] theorem setTenant_stagingPlace (t : TSlot) (x : Tenant) : (s.setTenant t x).stagingPlace = s.stagingPlace := rfl
@[simp] theorem setTenant_lanes (t : TSlot) (x : Tenant) : (s.setTenant t x).lanes = s.lanes := rfl
@[simp] theorem setTenant_commit (t : TSlot) (x : Tenant) : (s.setTenant t x).commit = s.commit := rfl
@[simp] theorem setTenant_lastLane (t : TSlot) (x : Tenant) : (s.setTenant t x).lastLane = s.lastLane := rfl
@[simp] theorem setTenant_commitWaits (t : TSlot) (x : Tenant) : (s.setTenant t x).commitWaits = s.commitWaits := rfl
@[simp] theorem setTenant_flash (t : TSlot) (x : Tenant) : (s.setTenant t x).flash = s.flash := rfl
@[simp] theorem setTenant_audit (t : TSlot) (x : Tenant) : (s.setTenant t x).audit = s.audit := rfl
@[simp] theorem setTenant_statements (t : TSlot) (x : Tenant) : (s.setTenant t x).statements = s.statements := rfl
@[simp] theorem setTenant_badger (t : TSlot) (x : Tenant) : (s.setTenant t x).badger = s.badger := rfl
@[simp] theorem setTenant_mailbox (t : TSlot) (x : Tenant) : (s.setTenant t x).mailbox = s.mailbox := rfl
@[simp] theorem setTenant_link (t : TSlot) (x : Tenant) : (s.setTenant t x).link = s.link := rfl
@[simp] theorem setTenant_update (t : TSlot) (x : Tenant) : (s.setTenant t x).update = s.update := rfl
@[simp] theorem setTenant_debug (t : TSlot) (x : Tenant) : (s.setTenant t x).probe = s.probe := rfl
@[simp] theorem setTenant_drbg (t : TSlot) (x : Tenant) : (s.setTenant t x).drbg = s.drbg := rfl
@[simp] theorem setTenant_freeDrawn (t : TSlot) (x : Tenant) : (s.setTenant t x).freeDrawn = s.freeDrawn := rfl

@[simp] theorem modTenant_pending (t : TSlot) (f : Tenant → Tenant) : (s.modTenant t f).pending = s.pending := rfl
@[simp] theorem modTenant_clock (t : TSlot) (f : Tenant → Tenant) : (s.modTenant t f).clock = s.clock := rfl
@[simp] theorem modTenant_power (t : TSlot) (f : Tenant → Tenant) : (s.modTenant t f).power = s.power := rfl
@[simp] theorem modTenant_sleep (t : TSlot) (f : Tenant → Tenant) : (s.modTenant t f).sleep = s.sleep := rfl
@[simp] theorem modTenant_pads (t : TSlot) (f : Tenant → Tenant) : (s.modTenant t f).pads = s.pads := rfl
@[simp] theorem modTenant_straps (t : TSlot) (f : Tenant → Tenant) : (s.modTenant t f).straps = s.straps := rfl
@[simp] theorem modTenant_otp (t : TSlot) (f : Tenant → Tenant) : (s.modTenant t f).otp = s.otp := rfl
@[simp] theorem modTenant_boot (t : TSlot) (f : Tenant → Tenant) : (s.modTenant t f).boot = s.boot := rfl
@[simp] theorem modTenant_running (t : TSlot) (f : Tenant → Tenant) : (s.modTenant t f).running = s.running := rfl
@[simp] theorem modTenant_events (t : TSlot) (f : Tenant → Tenant) : (s.modTenant t f).events = s.events := rfl
@[simp] theorem modTenant_polled (t : TSlot) (f : Tenant → Tenant) : (s.modTenant t f).polled = s.polled := rfl
@[simp] theorem modTenant_vault (t : TSlot) (f : Tenant → Tenant) : (s.modTenant t f).vault = s.vault := rfl
@[simp] theorem modTenant_vaultBad (t : TSlot) (f : Tenant → Tenant) : (s.modTenant t f).vaultBad = s.vaultBad := rfl
@[simp] theorem modTenant_sram (t : TSlot) (f : Tenant → Tenant) : (s.modTenant t f).sram = s.sram := rfl
@[simp] theorem modTenant_sramFill (t : TSlot) (f : Tenant → Tenant) : (s.modTenant t f).sramFill = s.sramFill := rfl
@[simp] theorem modTenant_den (t : TSlot) (f : Tenant → Tenant) : (s.modTenant t f).den = s.den := rfl
@[simp] theorem modTenant_denFill (t : TSlot) (f : Tenant → Tenant) : (s.modTenant t f).denFill = s.denFill := rfl
@[simp] theorem modTenant_keys (t : TSlot) (f : Tenant → Tenant) : (s.modTenant t f).keys = s.keys := rfl
@[simp] theorem modTenant_sessions (t : TSlot) (f : Tenant → Tenant) : (s.modTenant t f).sessions = s.sessions := rfl
@[simp] theorem modTenant_crossTable (t : TSlot) (f : Tenant → Tenant) : (s.modTenant t f).crossTable = s.crossTable := rfl
@[simp] theorem modTenant_portA (t : TSlot) (f : Tenant → Tenant) : (s.modTenant t f).portA = s.portA := rfl
@[simp] theorem modTenant_portB (t : TSlot) (f : Tenant → Tenant) : (s.modTenant t f).portB = s.portB := rfl
@[simp] theorem modTenant_stagingPlace (t : TSlot) (f : Tenant → Tenant) : (s.modTenant t f).stagingPlace = s.stagingPlace := rfl
@[simp] theorem modTenant_lanes (t : TSlot) (f : Tenant → Tenant) : (s.modTenant t f).lanes = s.lanes := rfl
@[simp] theorem modTenant_commit (t : TSlot) (f : Tenant → Tenant) : (s.modTenant t f).commit = s.commit := rfl
@[simp] theorem modTenant_lastLane (t : TSlot) (f : Tenant → Tenant) : (s.modTenant t f).lastLane = s.lastLane := rfl
@[simp] theorem modTenant_commitWaits (t : TSlot) (f : Tenant → Tenant) : (s.modTenant t f).commitWaits = s.commitWaits := rfl
@[simp] theorem modTenant_flash (t : TSlot) (f : Tenant → Tenant) : (s.modTenant t f).flash = s.flash := rfl
@[simp] theorem modTenant_audit (t : TSlot) (f : Tenant → Tenant) : (s.modTenant t f).audit = s.audit := rfl
@[simp] theorem modTenant_statements (t : TSlot) (f : Tenant → Tenant) : (s.modTenant t f).statements = s.statements := rfl
@[simp] theorem modTenant_badger (t : TSlot) (f : Tenant → Tenant) : (s.modTenant t f).badger = s.badger := rfl
@[simp] theorem modTenant_mailbox (t : TSlot) (f : Tenant → Tenant) : (s.modTenant t f).mailbox = s.mailbox := rfl
@[simp] theorem modTenant_link (t : TSlot) (f : Tenant → Tenant) : (s.modTenant t f).link = s.link := rfl
@[simp] theorem modTenant_update (t : TSlot) (f : Tenant → Tenant) : (s.modTenant t f).update = s.update := rfl
@[simp] theorem modTenant_debug (t : TSlot) (f : Tenant → Tenant) : (s.modTenant t f).probe = s.probe := rfl
@[simp] theorem modTenant_drbg (t : TSlot) (f : Tenant → Tenant) : (s.modTenant t f).drbg = s.drbg := rfl
@[simp] theorem modTenant_freeDrawn (t : TSlot) (f : Tenant → Tenant) : (s.modTenant t f).freeDrawn = s.freeDrawn := rfl

@[simp] theorem setLane_pending (i : Fin 2) (j : Option LaneJob) : (s.setLane i j).pending = s.pending := rfl
@[simp] theorem setLane_clock (i : Fin 2) (j : Option LaneJob) : (s.setLane i j).clock = s.clock := rfl
@[simp] theorem setLane_power (i : Fin 2) (j : Option LaneJob) : (s.setLane i j).power = s.power := rfl
@[simp] theorem setLane_sleep (i : Fin 2) (j : Option LaneJob) : (s.setLane i j).sleep = s.sleep := rfl
@[simp] theorem setLane_pads (i : Fin 2) (j : Option LaneJob) : (s.setLane i j).pads = s.pads := rfl
@[simp] theorem setLane_straps (i : Fin 2) (j : Option LaneJob) : (s.setLane i j).straps = s.straps := rfl
@[simp] theorem setLane_otp (i : Fin 2) (j : Option LaneJob) : (s.setLane i j).otp = s.otp := rfl
@[simp] theorem setLane_boot (i : Fin 2) (j : Option LaneJob) : (s.setLane i j).boot = s.boot := rfl
@[simp] theorem setLane_running (i : Fin 2) (j : Option LaneJob) : (s.setLane i j).running = s.running := rfl
@[simp] theorem setLane_events (i : Fin 2) (j : Option LaneJob) : (s.setLane i j).events = s.events := rfl
@[simp] theorem setLane_polled (i : Fin 2) (j : Option LaneJob) : (s.setLane i j).polled = s.polled := rfl
@[simp] theorem setLane_vault (i : Fin 2) (j : Option LaneJob) : (s.setLane i j).vault = s.vault := rfl
@[simp] theorem setLane_vaultBad (i : Fin 2) (j : Option LaneJob) : (s.setLane i j).vaultBad = s.vaultBad := rfl
@[simp] theorem setLane_sram (i : Fin 2) (j : Option LaneJob) : (s.setLane i j).sram = s.sram := rfl
@[simp] theorem setLane_sramFill (i : Fin 2) (j : Option LaneJob) : (s.setLane i j).sramFill = s.sramFill := rfl
@[simp] theorem setLane_den (i : Fin 2) (j : Option LaneJob) : (s.setLane i j).den = s.den := rfl
@[simp] theorem setLane_denFill (i : Fin 2) (j : Option LaneJob) : (s.setLane i j).denFill = s.denFill := rfl
@[simp] theorem setLane_keys (i : Fin 2) (j : Option LaneJob) : (s.setLane i j).keys = s.keys := rfl
@[simp] theorem setLane_sessions (i : Fin 2) (j : Option LaneJob) : (s.setLane i j).sessions = s.sessions := rfl
@[simp] theorem setLane_crossTable (i : Fin 2) (j : Option LaneJob) : (s.setLane i j).crossTable = s.crossTable := rfl
@[simp] theorem setLane_portA (i : Fin 2) (j : Option LaneJob) : (s.setLane i j).portA = s.portA := rfl
@[simp] theorem setLane_portB (i : Fin 2) (j : Option LaneJob) : (s.setLane i j).portB = s.portB := rfl
@[simp] theorem setLane_tenants (i : Fin 2) (j : Option LaneJob) : (s.setLane i j).tenants = s.tenants := rfl
@[simp] theorem setLane_stagingPlace (i : Fin 2) (j : Option LaneJob) : (s.setLane i j).stagingPlace = s.stagingPlace := rfl
@[simp] theorem setLane_commit (i : Fin 2) (j : Option LaneJob) : (s.setLane i j).commit = s.commit := rfl
@[simp] theorem setLane_lastLane (i : Fin 2) (j : Option LaneJob) : (s.setLane i j).lastLane = s.lastLane := rfl
@[simp] theorem setLane_commitWaits (i : Fin 2) (j : Option LaneJob) : (s.setLane i j).commitWaits = s.commitWaits := rfl
@[simp] theorem setLane_flash (i : Fin 2) (j : Option LaneJob) : (s.setLane i j).flash = s.flash := rfl
@[simp] theorem setLane_audit (i : Fin 2) (j : Option LaneJob) : (s.setLane i j).audit = s.audit := rfl
@[simp] theorem setLane_statements (i : Fin 2) (j : Option LaneJob) : (s.setLane i j).statements = s.statements := rfl
@[simp] theorem setLane_badger (i : Fin 2) (j : Option LaneJob) : (s.setLane i j).badger = s.badger := rfl
@[simp] theorem setLane_mailbox (i : Fin 2) (j : Option LaneJob) : (s.setLane i j).mailbox = s.mailbox := rfl
@[simp] theorem setLane_link (i : Fin 2) (j : Option LaneJob) : (s.setLane i j).link = s.link := rfl
@[simp] theorem setLane_update (i : Fin 2) (j : Option LaneJob) : (s.setLane i j).update = s.update := rfl
@[simp] theorem setLane_debug (i : Fin 2) (j : Option LaneJob) : (s.setLane i j).probe = s.probe := rfl
@[simp] theorem setLane_drbg (i : Fin 2) (j : Option LaneJob) : (s.setLane i j).drbg = s.drbg := rfl
@[simp] theorem setLane_freeDrawn (i : Fin 2) (j : Option LaneJob) : (s.setLane i j).freeDrawn = s.freeDrawn := rfl

@[simp] theorem noteBit_pending (n : Nat) : (s.noteBit n).pending = s.pending := rfl
@[simp] theorem noteBit_clock (n : Nat) : (s.noteBit n).clock = s.clock := rfl
@[simp] theorem noteBit_power (n : Nat) : (s.noteBit n).power = s.power := rfl
@[simp] theorem noteBit_sleep (n : Nat) : (s.noteBit n).sleep = s.sleep := rfl
@[simp] theorem noteBit_pads (n : Nat) : (s.noteBit n).pads = s.pads := rfl
@[simp] theorem noteBit_straps (n : Nat) : (s.noteBit n).straps = s.straps := rfl
@[simp] theorem noteBit_otp (n : Nat) : (s.noteBit n).otp = s.otp := rfl
@[simp] theorem noteBit_running (n : Nat) : (s.noteBit n).running = s.running := rfl
@[simp] theorem noteBit_events (n : Nat) : (s.noteBit n).events = s.events := rfl
@[simp] theorem noteBit_polled (n : Nat) : (s.noteBit n).polled = s.polled := rfl
@[simp] theorem noteBit_vault (n : Nat) : (s.noteBit n).vault = s.vault := rfl
@[simp] theorem noteBit_vaultBad (n : Nat) : (s.noteBit n).vaultBad = s.vaultBad := rfl
@[simp] theorem noteBit_sram (n : Nat) : (s.noteBit n).sram = s.sram := rfl
@[simp] theorem noteBit_sramFill (n : Nat) : (s.noteBit n).sramFill = s.sramFill := rfl
@[simp] theorem noteBit_den (n : Nat) : (s.noteBit n).den = s.den := rfl
@[simp] theorem noteBit_denFill (n : Nat) : (s.noteBit n).denFill = s.denFill := rfl
@[simp] theorem noteBit_keys (n : Nat) : (s.noteBit n).keys = s.keys := rfl
@[simp] theorem noteBit_sessions (n : Nat) : (s.noteBit n).sessions = s.sessions := rfl
@[simp] theorem noteBit_crossTable (n : Nat) : (s.noteBit n).crossTable = s.crossTable := rfl
@[simp] theorem noteBit_portA (n : Nat) : (s.noteBit n).portA = s.portA := rfl
@[simp] theorem noteBit_portB (n : Nat) : (s.noteBit n).portB = s.portB := rfl
@[simp] theorem noteBit_tenants (n : Nat) : (s.noteBit n).tenants = s.tenants := rfl
@[simp] theorem noteBit_stagingPlace (n : Nat) : (s.noteBit n).stagingPlace = s.stagingPlace := rfl
@[simp] theorem noteBit_lanes (n : Nat) : (s.noteBit n).lanes = s.lanes := rfl
@[simp] theorem noteBit_commit (n : Nat) : (s.noteBit n).commit = s.commit := rfl
@[simp] theorem noteBit_lastLane (n : Nat) : (s.noteBit n).lastLane = s.lastLane := rfl
@[simp] theorem noteBit_commitWaits (n : Nat) : (s.noteBit n).commitWaits = s.commitWaits := rfl
@[simp] theorem noteBit_flash (n : Nat) : (s.noteBit n).flash = s.flash := rfl
@[simp] theorem noteBit_audit (n : Nat) : (s.noteBit n).audit = s.audit := rfl
@[simp] theorem noteBit_statements (n : Nat) : (s.noteBit n).statements = s.statements := rfl
@[simp] theorem noteBit_badger (n : Nat) : (s.noteBit n).badger = s.badger := rfl
@[simp] theorem noteBit_mailbox (n : Nat) : (s.noteBit n).mailbox = s.mailbox := rfl
@[simp] theorem noteBit_link (n : Nat) : (s.noteBit n).link = s.link := rfl
@[simp] theorem noteBit_update (n : Nat) : (s.noteBit n).update = s.update := rfl
@[simp] theorem noteBit_debug (n : Nat) : (s.noteBit n).probe = s.probe := rfl
@[simp] theorem noteBit_drbg (n : Nat) : (s.noteBit n).drbg = s.drbg := rfl
@[simp] theorem noteBit_freeDrawn (n : Nat) : (s.noteBit n).freeDrawn = s.freeDrawn := rfl

@[simp] theorem setCells_pending (c : Fin 2) (m : Cells) : (s.setCells c m).pending = s.pending := rfl
@[simp] theorem setCells_clock (c : Fin 2) (m : Cells) : (s.setCells c m).clock = s.clock := rfl
@[simp] theorem setCells_power (c : Fin 2) (m : Cells) : (s.setCells c m).power = s.power := rfl
@[simp] theorem setCells_sleep (c : Fin 2) (m : Cells) : (s.setCells c m).sleep = s.sleep := rfl
@[simp] theorem setCells_pads (c : Fin 2) (m : Cells) : (s.setCells c m).pads = s.pads := rfl
@[simp] theorem setCells_straps (c : Fin 2) (m : Cells) : (s.setCells c m).straps = s.straps := rfl
@[simp] theorem setCells_otp (c : Fin 2) (m : Cells) : (s.setCells c m).otp = s.otp := rfl
@[simp] theorem setCells_boot (c : Fin 2) (m : Cells) : (s.setCells c m).boot = s.boot := rfl
@[simp] theorem setCells_running (c : Fin 2) (m : Cells) : (s.setCells c m).running = s.running := rfl
@[simp] theorem setCells_events (c : Fin 2) (m : Cells) : (s.setCells c m).events = s.events := rfl
@[simp] theorem setCells_polled (c : Fin 2) (m : Cells) : (s.setCells c m).polled = s.polled := rfl
@[simp] theorem setCells_vault (c : Fin 2) (m : Cells) : (s.setCells c m).vault = s.vault := rfl
@[simp] theorem setCells_vaultBad (c : Fin 2) (m : Cells) : (s.setCells c m).vaultBad = s.vaultBad := rfl
@[simp] theorem setCells_sram (c : Fin 2) (m : Cells) : (s.setCells c m).sram = s.sram := rfl
@[simp] theorem setCells_sramFill (c : Fin 2) (m : Cells) : (s.setCells c m).sramFill = s.sramFill := rfl
@[simp] theorem setCells_den (c : Fin 2) (m : Cells) : (s.setCells c m).den = s.den := rfl
@[simp] theorem setCells_denFill (c : Fin 2) (m : Cells) : (s.setCells c m).denFill = s.denFill := rfl
@[simp] theorem setCells_keys (c : Fin 2) (m : Cells) : (s.setCells c m).keys = s.keys := rfl
@[simp] theorem setCells_sessions (c : Fin 2) (m : Cells) : (s.setCells c m).sessions = s.sessions := rfl
@[simp] theorem setCells_crossTable (c : Fin 2) (m : Cells) : (s.setCells c m).crossTable = s.crossTable := rfl
@[simp] theorem setCells_portA (c : Fin 2) (m : Cells) : (s.setCells c m).portA = s.portA := rfl
@[simp] theorem setCells_portB (c : Fin 2) (m : Cells) : (s.setCells c m).portB = s.portB := rfl
@[simp] theorem setCells_tenants (c : Fin 2) (m : Cells) : (s.setCells c m).tenants = s.tenants := rfl
@[simp] theorem setCells_stagingPlace (c : Fin 2) (m : Cells) : (s.setCells c m).stagingPlace = s.stagingPlace := rfl
@[simp] theorem setCells_lanes (c : Fin 2) (m : Cells) : (s.setCells c m).lanes = s.lanes := rfl
@[simp] theorem setCells_commit (c : Fin 2) (m : Cells) : (s.setCells c m).commit = s.commit := rfl
@[simp] theorem setCells_lastLane (c : Fin 2) (m : Cells) : (s.setCells c m).lastLane = s.lastLane := rfl
@[simp] theorem setCells_commitWaits (c : Fin 2) (m : Cells) : (s.setCells c m).commitWaits = s.commitWaits := rfl
@[simp] theorem setCells_audit (c : Fin 2) (m : Cells) : (s.setCells c m).audit = s.audit := rfl
@[simp] theorem setCells_statements (c : Fin 2) (m : Cells) : (s.setCells c m).statements = s.statements := rfl
@[simp] theorem setCells_badger (c : Fin 2) (m : Cells) : (s.setCells c m).badger = s.badger := rfl
@[simp] theorem setCells_mailbox (c : Fin 2) (m : Cells) : (s.setCells c m).mailbox = s.mailbox := rfl
@[simp] theorem setCells_link (c : Fin 2) (m : Cells) : (s.setCells c m).link = s.link := rfl
@[simp] theorem setCells_update (c : Fin 2) (m : Cells) : (s.setCells c m).update = s.update := rfl
@[simp] theorem setCells_debug (c : Fin 2) (m : Cells) : (s.setCells c m).probe = s.probe := rfl
@[simp] theorem setCells_drbg (c : Fin 2) (m : Cells) : (s.setCells c m).drbg = s.drbg := rfl
@[simp] theorem setCells_freeDrawn (c : Fin 2) (m : Cells) : (s.setCells c m).freeDrawn = s.freeDrawn := rfl

@[simp] theorem startTask_pending (o : OpOwner) (t : FlashTask) : (s.startTask o t).pending = s.pending := rfl
@[simp] theorem startTask_clock (o : OpOwner) (t : FlashTask) : (s.startTask o t).clock = s.clock := rfl
@[simp] theorem startTask_power (o : OpOwner) (t : FlashTask) : (s.startTask o t).power = s.power := rfl
@[simp] theorem startTask_sleep (o : OpOwner) (t : FlashTask) : (s.startTask o t).sleep = s.sleep := rfl
@[simp] theorem startTask_pads (o : OpOwner) (t : FlashTask) : (s.startTask o t).pads = s.pads := rfl
@[simp] theorem startTask_straps (o : OpOwner) (t : FlashTask) : (s.startTask o t).straps = s.straps := rfl
@[simp] theorem startTask_otp (o : OpOwner) (t : FlashTask) : (s.startTask o t).otp = s.otp := rfl
@[simp] theorem startTask_boot (o : OpOwner) (t : FlashTask) : (s.startTask o t).boot = s.boot := rfl
@[simp] theorem startTask_running (o : OpOwner) (t : FlashTask) : (s.startTask o t).running = s.running := rfl
@[simp] theorem startTask_events (o : OpOwner) (t : FlashTask) : (s.startTask o t).events = s.events := rfl
@[simp] theorem startTask_polled (o : OpOwner) (t : FlashTask) : (s.startTask o t).polled = s.polled := rfl
@[simp] theorem startTask_vault (o : OpOwner) (t : FlashTask) : (s.startTask o t).vault = s.vault := rfl
@[simp] theorem startTask_vaultBad (o : OpOwner) (t : FlashTask) : (s.startTask o t).vaultBad = s.vaultBad := rfl
@[simp] theorem startTask_sram (o : OpOwner) (t : FlashTask) : (s.startTask o t).sram = s.sram := rfl
@[simp] theorem startTask_sramFill (o : OpOwner) (t : FlashTask) : (s.startTask o t).sramFill = s.sramFill := rfl
@[simp] theorem startTask_den (o : OpOwner) (t : FlashTask) : (s.startTask o t).den = s.den := rfl
@[simp] theorem startTask_denFill (o : OpOwner) (t : FlashTask) : (s.startTask o t).denFill = s.denFill := rfl
@[simp] theorem startTask_keys (o : OpOwner) (t : FlashTask) : (s.startTask o t).keys = s.keys := rfl
@[simp] theorem startTask_sessions (o : OpOwner) (t : FlashTask) : (s.startTask o t).sessions = s.sessions := rfl
@[simp] theorem startTask_crossTable (o : OpOwner) (t : FlashTask) : (s.startTask o t).crossTable = s.crossTable := rfl
@[simp] theorem startTask_portA (o : OpOwner) (t : FlashTask) : (s.startTask o t).portA = s.portA := rfl
@[simp] theorem startTask_portB (o : OpOwner) (t : FlashTask) : (s.startTask o t).portB = s.portB := rfl
@[simp] theorem startTask_tenants (o : OpOwner) (t : FlashTask) : (s.startTask o t).tenants = s.tenants := rfl
@[simp] theorem startTask_stagingPlace (o : OpOwner) (t : FlashTask) : (s.startTask o t).stagingPlace = s.stagingPlace := rfl
@[simp] theorem startTask_lanes (o : OpOwner) (t : FlashTask) : (s.startTask o t).lanes = s.lanes := rfl
@[simp] theorem startTask_commit (o : OpOwner) (t : FlashTask) : (s.startTask o t).commit = s.commit := rfl
@[simp] theorem startTask_lastLane (o : OpOwner) (t : FlashTask) : (s.startTask o t).lastLane = s.lastLane := rfl
@[simp] theorem startTask_commitWaits (o : OpOwner) (t : FlashTask) : (s.startTask o t).commitWaits = s.commitWaits := rfl
@[simp] theorem startTask_audit (o : OpOwner) (t : FlashTask) : (s.startTask o t).audit = s.audit := rfl
@[simp] theorem startTask_statements (o : OpOwner) (t : FlashTask) : (s.startTask o t).statements = s.statements := rfl
@[simp] theorem startTask_badger (o : OpOwner) (t : FlashTask) : (s.startTask o t).badger = s.badger := rfl
@[simp] theorem startTask_mailbox (o : OpOwner) (t : FlashTask) : (s.startTask o t).mailbox = s.mailbox := rfl
@[simp] theorem startTask_link (o : OpOwner) (t : FlashTask) : (s.startTask o t).link = s.link := rfl
@[simp] theorem startTask_update (o : OpOwner) (t : FlashTask) : (s.startTask o t).update = s.update := rfl
@[simp] theorem startTask_debug (o : OpOwner) (t : FlashTask) : (s.startTask o t).probe = s.probe := rfl
@[simp] theorem startTask_drbg (o : OpOwner) (t : FlashTask) : (s.startTask o t).drbg = s.drbg := rfl
@[simp] theorem startTask_freeDrawn (o : OpOwner) (t : FlashTask) : (s.startTask o t).freeDrawn = s.freeDrawn := rfl

@[simp] theorem endOp_pending (c : Fin 2) : (s.endOp c).pending = s.pending := rfl
@[simp] theorem endOp_clock (c : Fin 2) : (s.endOp c).clock = s.clock := rfl
@[simp] theorem endOp_power (c : Fin 2) : (s.endOp c).power = s.power := rfl
@[simp] theorem endOp_sleep (c : Fin 2) : (s.endOp c).sleep = s.sleep := rfl
@[simp] theorem endOp_pads (c : Fin 2) : (s.endOp c).pads = s.pads := rfl
@[simp] theorem endOp_straps (c : Fin 2) : (s.endOp c).straps = s.straps := rfl
@[simp] theorem endOp_otp (c : Fin 2) : (s.endOp c).otp = s.otp := rfl
@[simp] theorem endOp_boot (c : Fin 2) : (s.endOp c).boot = s.boot := rfl
@[simp] theorem endOp_running (c : Fin 2) : (s.endOp c).running = s.running := rfl
@[simp] theorem endOp_events (c : Fin 2) : (s.endOp c).events = s.events := rfl
@[simp] theorem endOp_polled (c : Fin 2) : (s.endOp c).polled = s.polled := rfl
@[simp] theorem endOp_vault (c : Fin 2) : (s.endOp c).vault = s.vault := rfl
@[simp] theorem endOp_vaultBad (c : Fin 2) : (s.endOp c).vaultBad = s.vaultBad := rfl
@[simp] theorem endOp_sram (c : Fin 2) : (s.endOp c).sram = s.sram := rfl
@[simp] theorem endOp_sramFill (c : Fin 2) : (s.endOp c).sramFill = s.sramFill := rfl
@[simp] theorem endOp_den (c : Fin 2) : (s.endOp c).den = s.den := rfl
@[simp] theorem endOp_denFill (c : Fin 2) : (s.endOp c).denFill = s.denFill := rfl
@[simp] theorem endOp_keys (c : Fin 2) : (s.endOp c).keys = s.keys := rfl
@[simp] theorem endOp_sessions (c : Fin 2) : (s.endOp c).sessions = s.sessions := rfl
@[simp] theorem endOp_crossTable (c : Fin 2) : (s.endOp c).crossTable = s.crossTable := rfl
@[simp] theorem endOp_portA (c : Fin 2) : (s.endOp c).portA = s.portA := rfl
@[simp] theorem endOp_portB (c : Fin 2) : (s.endOp c).portB = s.portB := rfl
@[simp] theorem endOp_tenants (c : Fin 2) : (s.endOp c).tenants = s.tenants := rfl
@[simp] theorem endOp_stagingPlace (c : Fin 2) : (s.endOp c).stagingPlace = s.stagingPlace := rfl
@[simp] theorem endOp_lanes (c : Fin 2) : (s.endOp c).lanes = s.lanes := rfl
@[simp] theorem endOp_commit (c : Fin 2) : (s.endOp c).commit = s.commit := rfl
@[simp] theorem endOp_lastLane (c : Fin 2) : (s.endOp c).lastLane = s.lastLane := rfl
@[simp] theorem endOp_commitWaits (c : Fin 2) : (s.endOp c).commitWaits = s.commitWaits := rfl
@[simp] theorem endOp_audit (c : Fin 2) : (s.endOp c).audit = s.audit := rfl
@[simp] theorem endOp_statements (c : Fin 2) : (s.endOp c).statements = s.statements := rfl
@[simp] theorem endOp_badger (c : Fin 2) : (s.endOp c).badger = s.badger := rfl
@[simp] theorem endOp_mailbox (c : Fin 2) : (s.endOp c).mailbox = s.mailbox := rfl
@[simp] theorem endOp_link (c : Fin 2) : (s.endOp c).link = s.link := rfl
@[simp] theorem endOp_update (c : Fin 2) : (s.endOp c).update = s.update := rfl
@[simp] theorem endOp_debug (c : Fin 2) : (s.endOp c).probe = s.probe := rfl
@[simp] theorem endOp_drbg (c : Fin 2) : (s.endOp c).drbg = s.drbg := rfl
@[simp] theorem endOp_freeDrawn (c : Fin 2) : (s.endOp c).freeDrawn = s.freeDrawn := rfl

@[simp] theorem setChannel_pending (ch : Fin 12) (c : Channel) : (s.setChannel ch c).pending = s.pending := rfl
@[simp] theorem setChannel_clock (ch : Fin 12) (c : Channel) : (s.setChannel ch c).clock = s.clock := rfl
@[simp] theorem setChannel_power (ch : Fin 12) (c : Channel) : (s.setChannel ch c).power = s.power := rfl
@[simp] theorem setChannel_sleep (ch : Fin 12) (c : Channel) : (s.setChannel ch c).sleep = s.sleep := rfl
@[simp] theorem setChannel_pads (ch : Fin 12) (c : Channel) : (s.setChannel ch c).pads = s.pads := rfl
@[simp] theorem setChannel_straps (ch : Fin 12) (c : Channel) : (s.setChannel ch c).straps = s.straps := rfl
@[simp] theorem setChannel_otp (ch : Fin 12) (c : Channel) : (s.setChannel ch c).otp = s.otp := rfl
@[simp] theorem setChannel_boot (ch : Fin 12) (c : Channel) : (s.setChannel ch c).boot = s.boot := rfl
@[simp] theorem setChannel_running (ch : Fin 12) (c : Channel) : (s.setChannel ch c).running = s.running := rfl
@[simp] theorem setChannel_events (ch : Fin 12) (c : Channel) : (s.setChannel ch c).events = s.events := rfl
@[simp] theorem setChannel_polled (ch : Fin 12) (c : Channel) : (s.setChannel ch c).polled = s.polled := rfl
@[simp] theorem setChannel_vault (ch : Fin 12) (c : Channel) : (s.setChannel ch c).vault = s.vault := rfl
@[simp] theorem setChannel_vaultBad (ch : Fin 12) (c : Channel) : (s.setChannel ch c).vaultBad = s.vaultBad := rfl
@[simp] theorem setChannel_sram (ch : Fin 12) (c : Channel) : (s.setChannel ch c).sram = s.sram := rfl
@[simp] theorem setChannel_sramFill (ch : Fin 12) (c : Channel) : (s.setChannel ch c).sramFill = s.sramFill := rfl
@[simp] theorem setChannel_den (ch : Fin 12) (c : Channel) : (s.setChannel ch c).den = s.den := rfl
@[simp] theorem setChannel_denFill (ch : Fin 12) (c : Channel) : (s.setChannel ch c).denFill = s.denFill := rfl
@[simp] theorem setChannel_keys (ch : Fin 12) (c : Channel) : (s.setChannel ch c).keys = s.keys := rfl
@[simp] theorem setChannel_sessions (ch : Fin 12) (c : Channel) : (s.setChannel ch c).sessions = s.sessions := rfl
@[simp] theorem setChannel_crossTable (ch : Fin 12) (c : Channel) : (s.setChannel ch c).crossTable = s.crossTable := rfl
@[simp] theorem setChannel_portA (ch : Fin 12) (c : Channel) : (s.setChannel ch c).portA = s.portA := rfl
@[simp] theorem setChannel_portB (ch : Fin 12) (c : Channel) : (s.setChannel ch c).portB = s.portB := rfl
@[simp] theorem setChannel_tenants (ch : Fin 12) (c : Channel) : (s.setChannel ch c).tenants = s.tenants := rfl
@[simp] theorem setChannel_stagingPlace (ch : Fin 12) (c : Channel) : (s.setChannel ch c).stagingPlace = s.stagingPlace := rfl
@[simp] theorem setChannel_lanes (ch : Fin 12) (c : Channel) : (s.setChannel ch c).lanes = s.lanes := rfl
@[simp] theorem setChannel_commit (ch : Fin 12) (c : Channel) : (s.setChannel ch c).commit = s.commit := rfl
@[simp] theorem setChannel_lastLane (ch : Fin 12) (c : Channel) : (s.setChannel ch c).lastLane = s.lastLane := rfl
@[simp] theorem setChannel_commitWaits (ch : Fin 12) (c : Channel) : (s.setChannel ch c).commitWaits = s.commitWaits := rfl
@[simp] theorem setChannel_flash (ch : Fin 12) (c : Channel) : (s.setChannel ch c).flash = s.flash := rfl
@[simp] theorem setChannel_audit (ch : Fin 12) (c : Channel) : (s.setChannel ch c).audit = s.audit := rfl
@[simp] theorem setChannel_statements (ch : Fin 12) (c : Channel) : (s.setChannel ch c).statements = s.statements := rfl
@[simp] theorem setChannel_badger (ch : Fin 12) (c : Channel) : (s.setChannel ch c).badger = s.badger := rfl
@[simp] theorem setChannel_link (ch : Fin 12) (c : Channel) : (s.setChannel ch c).link = s.link := rfl
@[simp] theorem setChannel_update (ch : Fin 12) (c : Channel) : (s.setChannel ch c).update = s.update := rfl
@[simp] theorem setChannel_debug (ch : Fin 12) (c : Channel) : (s.setChannel ch c).probe = s.probe := rfl
@[simp] theorem setChannel_drbg (ch : Fin 12) (c : Channel) : (s.setChannel ch c).drbg = s.drbg := rfl
@[simp] theorem setChannel_freeDrawn (ch : Fin 12) (c : Channel) : (s.setChannel ch c).freeDrawn = s.freeDrawn := rfl

@[simp] theorem setOutbox_pending (q : List OutFrame) : (s.setOutbox q).pending = s.pending := rfl
@[simp] theorem setOutbox_clock (q : List OutFrame) : (s.setOutbox q).clock = s.clock := rfl
@[simp] theorem setOutbox_power (q : List OutFrame) : (s.setOutbox q).power = s.power := rfl
@[simp] theorem setOutbox_sleep (q : List OutFrame) : (s.setOutbox q).sleep = s.sleep := rfl
@[simp] theorem setOutbox_pads (q : List OutFrame) : (s.setOutbox q).pads = s.pads := rfl
@[simp] theorem setOutbox_straps (q : List OutFrame) : (s.setOutbox q).straps = s.straps := rfl
@[simp] theorem setOutbox_otp (q : List OutFrame) : (s.setOutbox q).otp = s.otp := rfl
@[simp] theorem setOutbox_boot (q : List OutFrame) : (s.setOutbox q).boot = s.boot := rfl
@[simp] theorem setOutbox_running (q : List OutFrame) : (s.setOutbox q).running = s.running := rfl
@[simp] theorem setOutbox_events (q : List OutFrame) : (s.setOutbox q).events = s.events := rfl
@[simp] theorem setOutbox_polled (q : List OutFrame) : (s.setOutbox q).polled = s.polled := rfl
@[simp] theorem setOutbox_vault (q : List OutFrame) : (s.setOutbox q).vault = s.vault := rfl
@[simp] theorem setOutbox_vaultBad (q : List OutFrame) : (s.setOutbox q).vaultBad = s.vaultBad := rfl
@[simp] theorem setOutbox_sram (q : List OutFrame) : (s.setOutbox q).sram = s.sram := rfl
@[simp] theorem setOutbox_sramFill (q : List OutFrame) : (s.setOutbox q).sramFill = s.sramFill := rfl
@[simp] theorem setOutbox_den (q : List OutFrame) : (s.setOutbox q).den = s.den := rfl
@[simp] theorem setOutbox_denFill (q : List OutFrame) : (s.setOutbox q).denFill = s.denFill := rfl
@[simp] theorem setOutbox_keys (q : List OutFrame) : (s.setOutbox q).keys = s.keys := rfl
@[simp] theorem setOutbox_sessions (q : List OutFrame) : (s.setOutbox q).sessions = s.sessions := rfl
@[simp] theorem setOutbox_crossTable (q : List OutFrame) : (s.setOutbox q).crossTable = s.crossTable := rfl
@[simp] theorem setOutbox_portA (q : List OutFrame) : (s.setOutbox q).portA = s.portA := rfl
@[simp] theorem setOutbox_portB (q : List OutFrame) : (s.setOutbox q).portB = s.portB := rfl
@[simp] theorem setOutbox_tenants (q : List OutFrame) : (s.setOutbox q).tenants = s.tenants := rfl
@[simp] theorem setOutbox_stagingPlace (q : List OutFrame) : (s.setOutbox q).stagingPlace = s.stagingPlace := rfl
@[simp] theorem setOutbox_lanes (q : List OutFrame) : (s.setOutbox q).lanes = s.lanes := rfl
@[simp] theorem setOutbox_commit (q : List OutFrame) : (s.setOutbox q).commit = s.commit := rfl
@[simp] theorem setOutbox_lastLane (q : List OutFrame) : (s.setOutbox q).lastLane = s.lastLane := rfl
@[simp] theorem setOutbox_commitWaits (q : List OutFrame) : (s.setOutbox q).commitWaits = s.commitWaits := rfl
@[simp] theorem setOutbox_flash (q : List OutFrame) : (s.setOutbox q).flash = s.flash := rfl
@[simp] theorem setOutbox_audit (q : List OutFrame) : (s.setOutbox q).audit = s.audit := rfl
@[simp] theorem setOutbox_statements (q : List OutFrame) : (s.setOutbox q).statements = s.statements := rfl
@[simp] theorem setOutbox_badger (q : List OutFrame) : (s.setOutbox q).badger = s.badger := rfl
@[simp] theorem setOutbox_mailbox (q : List OutFrame) : (s.setOutbox q).mailbox = s.mailbox := rfl
@[simp] theorem setOutbox_update (q : List OutFrame) : (s.setOutbox q).update = s.update := rfl
@[simp] theorem setOutbox_debug (q : List OutFrame) : (s.setOutbox q).probe = s.probe := rfl
@[simp] theorem setOutbox_drbg (q : List OutFrame) : (s.setOutbox q).drbg = s.drbg := rfl
@[simp] theorem setOutbox_freeDrawn (q : List OutFrame) : (s.setOutbox q).freeDrawn = s.freeDrawn := rfl

@[simp] theorem setRequest_pending (r : Option OutRequest) : (s.setRequest r).pending = s.pending := rfl
@[simp] theorem setRequest_clock (r : Option OutRequest) : (s.setRequest r).clock = s.clock := rfl
@[simp] theorem setRequest_power (r : Option OutRequest) : (s.setRequest r).power = s.power := rfl
@[simp] theorem setRequest_sleep (r : Option OutRequest) : (s.setRequest r).sleep = s.sleep := rfl
@[simp] theorem setRequest_pads (r : Option OutRequest) : (s.setRequest r).pads = s.pads := rfl
@[simp] theorem setRequest_straps (r : Option OutRequest) : (s.setRequest r).straps = s.straps := rfl
@[simp] theorem setRequest_otp (r : Option OutRequest) : (s.setRequest r).otp = s.otp := rfl
@[simp] theorem setRequest_boot (r : Option OutRequest) : (s.setRequest r).boot = s.boot := rfl
@[simp] theorem setRequest_running (r : Option OutRequest) : (s.setRequest r).running = s.running := rfl
@[simp] theorem setRequest_events (r : Option OutRequest) : (s.setRequest r).events = s.events := rfl
@[simp] theorem setRequest_polled (r : Option OutRequest) : (s.setRequest r).polled = s.polled := rfl
@[simp] theorem setRequest_vault (r : Option OutRequest) : (s.setRequest r).vault = s.vault := rfl
@[simp] theorem setRequest_vaultBad (r : Option OutRequest) : (s.setRequest r).vaultBad = s.vaultBad := rfl
@[simp] theorem setRequest_sram (r : Option OutRequest) : (s.setRequest r).sram = s.sram := rfl
@[simp] theorem setRequest_sramFill (r : Option OutRequest) : (s.setRequest r).sramFill = s.sramFill := rfl
@[simp] theorem setRequest_den (r : Option OutRequest) : (s.setRequest r).den = s.den := rfl
@[simp] theorem setRequest_denFill (r : Option OutRequest) : (s.setRequest r).denFill = s.denFill := rfl
@[simp] theorem setRequest_keys (r : Option OutRequest) : (s.setRequest r).keys = s.keys := rfl
@[simp] theorem setRequest_sessions (r : Option OutRequest) : (s.setRequest r).sessions = s.sessions := rfl
@[simp] theorem setRequest_crossTable (r : Option OutRequest) : (s.setRequest r).crossTable = s.crossTable := rfl
@[simp] theorem setRequest_portA (r : Option OutRequest) : (s.setRequest r).portA = s.portA := rfl
@[simp] theorem setRequest_portB (r : Option OutRequest) : (s.setRequest r).portB = s.portB := rfl
@[simp] theorem setRequest_tenants (r : Option OutRequest) : (s.setRequest r).tenants = s.tenants := rfl
@[simp] theorem setRequest_stagingPlace (r : Option OutRequest) : (s.setRequest r).stagingPlace = s.stagingPlace := rfl
@[simp] theorem setRequest_lanes (r : Option OutRequest) : (s.setRequest r).lanes = s.lanes := rfl
@[simp] theorem setRequest_commit (r : Option OutRequest) : (s.setRequest r).commit = s.commit := rfl
@[simp] theorem setRequest_lastLane (r : Option OutRequest) : (s.setRequest r).lastLane = s.lastLane := rfl
@[simp] theorem setRequest_commitWaits (r : Option OutRequest) : (s.setRequest r).commitWaits = s.commitWaits := rfl
@[simp] theorem setRequest_flash (r : Option OutRequest) : (s.setRequest r).flash = s.flash := rfl
@[simp] theorem setRequest_audit (r : Option OutRequest) : (s.setRequest r).audit = s.audit := rfl
@[simp] theorem setRequest_statements (r : Option OutRequest) : (s.setRequest r).statements = s.statements := rfl
@[simp] theorem setRequest_badger (r : Option OutRequest) : (s.setRequest r).badger = s.badger := rfl
@[simp] theorem setRequest_mailbox (r : Option OutRequest) : (s.setRequest r).mailbox = s.mailbox := rfl
@[simp] theorem setRequest_update (r : Option OutRequest) : (s.setRequest r).update = s.update := rfl
@[simp] theorem setRequest_debug (r : Option OutRequest) : (s.setRequest r).probe = s.probe := rfl
@[simp] theorem setRequest_drbg (r : Option OutRequest) : (s.setRequest r).drbg = s.drbg := rfl
@[simp] theorem setRequest_freeDrawn (r : Option OutRequest) : (s.setRequest r).freeDrawn = s.freeDrawn := rfl

@[simp] theorem modSession_pending (p : Peer) (g : Session → Session) : (s.modSession p g).pending = s.pending := rfl
@[simp] theorem modSession_clock (p : Peer) (g : Session → Session) : (s.modSession p g).clock = s.clock := rfl
@[simp] theorem modSession_power (p : Peer) (g : Session → Session) : (s.modSession p g).power = s.power := rfl
@[simp] theorem modSession_sleep (p : Peer) (g : Session → Session) : (s.modSession p g).sleep = s.sleep := rfl
@[simp] theorem modSession_pads (p : Peer) (g : Session → Session) : (s.modSession p g).pads = s.pads := rfl
@[simp] theorem modSession_straps (p : Peer) (g : Session → Session) : (s.modSession p g).straps = s.straps := rfl
@[simp] theorem modSession_otp (p : Peer) (g : Session → Session) : (s.modSession p g).otp = s.otp := rfl
@[simp] theorem modSession_boot (p : Peer) (g : Session → Session) : (s.modSession p g).boot = s.boot := rfl
@[simp] theorem modSession_running (p : Peer) (g : Session → Session) : (s.modSession p g).running = s.running := rfl
@[simp] theorem modSession_events (p : Peer) (g : Session → Session) : (s.modSession p g).events = s.events := rfl
@[simp] theorem modSession_polled (p : Peer) (g : Session → Session) : (s.modSession p g).polled = s.polled := rfl
@[simp] theorem modSession_vault (p : Peer) (g : Session → Session) : (s.modSession p g).vault = s.vault := rfl
@[simp] theorem modSession_vaultBad (p : Peer) (g : Session → Session) : (s.modSession p g).vaultBad = s.vaultBad := rfl
@[simp] theorem modSession_sram (p : Peer) (g : Session → Session) : (s.modSession p g).sram = s.sram := rfl
@[simp] theorem modSession_sramFill (p : Peer) (g : Session → Session) : (s.modSession p g).sramFill = s.sramFill := rfl
@[simp] theorem modSession_den (p : Peer) (g : Session → Session) : (s.modSession p g).den = s.den := rfl
@[simp] theorem modSession_denFill (p : Peer) (g : Session → Session) : (s.modSession p g).denFill = s.denFill := rfl
@[simp] theorem modSession_keys (p : Peer) (g : Session → Session) : (s.modSession p g).keys = s.keys := rfl
@[simp] theorem modSession_crossTable (p : Peer) (g : Session → Session) : (s.modSession p g).crossTable = s.crossTable := rfl
@[simp] theorem modSession_portA (p : Peer) (g : Session → Session) : (s.modSession p g).portA = s.portA := rfl
@[simp] theorem modSession_portB (p : Peer) (g : Session → Session) : (s.modSession p g).portB = s.portB := rfl
@[simp] theorem modSession_tenants (p : Peer) (g : Session → Session) : (s.modSession p g).tenants = s.tenants := rfl
@[simp] theorem modSession_stagingPlace (p : Peer) (g : Session → Session) : (s.modSession p g).stagingPlace = s.stagingPlace := rfl
@[simp] theorem modSession_lanes (p : Peer) (g : Session → Session) : (s.modSession p g).lanes = s.lanes := rfl
@[simp] theorem modSession_commit (p : Peer) (g : Session → Session) : (s.modSession p g).commit = s.commit := rfl
@[simp] theorem modSession_lastLane (p : Peer) (g : Session → Session) : (s.modSession p g).lastLane = s.lastLane := rfl
@[simp] theorem modSession_commitWaits (p : Peer) (g : Session → Session) : (s.modSession p g).commitWaits = s.commitWaits := rfl
@[simp] theorem modSession_flash (p : Peer) (g : Session → Session) : (s.modSession p g).flash = s.flash := rfl
@[simp] theorem modSession_audit (p : Peer) (g : Session → Session) : (s.modSession p g).audit = s.audit := rfl
@[simp] theorem modSession_statements (p : Peer) (g : Session → Session) : (s.modSession p g).statements = s.statements := rfl
@[simp] theorem modSession_badger (p : Peer) (g : Session → Session) : (s.modSession p g).badger = s.badger := rfl
@[simp] theorem modSession_mailbox (p : Peer) (g : Session → Session) : (s.modSession p g).mailbox = s.mailbox := rfl
@[simp] theorem modSession_link (p : Peer) (g : Session → Session) : (s.modSession p g).link = s.link := rfl
@[simp] theorem modSession_update (p : Peer) (g : Session → Session) : (s.modSession p g).update = s.update := rfl
@[simp] theorem modSession_debug (p : Peer) (g : Session → Session) : (s.modSession p g).probe = s.probe := rfl
@[simp] theorem modSession_drbg (p : Peer) (g : Session → Session) : (s.modSession p g).drbg = s.drbg := rfl
@[simp] theorem modSession_freeDrawn (p : Peer) (g : Session → Session) : (s.modSession p g).freeDrawn = s.freeDrawn := rfl

@[simp] theorem putSession_pending (x : Session) : (s.putSession x).pending = s.pending := rfl
@[simp] theorem putSession_clock (x : Session) : (s.putSession x).clock = s.clock := rfl
@[simp] theorem putSession_power (x : Session) : (s.putSession x).power = s.power := rfl
@[simp] theorem putSession_sleep (x : Session) : (s.putSession x).sleep = s.sleep := rfl
@[simp] theorem putSession_pads (x : Session) : (s.putSession x).pads = s.pads := rfl
@[simp] theorem putSession_straps (x : Session) : (s.putSession x).straps = s.straps := rfl
@[simp] theorem putSession_otp (x : Session) : (s.putSession x).otp = s.otp := rfl
@[simp] theorem putSession_boot (x : Session) : (s.putSession x).boot = s.boot := rfl
@[simp] theorem putSession_running (x : Session) : (s.putSession x).running = s.running := rfl
@[simp] theorem putSession_events (x : Session) : (s.putSession x).events = s.events := rfl
@[simp] theorem putSession_polled (x : Session) : (s.putSession x).polled = s.polled := rfl
@[simp] theorem putSession_vault (x : Session) : (s.putSession x).vault = s.vault := rfl
@[simp] theorem putSession_vaultBad (x : Session) : (s.putSession x).vaultBad = s.vaultBad := rfl
@[simp] theorem putSession_sram (x : Session) : (s.putSession x).sram = s.sram := rfl
@[simp] theorem putSession_sramFill (x : Session) : (s.putSession x).sramFill = s.sramFill := rfl
@[simp] theorem putSession_den (x : Session) : (s.putSession x).den = s.den := rfl
@[simp] theorem putSession_denFill (x : Session) : (s.putSession x).denFill = s.denFill := rfl
@[simp] theorem putSession_keys (x : Session) : (s.putSession x).keys = s.keys := rfl
@[simp] theorem putSession_crossTable (x : Session) : (s.putSession x).crossTable = s.crossTable := rfl
@[simp] theorem putSession_portA (x : Session) : (s.putSession x).portA = s.portA := rfl
@[simp] theorem putSession_portB (x : Session) : (s.putSession x).portB = s.portB := rfl
@[simp] theorem putSession_tenants (x : Session) : (s.putSession x).tenants = s.tenants := rfl
@[simp] theorem putSession_stagingPlace (x : Session) : (s.putSession x).stagingPlace = s.stagingPlace := rfl
@[simp] theorem putSession_lanes (x : Session) : (s.putSession x).lanes = s.lanes := rfl
@[simp] theorem putSession_commit (x : Session) : (s.putSession x).commit = s.commit := rfl
@[simp] theorem putSession_lastLane (x : Session) : (s.putSession x).lastLane = s.lastLane := rfl
@[simp] theorem putSession_commitWaits (x : Session) : (s.putSession x).commitWaits = s.commitWaits := rfl
@[simp] theorem putSession_flash (x : Session) : (s.putSession x).flash = s.flash := rfl
@[simp] theorem putSession_audit (x : Session) : (s.putSession x).audit = s.audit := rfl
@[simp] theorem putSession_statements (x : Session) : (s.putSession x).statements = s.statements := rfl
@[simp] theorem putSession_badger (x : Session) : (s.putSession x).badger = s.badger := rfl
@[simp] theorem putSession_mailbox (x : Session) : (s.putSession x).mailbox = s.mailbox := rfl
@[simp] theorem putSession_link (x : Session) : (s.putSession x).link = s.link := rfl
@[simp] theorem putSession_update (x : Session) : (s.putSession x).update = s.update := rfl
@[simp] theorem putSession_debug (x : Session) : (s.putSession x).probe = s.probe := rfl
@[simp] theorem putSession_drbg (x : Session) : (s.putSession x).drbg = s.drbg := rfl
@[simp] theorem putSession_freeDrawn (x : Session) : (s.putSession x).freeDrawn = s.freeDrawn := rfl

@[simp] theorem setPort_pending (p : Port) (x : PortSt) : (s.setPort p x).pending = s.pending := by cases p <;> rfl
@[simp] theorem setPort_clock (p : Port) (x : PortSt) : (s.setPort p x).clock = s.clock := by cases p <;> rfl
@[simp] theorem setPort_power (p : Port) (x : PortSt) : (s.setPort p x).power = s.power := by cases p <;> rfl
@[simp] theorem setPort_sleep (p : Port) (x : PortSt) : (s.setPort p x).sleep = s.sleep := by cases p <;> rfl
@[simp] theorem setPort_pads (p : Port) (x : PortSt) : (s.setPort p x).pads = s.pads := by cases p <;> rfl
@[simp] theorem setPort_straps (p : Port) (x : PortSt) : (s.setPort p x).straps = s.straps := by cases p <;> rfl
@[simp] theorem setPort_otp (p : Port) (x : PortSt) : (s.setPort p x).otp = s.otp := by cases p <;> rfl
@[simp] theorem setPort_boot (p : Port) (x : PortSt) : (s.setPort p x).boot = s.boot := by cases p <;> rfl
@[simp] theorem setPort_running (p : Port) (x : PortSt) : (s.setPort p x).running = s.running := by cases p <;> rfl
@[simp] theorem setPort_events (p : Port) (x : PortSt) : (s.setPort p x).events = s.events := by cases p <;> rfl
@[simp] theorem setPort_polled (p : Port) (x : PortSt) : (s.setPort p x).polled = s.polled := by cases p <;> rfl
@[simp] theorem setPort_vault (p : Port) (x : PortSt) : (s.setPort p x).vault = s.vault := by cases p <;> rfl
@[simp] theorem setPort_vaultBad (p : Port) (x : PortSt) : (s.setPort p x).vaultBad = s.vaultBad := by cases p <;> rfl
@[simp] theorem setPort_sram (p : Port) (x : PortSt) : (s.setPort p x).sram = s.sram := by cases p <;> rfl
@[simp] theorem setPort_sramFill (p : Port) (x : PortSt) : (s.setPort p x).sramFill = s.sramFill := by cases p <;> rfl
@[simp] theorem setPort_den (p : Port) (x : PortSt) : (s.setPort p x).den = s.den := by cases p <;> rfl
@[simp] theorem setPort_denFill (p : Port) (x : PortSt) : (s.setPort p x).denFill = s.denFill := by cases p <;> rfl
@[simp] theorem setPort_keys (p : Port) (x : PortSt) : (s.setPort p x).keys = s.keys := by cases p <;> rfl
@[simp] theorem setPort_sessions (p : Port) (x : PortSt) : (s.setPort p x).sessions = s.sessions := by cases p <;> rfl
@[simp] theorem setPort_crossTable (p : Port) (x : PortSt) : (s.setPort p x).crossTable = s.crossTable := by cases p <;> rfl
@[simp] theorem setPort_tenants (p : Port) (x : PortSt) : (s.setPort p x).tenants = s.tenants := by cases p <;> rfl
@[simp] theorem setPort_stagingPlace (p : Port) (x : PortSt) : (s.setPort p x).stagingPlace = s.stagingPlace := by cases p <;> rfl
@[simp] theorem setPort_lanes (p : Port) (x : PortSt) : (s.setPort p x).lanes = s.lanes := by cases p <;> rfl
@[simp] theorem setPort_commit (p : Port) (x : PortSt) : (s.setPort p x).commit = s.commit := by cases p <;> rfl
@[simp] theorem setPort_lastLane (p : Port) (x : PortSt) : (s.setPort p x).lastLane = s.lastLane := by cases p <;> rfl
@[simp] theorem setPort_commitWaits (p : Port) (x : PortSt) : (s.setPort p x).commitWaits = s.commitWaits := by cases p <;> rfl
@[simp] theorem setPort_flash (p : Port) (x : PortSt) : (s.setPort p x).flash = s.flash := by cases p <;> rfl
@[simp] theorem setPort_audit (p : Port) (x : PortSt) : (s.setPort p x).audit = s.audit := by cases p <;> rfl
@[simp] theorem setPort_statements (p : Port) (x : PortSt) : (s.setPort p x).statements = s.statements := by cases p <;> rfl
@[simp] theorem setPort_badger (p : Port) (x : PortSt) : (s.setPort p x).badger = s.badger := by cases p <;> rfl
@[simp] theorem setPort_mailbox (p : Port) (x : PortSt) : (s.setPort p x).mailbox = s.mailbox := by cases p <;> rfl
@[simp] theorem setPort_link (p : Port) (x : PortSt) : (s.setPort p x).link = s.link := by cases p <;> rfl
@[simp] theorem setPort_update (p : Port) (x : PortSt) : (s.setPort p x).update = s.update := by cases p <;> rfl
@[simp] theorem setPort_debug (p : Port) (x : PortSt) : (s.setPort p x).probe = s.probe := by cases p <;> rfl
@[simp] theorem setPort_drbg (p : Port) (x : PortSt) : (s.setPort p x).drbg = s.drbg := by cases p <;> rfl
@[simp] theorem setPort_freeDrawn (p : Port) (x : PortSt) : (s.setPort p x).freeDrawn = s.freeDrawn := by cases p <;> rfl

@[simp] theorem modPort_pending (p : Port) (f : PortSt → PortSt) : (s.modPort p f).pending = s.pending := by cases p <;> rfl
@[simp] theorem modPort_clock (p : Port) (f : PortSt → PortSt) : (s.modPort p f).clock = s.clock := by cases p <;> rfl
@[simp] theorem modPort_power (p : Port) (f : PortSt → PortSt) : (s.modPort p f).power = s.power := by cases p <;> rfl
@[simp] theorem modPort_sleep (p : Port) (f : PortSt → PortSt) : (s.modPort p f).sleep = s.sleep := by cases p <;> rfl
@[simp] theorem modPort_pads (p : Port) (f : PortSt → PortSt) : (s.modPort p f).pads = s.pads := by cases p <;> rfl
@[simp] theorem modPort_straps (p : Port) (f : PortSt → PortSt) : (s.modPort p f).straps = s.straps := by cases p <;> rfl
@[simp] theorem modPort_otp (p : Port) (f : PortSt → PortSt) : (s.modPort p f).otp = s.otp := by cases p <;> rfl
@[simp] theorem modPort_boot (p : Port) (f : PortSt → PortSt) : (s.modPort p f).boot = s.boot := by cases p <;> rfl
@[simp] theorem modPort_running (p : Port) (f : PortSt → PortSt) : (s.modPort p f).running = s.running := by cases p <;> rfl
@[simp] theorem modPort_events (p : Port) (f : PortSt → PortSt) : (s.modPort p f).events = s.events := by cases p <;> rfl
@[simp] theorem modPort_polled (p : Port) (f : PortSt → PortSt) : (s.modPort p f).polled = s.polled := by cases p <;> rfl
@[simp] theorem modPort_vault (p : Port) (f : PortSt → PortSt) : (s.modPort p f).vault = s.vault := by cases p <;> rfl
@[simp] theorem modPort_vaultBad (p : Port) (f : PortSt → PortSt) : (s.modPort p f).vaultBad = s.vaultBad := by cases p <;> rfl
@[simp] theorem modPort_sram (p : Port) (f : PortSt → PortSt) : (s.modPort p f).sram = s.sram := by cases p <;> rfl
@[simp] theorem modPort_sramFill (p : Port) (f : PortSt → PortSt) : (s.modPort p f).sramFill = s.sramFill := by cases p <;> rfl
@[simp] theorem modPort_den (p : Port) (f : PortSt → PortSt) : (s.modPort p f).den = s.den := by cases p <;> rfl
@[simp] theorem modPort_denFill (p : Port) (f : PortSt → PortSt) : (s.modPort p f).denFill = s.denFill := by cases p <;> rfl
@[simp] theorem modPort_keys (p : Port) (f : PortSt → PortSt) : (s.modPort p f).keys = s.keys := by cases p <;> rfl
@[simp] theorem modPort_sessions (p : Port) (f : PortSt → PortSt) : (s.modPort p f).sessions = s.sessions := by cases p <;> rfl
@[simp] theorem modPort_crossTable (p : Port) (f : PortSt → PortSt) : (s.modPort p f).crossTable = s.crossTable := by cases p <;> rfl
@[simp] theorem modPort_tenants (p : Port) (f : PortSt → PortSt) : (s.modPort p f).tenants = s.tenants := by cases p <;> rfl
@[simp] theorem modPort_stagingPlace (p : Port) (f : PortSt → PortSt) : (s.modPort p f).stagingPlace = s.stagingPlace := by cases p <;> rfl
@[simp] theorem modPort_lanes (p : Port) (f : PortSt → PortSt) : (s.modPort p f).lanes = s.lanes := by cases p <;> rfl
@[simp] theorem modPort_commit (p : Port) (f : PortSt → PortSt) : (s.modPort p f).commit = s.commit := by cases p <;> rfl
@[simp] theorem modPort_lastLane (p : Port) (f : PortSt → PortSt) : (s.modPort p f).lastLane = s.lastLane := by cases p <;> rfl
@[simp] theorem modPort_commitWaits (p : Port) (f : PortSt → PortSt) : (s.modPort p f).commitWaits = s.commitWaits := by cases p <;> rfl
@[simp] theorem modPort_flash (p : Port) (f : PortSt → PortSt) : (s.modPort p f).flash = s.flash := by cases p <;> rfl
@[simp] theorem modPort_audit (p : Port) (f : PortSt → PortSt) : (s.modPort p f).audit = s.audit := by cases p <;> rfl
@[simp] theorem modPort_statements (p : Port) (f : PortSt → PortSt) : (s.modPort p f).statements = s.statements := by cases p <;> rfl
@[simp] theorem modPort_badger (p : Port) (f : PortSt → PortSt) : (s.modPort p f).badger = s.badger := by cases p <;> rfl
@[simp] theorem modPort_mailbox (p : Port) (f : PortSt → PortSt) : (s.modPort p f).mailbox = s.mailbox := by cases p <;> rfl
@[simp] theorem modPort_link (p : Port) (f : PortSt → PortSt) : (s.modPort p f).link = s.link := by cases p <;> rfl
@[simp] theorem modPort_update (p : Port) (f : PortSt → PortSt) : (s.modPort p f).update = s.update := by cases p <;> rfl
@[simp] theorem modPort_debug (p : Port) (f : PortSt → PortSt) : (s.modPort p f).probe = s.probe := by cases p <;> rfl
@[simp] theorem modPort_drbg (p : Port) (f : PortSt → PortSt) : (s.modPort p f).drbg = s.drbg := by cases p <;> rfl
@[simp] theorem modPort_freeDrawn (p : Port) (f : PortSt → PortSt) : (s.modPort p f).freeDrawn = s.freeDrawn := by cases p <;> rfl

@[simp] theorem latchIf_pending (c : Bool) (e : Nat) : (s.latchIf c e).pending = s.pending := by cases c <;> rfl
@[simp] theorem latchIf_clock (c : Bool) (e : Nat) : (s.latchIf c e).clock = s.clock := by cases c <;> rfl
@[simp] theorem latchIf_power (c : Bool) (e : Nat) : (s.latchIf c e).power = s.power := by cases c <;> rfl
@[simp] theorem latchIf_pads (c : Bool) (e : Nat) : (s.latchIf c e).pads = s.pads := by cases c <;> rfl
@[simp] theorem latchIf_straps (c : Bool) (e : Nat) : (s.latchIf c e).straps = s.straps := by cases c <;> rfl
@[simp] theorem latchIf_otp (c : Bool) (e : Nat) : (s.latchIf c e).otp = s.otp := by cases c <;> rfl
@[simp] theorem latchIf_boot (c : Bool) (e : Nat) : (s.latchIf c e).boot = s.boot := by cases c <;> rfl
@[simp] theorem latchIf_running (c : Bool) (e : Nat) : (s.latchIf c e).running = s.running := by cases c <;> rfl
@[simp] theorem latchIf_polled (c : Bool) (e : Nat) : (s.latchIf c e).polled = s.polled := by cases c <;> rfl
@[simp] theorem latchIf_vault (c : Bool) (e : Nat) : (s.latchIf c e).vault = s.vault := by cases c <;> rfl
@[simp] theorem latchIf_vaultBad (c : Bool) (e : Nat) : (s.latchIf c e).vaultBad = s.vaultBad := by cases c <;> rfl
@[simp] theorem latchIf_sram (c : Bool) (e : Nat) : (s.latchIf c e).sram = s.sram := by cases c <;> rfl
@[simp] theorem latchIf_sramFill (c : Bool) (e : Nat) : (s.latchIf c e).sramFill = s.sramFill := by cases c <;> rfl
@[simp] theorem latchIf_den (c : Bool) (e : Nat) : (s.latchIf c e).den = s.den := by cases c <;> rfl
@[simp] theorem latchIf_denFill (c : Bool) (e : Nat) : (s.latchIf c e).denFill = s.denFill := by cases c <;> rfl
@[simp] theorem latchIf_keys (c : Bool) (e : Nat) : (s.latchIf c e).keys = s.keys := by cases c <;> rfl
@[simp] theorem latchIf_sessions (c : Bool) (e : Nat) : (s.latchIf c e).sessions = s.sessions := by cases c <;> rfl
@[simp] theorem latchIf_crossTable (c : Bool) (e : Nat) : (s.latchIf c e).crossTable = s.crossTable := by cases c <;> rfl
@[simp] theorem latchIf_portA (c : Bool) (e : Nat) : (s.latchIf c e).portA = s.portA := by cases c <;> rfl
@[simp] theorem latchIf_portB (c : Bool) (e : Nat) : (s.latchIf c e).portB = s.portB := by cases c <;> rfl
@[simp] theorem latchIf_tenants (c : Bool) (e : Nat) : (s.latchIf c e).tenants = s.tenants := by cases c <;> rfl
@[simp] theorem latchIf_stagingPlace (c : Bool) (e : Nat) : (s.latchIf c e).stagingPlace = s.stagingPlace := by cases c <;> rfl
@[simp] theorem latchIf_lanes (c : Bool) (e : Nat) : (s.latchIf c e).lanes = s.lanes := by cases c <;> rfl
@[simp] theorem latchIf_commit (c : Bool) (e : Nat) : (s.latchIf c e).commit = s.commit := by cases c <;> rfl
@[simp] theorem latchIf_lastLane (c : Bool) (e : Nat) : (s.latchIf c e).lastLane = s.lastLane := by cases c <;> rfl
@[simp] theorem latchIf_commitWaits (c : Bool) (e : Nat) : (s.latchIf c e).commitWaits = s.commitWaits := by cases c <;> rfl
@[simp] theorem latchIf_flash (c : Bool) (e : Nat) : (s.latchIf c e).flash = s.flash := by cases c <;> rfl
@[simp] theorem latchIf_audit (c : Bool) (e : Nat) : (s.latchIf c e).audit = s.audit := by cases c <;> rfl
@[simp] theorem latchIf_statements (c : Bool) (e : Nat) : (s.latchIf c e).statements = s.statements := by cases c <;> rfl
@[simp] theorem latchIf_badger (c : Bool) (e : Nat) : (s.latchIf c e).badger = s.badger := by cases c <;> rfl
@[simp] theorem latchIf_mailbox (c : Bool) (e : Nat) : (s.latchIf c e).mailbox = s.mailbox := by cases c <;> rfl
@[simp] theorem latchIf_link (c : Bool) (e : Nat) : (s.latchIf c e).link = s.link := by cases c <;> rfl
@[simp] theorem latchIf_update (c : Bool) (e : Nat) : (s.latchIf c e).update = s.update := by cases c <;> rfl
@[simp] theorem latchIf_debug (c : Bool) (e : Nat) : (s.latchIf c e).probe = s.probe := by cases c <;> rfl
@[simp] theorem latchIf_drbg (c : Bool) (e : Nat) : (s.latchIf c e).drbg = s.drbg := by cases c <;> rfl
@[simp] theorem latchIf_freeDrawn (c : Bool) (e : Nat) : (s.latchIf c e).freeDrawn = s.freeDrawn := by cases c <;> rfl

/-! ### What an update does put in place -/

@[simp] theorem setTenant_same (t : TSlot) (x : Tenant) : (s.setTenant t x).tenant t = x := by simp [State.tenant, State.setTenant]

@[simp] theorem setTenant_other (t u : TSlot) (x : Tenant) (h : t ≠ u) : (s.setTenant t x).tenant u = s.tenant u := by
  have : t.val ≠ u.val := fun e => h (Fin.ext e)
  simp [State.tenant, State.setTenant, this]

@[simp] theorem modTenant_same (t : TSlot) (f : Tenant → Tenant) : (s.modTenant t f).tenant t = f (s.tenant t) := by simp [State.modTenant]

@[simp] theorem modTenant_other (t u : TSlot) (f : Tenant → Tenant) (h : t ≠ u) : (s.modTenant t f).tenant u = s.tenant u := by
  simp [State.modTenant, h]

@[simp] theorem setPort_same (p : Port) (x : PortSt) : (s.setPort p x).port p = x := by cases p <;> rfl

@[simp] theorem modPort_same (p : Port) (f : PortSt → PortSt) : (s.modPort p f).port p = f (s.port p) := by simp [State.modPort]

@[simp] theorem setPort_other (p q : Port) (x : PortSt) (h : p ≠ q) : (s.setPort p x).port q = s.port q := by
  cases p <;> cases q <;> first | rfl | exact absurd rfl h

@[simp] theorem modPort_other (p q : Port) (f : PortSt → PortSt) (h : p ≠ q) : (s.modPort p f).port q = s.port q := by
  simp [State.modPort, h]

/-- The bit of an event number. -/
theorem event_bit (e : Nat) (h : e < 256) : (BitVec.ofNat 256 (2 ^ e)).getLsbD e = true := by
  rw [BitVec.getLsbD_ofNat]
  simp [h, Nat.testBit_two_pow_self]

/-- A latched event reads as latched while FAB has a clock. -/
theorem latch_eventBit (e : Nat) (h : e < 256) (p : s.power.phase ≠ .s) : (s.latch e).eventBit e = true := by
  have q : (s.power.phase == .s) = false := by simpa using p
  simp only [State.latch, State.eventBit, q, Bool.false_eq_true, if_false, BitVec.getLsbD_or, event_bit e h, Bool.or_true]

/-- In S an event waits for the resumed lap (R66, R121). -/
theorem latch_waiting (e : Nat) (h : e < 256) (p : s.power.phase = .s) :
    (s.latch e).sleep.waiting.getLsbD e = true ∧ (s.latch e).events = s.events := by
  have q : (s.power.phase == .s) = true := by simpa using p
  simp only [State.latch, q, if_true, BitVec.getLsbD_or, event_bit e h, Bool.or_true, and_self]

/-- A latched event stays latched when another fires. -/
theorem latch_keeps (e k : Nat) (h : s.eventBit k = true) : (s.latch e).eventBit k = true := by
  unfold State.latch State.eventBit at *
  dsimp only
  split
  · exact h
  · rw [BitVec.getLsbD_or, h, Bool.true_or]

end Sys2Proof.Laws
end

