-- ==== Sys2Proof/Laws/Kept.lean ====
section
/-! SUPPORT. What no operation of the block breaks, as one relation with one lemma per shared operation: the queue of commands is not touched,
OTP only gains bits, the byte stores keep their canonical form. -/
namespace Sys2Proof.Laws
open Sys2Proof.Machine Sys2Proof.Safety

/-! ### Rising bits -/

theorem rise_refl {n : Nat} (a : BitVec n) : BitsRise a a := fun _ h => h

theorem rise_trans {n : Nat} {a b c : BitVec n} (h : BitsRise a b) (k : BitsRise b c) : BitsRise a c := fun i x => k i (h i x)

theorem rise_or {n : Nat} (a b : BitVec n) : BitsRise a (a ||| b) := fun i h => by simp [h]

theorem otp_refl (a : Otp) : OtpRises a a :=
  ⟨fun _ => rise_refl _, fun _ => rise_refl _, rise_refl _, rise_refl _, fun _ => rise_refl _, fun _ => rise_refl _⟩

theorem otp_trans {a b c : Otp} (h : OtpRises a b) (k : OtpRises b c) : OtpRises a c :=
  ⟨fun i => rise_trans (h.groups i) (k.groups i), fun i => rise_trans (h.words i) (k.words i), rise_trans h.keyTrue k.keyTrue, rise_trans h.keyComp k.keyComp,
    fun i => rise_trans (h.patch0 i) (k.patch0 i), fun i => rise_trans (h.patch1 i) (k.patch1 i)⟩

/-- A place of a vector whose element was replaced by one with more bits. -/
theorem rise_set {n k : Nat} (v : Vector (BitVec n) k) (i : Fin k) (x : BitVec n) (j : Fin k) :
    BitsRise v[j] (v.set i (v[i] ||| x))[j] := by
  by_cases h : i = j
  · subst h; simpa using rise_or _ _
  · have : i.val ≠ j.val := fun e => h (Fin.ext e)
    simp only [Fin.getElem_fin, Vector.getElem_set, this, if_false]
    exact rise_refl _

theorem program_rises (o : Otp) (c : OtpCell) : OtpRises o (o.program c) := by
  match c with
  | .patch x e b =>
    simp only [Otp.program]
    split
    · exact ⟨fun _ => rise_refl _, fun _ => rise_refl _, rise_refl _, rise_refl _, fun j => rise_set _ _ _ j, fun _ => rise_refl _⟩
    · exact ⟨fun _ => rise_refl _, fun _ => rise_refl _, rise_refl _, rise_refl _, fun _ => rise_refl _, fun j => rise_set _ _ _ j⟩
  | .group g b => exact ⟨fun j => rise_set _ _ _ j, fun _ => rise_refl _, rise_refl _, rise_refl _, fun _ => rise_refl _, fun _ => rise_refl _⟩
  | .word w b => exact ⟨fun _ => rise_refl _, fun j => rise_set _ _ _ j, rise_refl _, rise_refl _, fun _ => rise_refl _, fun _ => rise_refl _⟩
  | .keyTrue i => exact ⟨fun _ => rise_refl _, fun _ => rise_refl _, rise_or _ _, rise_refl _, fun _ => rise_refl _, fun _ => rise_refl _⟩
  | .keyComp i => exact ⟨fun _ => rise_refl _, fun _ => rise_refl _, rise_refl _, rise_or _ _, fun _ => rise_refl _, fun _ => rise_refl _⟩

/-! ### The relation -/

/-- `Kept` on the parts it speaks of. -/
structure KeptCore (a : State) (pending : List Instr) (otp : Otp) (vault sram : Cells) (sramFill : Nat) (den : Cells) (denFill : Nat)
    (chips : Vector Chip 2) : Prop where
  pending : pending = a.pending
  otp : OtpRises a.otp otp
  vault : StoresCanonical a → Cells.wf erased vault = true
  sram : StoresCanonical a → Cells.wf (fillOf sramFill) sram = true
  den : StoresCanonical a → Cells.wf (fillOf denFill) den = true
  chip : StoresCanonical a → ∀ c : Fin 2, Cells.wf erased chips[c].cells = true

/-- From `a` the block came to `s` without touching the queue, clearing an OTP bit or breaking a byte store. -/
def Kept (a s : State) : Prop := KeptCore a s.pending s.otp s.vault s.sram s.sramFill s.den s.denFill s.flash.chips

/-- The same of a command's outcome. -/
def KeptOut (a : State) (o : Out) : Prop := ∀ t, o = .next t → Kept a t

theorem kept_refl (s : State) : Kept s s :=
  ⟨rfl, otp_refl _, fun h => h.vault, fun h => h.sram, fun h => h.den, fun h => h.chip⟩

theorem Kept.canonical {a s : State} (h : Kept a s) (c : StoresCanonical a) : StoresCanonical s := ⟨h.vault c, h.sram c, h.den c, h.chip c⟩

theorem kept_trans {a b s : State} (h : Kept a b) (k : Kept b s) : Kept a s :=
  ⟨k.pending.trans h.pending, otp_trans h.otp k.otp, fun c => k.vault (h.canonical c), fun c => k.sram (h.canonical c), fun c => k.den (h.canonical c),
    fun c => k.chip (h.canonical c)⟩

theorem keptOut_next {a s : State} (h : Kept a s) : KeptOut a (.next s) := fun t e => by cases e; exact h
theorem keptOut_fault (a : State) (r : Fault) : KeptOut a (.fault r) := fun t e => by cases e
theorem keptOut_refused (a : State) (r : Refusal) : KeptOut a (.refused r) := fun t e => by cases e

theorem kept_ite {a x y : State} {c : Prop} [Decidable c] (hx : Kept a x) (hy : Kept a y) : Kept a (if c then x else y) := by
  split <;> assumption

theorem kept_foldl {α : Type} {a s : State} (f : State → α → State) (l : List α) (h : Kept a s) (hf : ∀ st x, Kept a st → Kept a (f st x)) :
    Kept a (l.foldl f s) := by
  induction l generalizing s with
  | nil => exact h
  | cons x l ih => exact ih (hf s x h)

/-- An update of any other part. -/
theorem kept_mk {a s : State}
    {clock' : Clock} {power' : Power} {sleep' : Sleep} {pads' : Pads} {straps' : Straps} {boot' : Boot} {running' : Running} {events' : EventVec}
    {polled' : Bool} {vaultBad' : List Nat} {keys' : List (KeyId × Bytes)} {sessions' : List Session} {crossTable' : List (Bytes × Bytes)}
    {portA' : PortSt} {portB' : PortSt} {tenants' : Vector Tenant 16} {stagingPlace' : Option Nat} {lanes' : Vector (Option LaneJob) 2}
    {commit' : Option Commit} {lastLane' : Nat} {commitWaits' : Bool} {fl : FlashSide} {audit' : Audit} {statements' : Statements} {badger' : Badger}
    {mailbox' : Mailbox} {link' : Link} {update' : Update} {debug' : Debug} {drbg' : Nat} {freeDrawn' : Nat}
    (hf : fl.chips = s.flash.chips) :
    Kept a
      ⟨s.pending, clock', power', sleep', pads', straps', s.otp, boot', running', events', polled', s.vault, vaultBad', s.sram, s.sramFill, s.den,
      s.denFill, keys', sessions', crossTable', portA', portB', tenants', stagingPlace', lanes', commit', lastLane', commitWaits', fl, audit',
      statements', badger', mailbox', link', update', debug', drbg', freeDrawn'⟩ ↔ Kept a s := by
  unfold Kept
  simp only [hf]

/-- The flash side under the named updates that leave it, as rewrite rules. -/
theorem flash_of_latch (s : State) (e : Nat) : (s.latch e).flash = s.flash := by cases s; rfl

theorem flash_of_modTenant (s : State) (t : TSlot) (f : Tenant → Tenant) : (s.modTenant t f).flash = s.flash := by cases s; rfl

theorem flash_of_setTenant (s : State) (t : TSlot) (x : Tenant) : (s.setTenant t x).flash = s.flash := by cases s; rfl

theorem flash_of_clearEvent (s : State) (e : Nat) : (s.clearEvent e).flash = s.flash := by cases s; rfl

/-! ### The primitive updates -/

theorem kept_otp {a s : State} {o : Otp} (h : Kept a s) (r : OtpRises s.otp o) : Kept a { s with otp := o } :=
  ⟨h.pending, otp_trans h.otp r, h.vault, h.sram, h.den, h.chip⟩

theorem kept_vault {a s : State} {v : Cells} (h : Kept a s) (w : Cells.wf erased s.vault = true → Cells.wf erased v = true) :
    Kept a { s with vault := v } :=
  ⟨h.pending, h.otp, fun c => w (h.vault c), h.sram, h.den, h.chip⟩

theorem kept_sram {a s : State} {m : Cells} {n : Nat} (h : Kept a s)
    (w : Cells.wf (fillOf s.sramFill) s.sram = true → Cells.wf (fillOf n) m = true) : Kept a { s with sram := m, sramFill := n } :=
  ⟨h.pending, h.otp, h.vault, fun c => w (h.sram c), h.den, h.chip⟩

theorem kept_den {a s : State} {m : Cells} {n : Nat} (h : Kept a s)
    (w : Cells.wf (fillOf s.denFill) s.den = true → Cells.wf (fillOf n) m = true) : Kept a { s with den := m, denFill := n } :=
  ⟨h.pending, h.otp, h.vault, h.sram, fun c => w (h.den c), h.chip⟩

/-- A chip's cells replaced by cells that keep the canonical form. -/
theorem kept_setCells {a s : State} (c : Fin 2) (m : Cells) (h : Kept a s)
    (w : Cells.wf erased (s.chip c).cells = true → Cells.wf erased m = true) : Kept a (s.setCells c m) := by
  refine ⟨h.pending, h.otp, h.vault, h.sram, h.den, fun k i => ?_⟩
  by_cases e : c = i
  · subst e
    simpa [State.setCells] using w (h.chip k c)
  · have : c.val ≠ i.val := fun q => e (Fin.ext q)
    simpa [State.setCells, Vector.getElem_set, this] using h.chip k i

end Sys2Proof.Laws
end

