-- ==== Sys2Proof/Laws/KeptBase.lean ====
section
/-! SUPPORT. One lemma per shared operation of these model files, in the relation of Kept.lean: Ops, AuditOps, StrapOps, KeyOps, LedgerOps, Flags, Operands. -/
namespace Sys2Proof.Laws
open Sys2Proof.Machine Sys2Proof.Safety

theorem kept_latch {a s : State} (e' : ℕ) (h : Kept a s) : Kept a (State.latch s e') := by
  unfold State.latch
  repeat' (first | with_reducible assumption | simp only [↓kept_mk])

theorem kept_latchIf {a s : State} (c : Bool) (e' : ℕ) (h : Kept a s) : Kept a (State.latchIf s c e') := by
  unfold State.latchIf
  repeat' (first | with_reducible assumption | with_reducible apply kept_latch | simp only [↓kept_mk] | with_reducible apply kept_ite)

theorem kept_clearEvent {a s : State} (e' : ℕ) (h : Kept a s) : Kept a (State.clearEvent s e') := by
  unfold State.clearEvent
  repeat' (first | with_reducible assumption | simp only [↓kept_mk])

theorem kept_random {a s : State} (n : ℕ) (h : Kept a s) : Kept a (State.random s n).2 := by
  unfold State.random
  repeat' (first | with_reducible assumption | simp only [↓kept_mk])
theorem kept_random_of {a s nx : State} {n : ℕ} {y} (e : (State.random s n) = (y, nx)) (h : Kept a s) : Kept a nx := by
  have := kept_random n h
  rwa [e] at this

theorem kept_freeBit {a s : State} (h : Kept a s) : Kept a (State.freeBit s).2 := by
  unfold State.freeBit
  repeat' (first | with_reducible assumption | simp only [↓kept_mk])
theorem kept_freeBit_of {a s nx : State} {y} (e : (State.freeBit s) = (y, nx)) (h : Kept a s) : Kept a nx := by
  have := kept_freeBit h
  rwa [e] at this

theorem kept_freeBelow {a s : State} (bound : ℕ) (h : Kept a s) : Kept a (State.freeBelow s bound).2 := by
  unfold State.freeBelow
  repeat' (first | with_reducible assumption | simp only [↓kept_mk])
theorem kept_freeBelow_of {a s nx : State} {bound : ℕ} {y} (e : (State.freeBelow s bound) = (y, nx)) (h : Kept a s) : Kept a nx := by
  have := kept_freeBelow bound h
  rwa [e] at this

theorem kept_freeBytes {a s : State} (n : ℕ) (h : Kept a s) : Kept a (State.freeBytes s n).2 := by
  unfold State.freeBytes
  repeat' (first | with_reducible assumption | simp only [↓kept_mk])
theorem kept_freeBytes_of {a s nx : State} {n : ℕ} {y} (e : (State.freeBytes s n) = (y, nx)) (h : Kept a s) : Kept a nx := by
  have := kept_freeBytes n h
  rwa [e] at this

theorem kept_vaultWrite {a s : State} (off : ℕ) (bs : Bytes) (h : Kept a s) : Kept a (State.vaultWrite s off bs) := by
  exact ⟨h.pending, h.otp, fun c => wf_writeRange (h.vault c) _ _, h.sram, h.den, h.chip⟩

theorem kept_vaultPut {a s : State} (off : ℕ) (n : ℕ) (h : Kept a s) : Kept a (State.vaultPut s off n) := by
  unfold State.vaultPut
  repeat' (first | with_reducible assumption | with_reducible apply kept_vaultWrite)

theorem kept_vaultErase {a s : State} (off : ℕ) (n : ℕ) (h : Kept a s) : Kept a (State.vaultErase s off n) := by
  exact ⟨h.pending, h.otp, fun c => wf_clearRange (h.vault c) _ _, h.sram, h.den, h.chip⟩

theorem kept_countUp {a s : State} (off : ℕ) (h : Kept a s) : Kept a (State.countUp s off) := by
  unfold State.countUp
  repeat' (first
    | with_reducible assumption | with_reducible apply kept_vaultPut | simp only [↓kept_mk] | with_reducible apply kept_ite
    | simp only [↓kept_mk, flash_of_latch, flash_of_modTenant, flash_of_setTenant] | split)

theorem kept_countUpTo {a s : State} (off : ℕ) (maximum : ℕ) (h : Kept a s) : Kept a (State.countUpTo s off maximum) := by
  unfold State.countUpTo
  repeat' (first | with_reducible assumption | with_reducible apply kept_countUp | simp only [↓kept_mk] | with_reducible apply kept_ite)

theorem kept_sramWrite {a s : State} (off : ℕ) (bs : Bytes) (h : Kept a s) : Kept a (State.sramWrite s off bs) := by
  exact ⟨h.pending, h.otp, h.vault, fun c => wf_writeRange (h.sram c) _ _, h.den, h.chip⟩

theorem kept_denWrite {a s : State} (off : ℕ) (bs : Bytes) (h : Kept a s) : Kept a (State.denWrite s off bs) := by
  exact ⟨h.pending, h.otp, h.vault, h.sram, fun c => wf_writeRange (h.den c) _ _, h.chip⟩

theorem kept_dropKey {a s : State} (k : KeyId) (h : Kept a s) : Kept a (State.dropKey s k) := by
  unfold State.dropKey
  repeat' (first | with_reducible assumption | simp only [↓kept_mk])

theorem kept_putKey {a s : State} (k : KeyId) (v : Bytes) (h : Kept a s) : Kept a (State.putKey s k v) := by
  unfold State.putKey
  repeat' (first | with_reducible assumption | simp only [↓kept_mk])

theorem kept_zeroiseKeys {a s : State} (h : Kept a s) : Kept a (State.zeroiseKeys s) := by
  unfold State.zeroiseKeys
  repeat' (first | with_reducible assumption | simp only [↓kept_mk])

theorem kept_setTenant {a s : State} (t : TSlot) (x : Tenant) (h : Kept a s) : Kept a (State.setTenant s t x) := by
  unfold State.setTenant
  repeat' (first | with_reducible assumption | simp only [↓kept_mk])

theorem kept_modTenant {a s : State} (t : TSlot) (f : Tenant → Tenant) (h : Kept a s) : Kept a (State.modTenant s t f) := by
  unfold State.modTenant
  repeat' (first | with_reducible assumption | with_reducible apply kept_setTenant)

theorem kept_setPort {a s : State} (p : Port) (x : PortSt) (h : Kept a s) : Kept a (State.setPort s p x) := by
  unfold State.setPort
  repeat' (first
    | with_reducible assumption | simp only [↓kept_mk] | with_reducible apply kept_ite
    | simp only [↓kept_mk, flash_of_latch, flash_of_modTenant, flash_of_setTenant] | split)

theorem kept_modPort {a s : State} (p : Port) (f : PortSt → PortSt) (h : Kept a s) : Kept a (State.modPort s p f) := by
  unfold State.modPort
  repeat' (first | with_reducible assumption | with_reducible apply kept_setPort)

theorem kept_driveAlert {a s : State} (p : Port) (low : Bool) (h : Kept a s) : Kept a (State.driveAlert s p low) := by
  unfold State.driveAlert
  repeat' (first
    | with_reducible assumption | simp only [↓kept_mk] | with_reducible apply kept_ite
    | simp only [↓kept_mk, flash_of_latch, flash_of_modTenant, flash_of_setTenant] | split)

theorem kept_endPulse {a s : State} (p : Port) (h : Kept a s) : Kept a (State.endPulse s p) := by
  unfold State.endPulse
  repeat' (first
    | with_reducible assumption | with_reducible apply kept_driveAlert | with_reducible apply kept_modPort | simp only [↓kept_mk]
    | with_reducible apply kept_ite)

theorem kept_endPulses {a s : State} (h : Kept a s) : Kept a (State.endPulses s) := by
  unfold State.endPulses
  repeat' (first | with_reducible assumption | with_reducible apply kept_endPulse)

theorem kept_setClock {a s : State} (c : Clock) (h : Kept a s) : Kept a (State.setClock s c) := by
  unfold State.setClock
  repeat' (first
    | with_reducible assumption | with_reducible apply kept_endPulses | simp only [↓kept_mk] | with_reducible apply kept_ite
    | simp only [↓kept_mk, flash_of_latch, flash_of_modTenant, flash_of_setTenant]
    | (with_reducible refine kept_foldl _ _ ?_ ?_; rotate_left; (intro st x hst)) | split | dsimp only | intro _)

theorem kept_pass {a s : State} (n : ℕ) (h : Kept a s) : Kept a (State.pass s n) := by
  unfold State.pass
  repeat' (first
    | with_reducible assumption | with_reducible apply kept_setClock | simp only [↓kept_mk] | with_reducible apply kept_ite
    | simp only [↓kept_mk, flash_of_latch, flash_of_modTenant, flash_of_setTenant]
    | (with_reducible refine kept_foldl _ _ ?_ ?_; rotate_left; (intro st x hst)) | split | dsimp only | intro _)

theorem kept_toPoll {a s : State} (e' : ℕ) (h : Kept a s) : Kept a (State.toPoll s e') := by
  unfold State.toPoll
  repeat' (first
    | with_reducible assumption | with_reducible apply kept_setClock | simp only [↓kept_mk] | with_reducible apply kept_ite
    | simp only [↓kept_mk, flash_of_latch, flash_of_modTenant, flash_of_setTenant]
    | (with_reducible refine kept_foldl _ _ ?_ ?_; rotate_left; (intro st x hst)) | split | dsimp only | intro _)

theorem kept_atPoll {a s : State} (e' : ℕ) (h : Kept a s) : Kept a (State.atPoll s e') := by
  unfold State.atPoll
  repeat' (first
    | with_reducible assumption | with_reducible apply kept_setClock | simp only [↓kept_mk] | with_reducible apply kept_ite
    | simp only [↓kept_mk, flash_of_latch, flash_of_modTenant, flash_of_setTenant]
    | (with_reducible refine kept_foldl _ _ ?_ ?_; rotate_left; (intro st x hst)) | split | dsimp only | intro _)

theorem kept_toStart {a s : State} (r : ℕ) (h : Kept a s) : Kept a (State.toStart s r) := by
  unfold State.toStart
  repeat' (first
    | with_reducible assumption | with_reducible apply kept_setClock | simp only [↓kept_mk] | with_reducible apply kept_ite
    | simp only [↓kept_mk, flash_of_latch, flash_of_modTenant, flash_of_setTenant]
    | (with_reducible refine kept_foldl _ _ ?_ ?_; rotate_left; (intro st x hst)) | split | dsimp only | intro _)

theorem kept_noteForCross {a s : State} (kind : Byte) (h : Kept a s) : Kept a (State.noteForCross s kind) := by
  unfold State.noteForCross
  repeat' (first | with_reducible assumption | simp only [↓kept_mk] | with_reducible apply kept_ite)

theorem kept_writeRecord {a s : State} (kind : Byte) (tenant : Byte) (time : Bytes) (body : Bytes) (h : Kept a s) : Kept a (State.writeRecord s kind tenant time body) := by
  unfold State.writeRecord
  repeat' (first
    | with_reducible assumption | with_reducible apply kept_noteForCross | with_reducible apply kept_vaultPut
    | with_reducible apply kept_vaultWrite | with_reducible apply kept_latch | simp only [↓kept_mk] | with_reducible apply kept_ite)

theorem kept_dropBatch {a s : State} (last : Bytes) (verified : Bool) (h : Kept a s) : Kept a (State.dropBatch s last verified) := by
  unfold State.dropBatch
  repeat' (first | with_reducible assumption | with_reducible apply kept_writeRecord | with_reducible apply kept_vaultWrite)

theorem kept_makeRoom {a s : State} (h : Kept a s) : Kept a (State.makeRoom s) := by
  unfold State.makeRoom
  repeat' (first
    | with_reducible assumption | with_reducible apply kept_dropBatch | simp only [↓kept_mk] | with_reducible apply kept_ite
    | simp only [↓kept_mk, flash_of_latch, flash_of_modTenant, flash_of_setTenant] | split)

theorem kept_settleSearch {a s : State} (h : Kept a s) : Kept a (State.settleSearch s) := by
  unfold State.settleSearch
  repeat' (first
    | with_reducible assumption | with_reducible apply kept_vaultPut | simp only [↓kept_mk] | with_reducible apply kept_ite
    | simp only [↓kept_mk, flash_of_latch, flash_of_modTenant, flash_of_setTenant] | split)

theorem kept_settleCase {a s : State} (h : Kept a s) : Kept a (State.settleCase s) := by
  unfold State.settleCase
  repeat' (first
    | with_reducible assumption | with_reducible apply kept_settleSearch | with_reducible apply kept_vaultPut | simp only [↓kept_mk]
    | with_reducible apply kept_ite | simp only [↓kept_mk, flash_of_latch, flash_of_modTenant, flash_of_setTenant] | split)

theorem kept_adoptNext {a s : State} (h : Kept a s) : Kept a (State.adoptNext s) := by
  unfold State.adoptNext
  repeat' (first
    | with_reducible assumption | with_reducible apply kept_vaultPut | simp only [↓kept_mk] | with_reducible apply kept_ite
    | simp only [↓kept_mk, flash_of_latch, flash_of_modTenant, flash_of_setTenant] | split)

theorem kept_settleHead {a s : State} (h : Kept a s) : Kept a (State.settleHead s) := by
  unfold State.settleHead
  repeat' (first
    | with_reducible assumption | with_reducible apply kept_adoptNext | with_reducible apply kept_settleCase | simp only [↓kept_mk]
    | with_reducible apply kept_ite)

theorem kept_appendNow {a s : State} (kind : Byte) (tenant : Byte) (time : Bytes) (body : Bytes) (h : Kept a s) : Kept a (State.appendNow s kind tenant time body) := by
  unfold State.appendNow
  repeat' (first
    | with_reducible assumption | with_reducible apply kept_settleHead | with_reducible apply kept_makeRoom
    | with_reducible apply kept_writeRecord | simp only [↓kept_mk] | with_reducible apply kept_ite)

theorem kept_enqueueRecord {a s : State} (r : AuditReq) (h : Kept a s) : Kept a (State.enqueueRecord s r) := by
  unfold State.enqueueRecord
  repeat' (first | with_reducible assumption | with_reducible apply kept_latch | simp only [↓kept_mk] | with_reducible apply kept_ite)

theorem kept_recordThen {a s : State} (kind : Byte) (tenant : Byte) (body : Bytes) (onCommit : OnCommit) (h : Kept a s) : Kept a (State.recordThen s kind tenant body onCommit) := by
  unfold State.recordThen
  repeat' (first
    | with_reducible assumption | with_reducible apply kept_enqueueRecord | with_reducible apply kept_appendNow | simp only [↓kept_mk]
    | with_reducible apply kept_ite)

theorem kept_record {a s : State} (kind : Byte) (tenant : Byte) (body : Bytes) (h : Kept a s) : Kept a (State.record s kind tenant body) := by
  unfold State.record
  repeat' (first | with_reducible assumption | with_reducible apply kept_recordThen)

theorem kept_recordLimited {a s : State} (kind : Byte) (tenant : Byte) (body : ℕ → Bytes) (h : Kept a s) : Kept a (State.recordLimited s kind tenant body) := by
  unfold State.recordLimited
  repeat' (first
    | with_reducible assumption | with_reducible apply kept_record | simp only [↓kept_mk] | with_reducible apply kept_ite
    | simp only [↓kept_mk, flash_of_latch, flash_of_modTenant, flash_of_setTenant] | split)

theorem kept_convert {a s : State} (uv : ℤ) (h : Kept a s) : Kept a (State.convert s uv).2 := by
  unfold State.convert
  repeat' (first
    | with_reducible assumption | with_reducible refine kept_freeBelow_of (by assumption) ?_ | with_reducible apply kept_freeBelow
    | with_reducible refine kept_freeBit_of (by assumption) ?_ | with_reducible apply kept_freeBit)
theorem kept_convert_of {a s nx : State} {uv : ℤ} {y} (e : (State.convert s uv) = (y, nx)) (h : Kept a s) : Kept a nx := by
  have := kept_convert uv h
  rwa [e] at this

theorem kept_convertAll {a s : State} (uvs : List ℤ) (h : Kept a s) : Kept a (State.convertAll s uvs).2 := by
  unfold State.convertAll
  suffices ∀ (l : List ℤ) (acc : List (ℕ × Bool × Bool) × State), Kept a acc.2 →
      Kept a (l.foldl (fun acc uv => let (c, s) := acc.2.convert uv; (acc.1 ++ [c], s)) acc).2 from this _ _ h
  intro l
  induction l with
  | nil => exact fun _ k => k
  | cons x l ih => exact fun acc k => ih _ (kept_convert x k)
theorem kept_convertAll_of {a s nx : State} {uvs : List ℤ} {y} (e : (State.convertAll s uvs) = (y, nx)) (h : Kept a s) : Kept a nx := by
  have := kept_convertAll uvs h
  rwa [e] at this

theorem kept_readStrap {a s : State} (bank : ℕ) (level : Option ℕ) (h : Kept a s) : Kept a (State.readStrap s bank level).2 := by
  unfold State.readStrap
  repeat' (first
    | with_reducible assumption | with_reducible refine kept_freeBit_of (by assumption) ?_ | with_reducible apply kept_freeBit
    | simp only [↓kept_mk] | with_reducible apply kept_ite | simp only [↓kept_mk, flash_of_latch, flash_of_modTenant, flash_of_setTenant]
    | split)
theorem kept_readStrap_of {a s nx : State} {bank : ℕ} {level : Option ℕ} {y} (e : (State.readStrap s bank level) = (y, nx)) (h : Kept a s) : Kept a nx := by
  have := kept_readStrap bank level h
  rwa [e] at this

theorem kept_readStraps {a s : State} (bank : ℕ) (levels : List (Option ℕ)) (h : Kept a s) : Kept a (State.readStraps s bank levels).2 := by
  unfold State.readStraps
  suffices ∀ (l : List (Option ℕ)) (acc : List Bool × State), Kept a acc.2 →
      Kept a (l.foldl (fun acc v => let (b, s) := acc.2.readStrap bank v; (acc.1 ++ [b], s)) acc).2 from this _ _ h
  intro l
  induction l with
  | nil => exact fun _ k => k
  | cons x l ih => exact fun acc k => ih _ (kept_readStrap bank x k)
theorem kept_readStraps_of {a s nx : State} {bank : ℕ} {levels : List (Option ℕ)} {y} (e : (State.readStraps s bank levels) = (y, nx)) (h : Kept a s) : Kept a nx := by
  have := kept_readStraps bank levels h
  rwa [e] at this

theorem kept_spendBit {a s : State} (h : Kept a s) : Kept a (State.spendBit s) := by
  unfold State.spendBit
  repeat' (first
    | with_reducible assumption | with_reducible apply kept_latch | simp only [↓kept_mk] | with_reducible apply kept_ite
    | simp only [↓kept_mk, flash_of_latch, flash_of_modTenant, flash_of_setTenant] | split)

theorem kept_pulse {a s : State} (c : OtpCell) (h : Kept a s) : Kept a (State.pulse s c) := by
  unfold State.pulse
  have k := kept_pass pulseSlots h
  apply kept_spendBit
  apply kept_latchIf
  apply kept_latch
  apply kept_ite
  · exact k
  · exact kept_otp k (program_rises _ _)

theorem kept_pulseAll {a s : State} (cs : List OtpCell) (h : Kept a s) : Kept a (State.pulseAll s cs).1 := by
  induction cs generalizing s with
  | nil => exact h
  | cons c rest ih =>
    unfold State.pulseAll
    split
    · exact h
    · exact ih (kept_pulse c h)
theorem kept_pulseAll_of {a s nx : State} {cs : List OtpCell} {y} (e : (State.pulseAll s cs) = (nx, y)) (h : Kept a s) : Kept a nx := by
  have := kept_pulseAll cs h
  rwa [e] at this

theorem kept_destroyKey {a s : State} (h : Kept a s) : Kept a (State.destroyKey s).1 := by
  unfold State.destroyKey
  repeat' (first
    | with_reducible assumption | with_reducible refine kept_pulseAll_of (by assumption) ?_ | with_reducible apply kept_pulseAll)
theorem kept_destroyKey_of {a s nx : State} {y} (e : (State.destroyKey s) = (nx, y)) (h : Kept a s) : Kept a nx := by
  have := kept_destroyKey h
  rwa [e] at this

theorem kept_generateKey {a s : State} (h : Kept a s) : Kept a (State.generateKey s).1 := by
  unfold State.generateKey
  repeat' (first
    | with_reducible assumption | with_reducible refine kept_pulseAll_of (by assumption) ?_ | with_reducible apply kept_pulseAll
    | with_reducible refine kept_random_of (by assumption) ?_ | with_reducible apply kept_random | simp only [↓kept_mk]
    | with_reducible apply kept_ite | simp only [↓kept_mk, flash_of_latch, flash_of_modTenant, flash_of_setTenant] | split)
theorem kept_generateKey_of {a s nx : State} {y} (e : (State.generateKey s) = (nx, y)) (h : Kept a s) : Kept a nx := by
  have := kept_generateKey h
  rwa [e] at this

theorem kept_load {a s : State} (k : KeyId) (v : Option Bytes) (h : Kept a s) : Kept a (State.load s k v) := by
  unfold State.load
  repeat' (first
    | with_reducible assumption | with_reducible apply kept_putKey | with_reducible apply kept_dropKey | simp only [↓kept_mk]
    | with_reducible apply kept_ite | simp only [↓kept_mk, flash_of_latch, flash_of_modTenant, flash_of_setTenant] | split)

theorem kept_unlockKeys {a s : State} (life : LifeCycle) (epoch : ℕ) (h : Kept a s) : Kept a (State.unlockKeys s life epoch) := by
  unfold State.unlockKeys
  repeat' (first | with_reducible assumption | with_reducible apply kept_load)

theorem kept_recordTorn {a s : State} (stage : ℕ) (reason : Byte) (would : ℕ) (h : Kept a s) : Kept a (State.recordTorn s stage reason would) := by
  unfold State.recordTorn
  repeat' (first | with_reducible assumption | with_reducible apply kept_record | simp only [↓kept_mk] | with_reducible apply kept_ite)

theorem kept_recordCommit {a s : State} (old : Bytes) (late : Bool) (cause : Byte) (h : Kept a s) : Kept a (State.recordCommit s old late cause) := by
  unfold State.recordCommit
  repeat' (first | with_reducible assumption | with_reducible apply kept_record | simp only [↓kept_mk])

theorem kept_writeHalf {a s : State} (b : Bool) (content : Bytes) (seq : ℕ) (cause : Byte) (h : Kept a s) : Kept a (State.writeHalf s b content seq cause) := by
  unfold State.writeHalf
  repeat' (first | with_reducible assumption | with_reducible apply kept_vaultWrite)

theorem kept_endUpdate {a s : State} (record : State → State) (h_record : ∀ st, Kept a st → Kept a (record st)) (h : Kept a s) : Kept a (State.endUpdate s record) := by
  unfold State.endUpdate
  repeat' (first
    | with_reducible assumption | with_reducible apply h_record | with_reducible apply kept_pass | simp only [↓kept_mk]
    | with_reducible apply kept_ite | simp only [↓kept_mk, flash_of_latch, flash_of_modTenant, flash_of_setTenant]
    | (with_reducible refine kept_foldl _ _ ?_ ?_; rotate_left; (intro st x hst)) | split | dsimp only | intro _)

theorem kept_ledgerUpdate {a s : State} (patches : List (ℕ × Bytes)) (cause : Byte) (tripIn : Option (Fin 4)) (h : Kept a s) : Kept a (State.ledgerUpdate s patches cause tripIn).1 := by
  unfold State.ledgerUpdate
  repeat' (first
    | with_reducible assumption | with_reducible apply kept_endUpdate | with_reducible apply kept_recordCommit
    | with_reducible apply kept_recordTorn | with_reducible apply kept_vaultPut | with_reducible apply kept_vaultWrite
    | with_reducible refine kept_freeBelow_of (by assumption) ?_ | with_reducible apply kept_freeBelow
    | with_reducible refine kept_freeBit_of (by assumption) ?_ | with_reducible apply kept_freeBit | simp only [↓kept_mk]
    | with_reducible apply kept_ite | simp only [↓kept_mk, flash_of_latch, flash_of_modTenant, flash_of_setTenant]
    | (with_reducible refine kept_foldl _ _ ?_ ?_; rotate_left; (intro st x hst)) | split | dsimp only | intro _)
theorem kept_ledgerUpdate_of {a s nx : State} {patches : List (ℕ × Bytes)} {cause : Byte} {tripIn : Option (Fin 4)} {y} (e : (State.ledgerUpdate s patches cause tripIn) = (nx, y)) (h : Kept a s) : Kept a nx := by
  have := kept_ledgerUpdate patches cause tripIn h
  rwa [e] at this

theorem kept_ledgerInit {a s : State} (h : Kept a s) : Kept a (State.ledgerInit s) := by
  unfold State.ledgerInit
  repeat' (first
    | with_reducible assumption | with_reducible apply kept_writeHalf | with_reducible apply kept_recordCommit
    | with_reducible apply kept_vaultPut | simp only [↓kept_mk])

theorem kept_tornFound {a s : State} (stage : ℕ) (would : ℕ) (h : Kept a s) : Kept a (State.tornFound s stage would) := by
  unfold State.tornFound
  repeat' (first
    | with_reducible assumption | with_reducible apply kept_recordTorn | with_reducible apply kept_countUpTo | simp only [↓kept_mk]
    | with_reducible apply kept_ite | simp only [↓kept_mk, flash_of_latch, flash_of_modTenant, flash_of_setTenant]
    | (with_reducible refine kept_foldl _ _ ?_ ?_; rotate_left; (intro st x hst)) | split | dsimp only | intro _)

theorem kept_repairHalf {a s : State} (live : Bool) (h : Kept a s) : Kept a (State.repairHalf s live) := by
  unfold State.repairHalf
  repeat' (first
    | with_reducible assumption | with_reducible refine kept_ledgerUpdate_of (by assumption) ?_ | with_reducible apply kept_ledgerUpdate
    | with_reducible apply kept_writeHalf | simp only [↓kept_mk] | with_reducible apply kept_ite
    | simp only [↓kept_mk, flash_of_latch, flash_of_modTenant, flash_of_setTenant]
    | (with_reducible refine kept_foldl _ _ ?_ ?_; rotate_left; (intro st x hst)) | split | dsimp only | intro _)

theorem kept_ledgerStart {a s : State} (h : Kept a s) : Kept a (State.ledgerStart s) := by
  unfold State.ledgerStart
  repeat' (first
    | with_reducible assumption | with_reducible apply kept_repairHalf | with_reducible apply kept_recordCommit
    | with_reducible apply kept_tornFound | with_reducible apply kept_vaultPut | simp only [↓kept_mk] | with_reducible apply kept_ite
    | simp only [↓kept_mk, flash_of_latch, flash_of_modTenant, flash_of_setTenant] | split)

theorem kept_writeRoot {a s : State} (t : TSlot) (ceiling : ℕ) (slots : List ℕ) (digest : Bytes) (h : Kept a s) : Kept a (State.writeRoot s t ceiling slots digest) := by
  unfold State.writeRoot
  repeat' (first | with_reducible assumption | with_reducible apply kept_vaultWrite)

theorem kept_refuse {a s : State} (t : TSlot) (reason : Byte) (opcode : Byte) (addr : ℕ) (attempt : ℕ) (h : Kept a s) : Kept a (State.refuse s t reason opcode addr attempt) := by
  unfold State.refuse
  repeat' (first
    | with_reducible assumption | with_reducible apply kept_recordLimited | with_reducible apply kept_modTenant | simp only [↓kept_mk]
    | with_reducible apply kept_ite)

theorem kept_clearWip {a s : State} (t : TSlot) (h : Kept a s) : Kept a (State.clearWip s t) := by
  unfold State.clearWip
  repeat' (first
    | with_reducible assumption | with_reducible apply kept_modPort | simp only [↓kept_mk] | with_reducible apply kept_ite
    | simp only [↓kept_mk, flash_of_latch, flash_of_modTenant, flash_of_setTenant] | split)

theorem kept_send {a s : State} (f : OutFrame) (h : Kept a s) : Kept a (State.send s f) := by
  unfold State.send
  repeat' (first | with_reducible assumption | simp only [↓kept_mk] | with_reducible apply kept_ite)

theorem kept_queueNotice {a s : State} (t : TSlot) (d : TenantDecl) (h : Kept a s) : Kept a (State.queueNotice s t d) := by
  unfold State.queueNotice
  repeat' (first
    | with_reducible assumption | with_reducible apply kept_send | simp only [↓kept_mk] | with_reducible apply kept_ite
    | simp only [↓kept_mk, flash_of_latch, flash_of_modTenant, flash_of_setTenant]
    | (with_reducible refine kept_foldl _ _ ?_ ?_; rotate_left; (intro st x hst)) | split | dsimp only | intro _)

theorem kept_sendNotice {a s : State} (t : TSlot) (d : TenantDecl) (h : Kept a s) : Kept a (State.sendNotice s t d) := by
  unfold State.sendNotice
  repeat' (first
    | with_reducible assumption | with_reducible apply kept_queueNotice | with_reducible apply kept_modTenant | simp only [↓kept_mk]
    | with_reducible apply kept_ite | simp only [↓kept_mk, flash_of_latch, flash_of_modTenant, flash_of_setTenant]
    | (with_reducible refine kept_foldl _ _ ?_ ?_; rotate_left; (intro st x hst)) | split | dsimp only | intro _)

theorem kept_setAlert {a s : State} (d : TenantDecl) (low : Bool) (again : Bool) (h : Kept a s) : Kept a (State.setAlert s d low again) := by
  unfold State.setAlert
  repeat' (first
    | with_reducible assumption | with_reducible apply kept_driveAlert | with_reducible apply kept_modPort | simp only [↓kept_mk]
    | with_reducible apply kept_ite | simp only [↓kept_mk, flash_of_latch, flash_of_modTenant, flash_of_setTenant] | split)

theorem kept_publish {a s : State} (t : TSlot) (h : Kept a s) : Kept a (State.publish s t) := by
  unfold State.publish
  repeat' (first
    | with_reducible assumption | with_reducible apply kept_setAlert | with_reducible apply kept_sendNotice
    | with_reducible apply kept_setTenant | simp only [↓kept_mk] | with_reducible apply kept_ite
    | simp only [↓kept_mk, flash_of_latch, flash_of_modTenant, flash_of_setTenant] | split)

end Sys2Proof.Laws
end

