-- ==== Sys2Proof/Laws/KeptFlash.lean ====
section
/-! SUPPORT. One lemma per shared operation of these model files, in the relation of Kept.lean: FlashOps, LifeOps, SupplyOps, LaneOps, CommitOps. -/
namespace Sys2Proof.Laws
open Sys2Proof.Machine Sys2Proof.Safety

theorem kept_order {a s : State} (c : Fin 2) (ops : Bytes) (h : Kept a s) : Kept a (State.order s c ops) := by
  unfold State.order
  repeat' (first
    | with_reducible assumption | simp only [↓kept_mk] | with_reducible apply kept_ite
    | simp only [↓kept_mk, flash_of_latch, flash_of_modTenant, flash_of_setTenant]
    | (with_reducible refine kept_foldl _ _ ?_ ?_; rotate_left; (intro st x hst)) | split | dsimp only | intro _)

theorem kept_discoverAs {a s : State} (c : Fin 2) (row : ℕ) (h : Kept a s) : Kept a (State.discoverAs s c row) := by
  unfold State.discoverAs
  repeat' (first
    | with_reducible assumption | with_reducible apply kept_order | with_reducible apply kept_latch | simp only [↓kept_mk]
    | with_reducible apply kept_ite | simp only [↓kept_mk, flash_of_latch, flash_of_modTenant, flash_of_setTenant]
    | (with_reducible refine kept_foldl _ _ ?_ ?_; rotate_left; (intro st x hst)) | split | dsimp only | intro _)

theorem kept_discover {a s : State} (c : Fin 2) (h : Kept a s) : Kept a (State.discover s c) := by
  unfold State.discover
  repeat' (first
    | with_reducible assumption | with_reducible apply kept_discoverAs | simp only [↓kept_mk] | with_reducible apply kept_ite
    | simp only [↓kept_mk, flash_of_latch, flash_of_modTenant, flash_of_setTenant]
    | (with_reducible refine kept_foldl _ _ ?_ ?_; rotate_left; (intro st x hst)) | split | dsimp only | intro _)

theorem kept_startTask {a s : State} (owner : OpOwner) (t : FlashTask) (h : Kept a s) : Kept a (State.startTask s owner t) := by
  unfold State.startTask
  repeat' (first
    | with_reducible assumption | with_reducible apply kept_order | simp only [↓kept_mk] | with_reducible apply kept_ite
    | simp only [↓kept_mk, flash_of_latch, flash_of_modTenant, flash_of_setTenant]
    | (with_reducible refine kept_foldl _ _ ?_ ?_; rotate_left; (intro st x hst)) | split | dsimp only | intro _)

theorem kept_fetchOrder {a s : State} (c : Fin 2) (h : Kept a s) : Kept a (State.fetchOrder s c) := by
  unfold State.fetchOrder
  repeat' (first
    | with_reducible assumption | with_reducible apply kept_order | with_reducible apply kept_latch | simp only [↓kept_mk]
    | with_reducible apply kept_ite | simp only [↓kept_mk, flash_of_latch, flash_of_modTenant, flash_of_setTenant]
    | (with_reducible refine kept_foldl _ _ ?_ ?_; rotate_left; (intro st x hst)) | split | dsimp only | intro _)

theorem kept_endOp {a s : State} (c : Fin 2) (h : Kept a s) : Kept a (State.endOp s c) := by
  unfold State.endOp
  repeat' (first | with_reducible assumption | simp only [↓kept_mk])

theorem kept_applyTask {a s : State} (t : FlashTask) (h : Kept a s) : Kept a (State.applyTask s t) := by
  unfold State.applyTask
  dsimp only
  split
  · exact kept_ite h (kept_setCells _ _ h (fun w => wf_program w _ _))
  · have k : Kept a (if (s.chip t.chip).ignores.contains (t.addr / 4096) then s
        else s.setCells t.chip ((s.chip t.chip).cells.clearRange t.span.1 4096)) :=
      kept_ite h (kept_setCells _ _ h (fun w => wf_clearRange w _ _))
    exact ⟨k.pending, k.otp, k.vault, k.sram, k.den, k.chip⟩
  · exact kept_setCells _ _ h (fun w => wf_clearRanges _ w _)

theorem kept_spoilTask {a s : State} (t : FlashTask) (h : Kept a s) : Kept a (State.spoilTask s t) := by
  unfold State.spoilTask
  split
  rename_i e
  exact kept_setCells _ _ (kept_freeBytes_of e h) (fun w => wf_writeRange w _ _)

theorem kept_flashFault {a s : State} (ref : ℕ) (cause : Byte) (op : Byte) (retired : Bool) (h : Kept a s) : Kept a (State.flashFault s ref cause op retired) := by
  unfold State.flashFault
  repeat' (first | with_reducible assumption | with_reducible apply kept_record)

theorem kept_retire {a s : State} (ref : ℕ) (h : Kept a s) : Kept a (State.retire s ref) := by
  unfold State.retire
  repeat' (first | with_reducible assumption | with_reducible apply kept_latchIf | simp only [↓kept_mk])

theorem kept_queueErase {a s : State} (ref : ℕ) (h : Kept a s) : Kept a (State.queueErase s ref) := by
  unfold State.queueErase
  repeat' (first | with_reducible assumption | simp only [↓kept_mk] | with_reducible apply kept_ite)

theorem kept_commitTrip {a s : State} (h : Kept a s) : Kept a (State.commitTrip s) := by
  unfold State.commitTrip
  repeat' (first
    | with_reducible assumption | with_reducible apply kept_order | with_reducible apply kept_latchIf | simp only [↓kept_mk]
    | with_reducible apply kept_ite | simp only [↓kept_mk, flash_of_latch, flash_of_modTenant, flash_of_setTenant]
    | (with_reducible refine kept_foldl _ _ ?_ ?_; rotate_left; (intro st x hst)) | split | dsimp only | intro _)

theorem kept_hold {a s : State} (stage : BootStage) (h : Kept a s) : Kept a (State.hold s stage) := by
  unfold State.hold
  repeat' (first | with_reducible assumption | with_reducible apply kept_zeroiseKeys | simp only [↓kept_mk])

theorem kept_holdWith {a s : State} (reason : Byte) (h : Kept a s) : Kept a (State.holdWith s reason) := by
  unfold State.holdWith
  repeat' (first | with_reducible assumption | with_reducible apply kept_hold | with_reducible apply kept_appendNow)

theorem kept_noteBit {a s : State} (n : ℕ) (h : Kept a s) : Kept a (State.noteBit s n) := by
  unfold State.noteBit
  repeat' (first | with_reducible assumption | simp only [↓kept_mk])

theorem kept_lifeRecord {a s : State} (phase : Byte) (old : LifeCycle) (new : LifeCycle) (signed : Bool) (completion : Bool) (ignored : Bool) (h : Kept a s) : Kept a (State.lifeRecord s phase old new signed completion ignored) := by
  unfold State.lifeRecord
  repeat' (first | with_reducible assumption | with_reducible apply kept_appendNow)

theorem kept_genesis {a s : State} (life : LifeCycle) (h : Kept a s) : Kept a (State.genesis s life) := by
  unfold State.genesis
  repeat' (first | with_reducible assumption | with_reducible apply kept_writeRecord)

theorem kept_eraseReturned {a s : State} (h : Kept a s) : Kept a (State.eraseReturned s) := by
  unfold State.eraseReturned
  repeat' (first | with_reducible assumption | with_reducible apply kept_vaultErase)

theorem kept_eraseReopen {a s : State} (h : Kept a s) : Kept a (State.eraseReopen s) := by
  unfold State.eraseReopen
  repeat' (first | with_reducible assumption | with_reducible apply kept_vaultErase)

theorem kept_retireUnsigned {a s : State} (h : Kept a s) : Kept a (State.retireUnsigned s) := by
  unfold State.retireUnsigned
  repeat' (first
    | with_reducible assumption | with_reducible refine kept_ledgerUpdate_of (by assumption) ?_ | with_reducible apply kept_ledgerUpdate
    | simp only [↓kept_mk] | with_reducible apply kept_ite | simp only [↓kept_mk, flash_of_latch, flash_of_modTenant, flash_of_setTenant]
    | split)

theorem kept_wipe {a s : State} (old : LifeCycle) (new : LifeCycle) (h : Kept a s) : Kept a (State.wipe s old new).1 := by
  unfold State.wipe
  repeat' (first
    | with_reducible assumption | with_reducible apply kept_retireUnsigned | with_reducible apply kept_eraseReturned
    | with_reducible apply kept_genesis | with_reducible apply kept_ledgerInit | with_reducible apply kept_unlockKeys
    | with_reducible refine kept_generateKey_of (by assumption) ?_ | with_reducible apply kept_generateKey
    | with_reducible refine kept_destroyKey_of (by assumption) ?_ | with_reducible apply kept_destroyKey
    | with_reducible apply kept_zeroiseKeys | with_reducible apply kept_vaultErase | simp only [↓kept_mk] | with_reducible apply kept_ite
    | simp only [↓kept_mk, flash_of_latch, flash_of_modTenant, flash_of_setTenant] | split)
theorem kept_wipe_of {a s nx : State} {old : LifeCycle} {new : LifeCycle} {y} (e : (State.wipe s old new) = (nx, y)) (h : Kept a s) : Kept a nx := by
  have := kept_wipe old new h
  rwa [e] at this

theorem kept_endTransition {a s : State} (old : LifeCycle) (new : LifeCycle) (signed : Bool) (completion : Bool) (ignored : Bool) (h : Kept a s) : Kept a (State.endTransition s old new signed completion ignored).1 := by
  unfold State.endTransition
  repeat' (first
    | with_reducible assumption | with_reducible apply kept_lifeRecord | with_reducible apply kept_holdWith
    | with_reducible apply kept_hold | with_reducible refine kept_pulseAll_of (by assumption) ?_ | with_reducible apply kept_pulseAll
    | with_reducible apply kept_latch | simp only [↓kept_mk] | with_reducible apply kept_ite
    | simp only [↓kept_mk, flash_of_latch, flash_of_modTenant, flash_of_setTenant] | split)
theorem kept_endTransition_of {a s nx : State} {old : LifeCycle} {new : LifeCycle} {signed : Bool} {completion : Bool} {ignored : Bool} {y} (e : (State.endTransition s old new signed completion ignored) = (nx, y)) (h : Kept a s) : Kept a nx := by
  have := kept_endTransition old new signed completion ignored h
  rwa [e] at this

theorem kept_topUp {a s : State} (h : Kept a s) : Kept a (State.topUp s) := by
  unfold State.topUp
  repeat' (first
    | with_reducible assumption | with_reducible apply kept_noteBit | with_reducible refine kept_pulseAll_of (by assumption) ?_
    | with_reducible apply kept_pulseAll | simp only [↓kept_mk] | with_reducible apply kept_ite
    | simp only [↓kept_mk, flash_of_latch, flash_of_modTenant, flash_of_setTenant]
    | (with_reducible refine kept_foldl _ _ ?_ ?_; rotate_left; (intro st x hst)))

theorem kept_takeRequest {a s : State} (h : Kept a s) : Kept a (State.takeRequest s) := by
  unfold State.takeRequest
  repeat' (first
    | with_reducible assumption | simp only [↓kept_mk] | with_reducible apply kept_ite
    | simp only [↓kept_mk, flash_of_latch, flash_of_modTenant, flash_of_setTenant]
    | (with_reducible refine kept_foldl _ _ ?_ ?_; rotate_left; (intro st x hst)) | split | dsimp only | intro _)

theorem kept_writeMark {a s : State} (h : Kept a s) : Kept a (State.writeMark s) := by
  unfold State.writeMark
  repeat' (first
    | with_reducible assumption | with_reducible apply kept_vaultWrite | simp only [↓kept_mk] | with_reducible apply kept_ite
    | simp only [↓kept_mk, flash_of_latch, flash_of_modTenant, flash_of_setTenant]
    | (with_reducible refine kept_foldl _ _ ?_ ?_; rotate_left; (intro st x hst)) | split | dsimp only | intro _)

theorem kept_drawChallenge {a s : State} (h : Kept a s) : Kept a (State.drawChallenge s) := by
  unfold State.drawChallenge
  repeat' (first
    | with_reducible assumption | with_reducible apply kept_vaultPut | with_reducible apply kept_vaultWrite
    | with_reducible refine kept_random_of (by assumption) ?_ | with_reducible apply kept_random | simp only [↓kept_mk]
    | with_reducible apply kept_ite)

theorem kept_rejectRecord {a s : State} (payload : Cbor) (kinds : List ℕ) (reason : Byte) (h : Kept a s) : Kept a (State.rejectRecord s payload kinds reason) := by
  unfold State.rejectRecord
  repeat' (first | with_reducible assumption | with_reducible apply kept_appendNow)

theorem kept_programField {a s : State} (first : ℕ) (lock : ℕ) (values : List (BitVec 32)) (setsLock : Bool) (h : Kept a s) : Kept a (State.programField s first lock values setsLock) := by
  unfold State.programField
  repeat' (first
    | with_reducible assumption | with_reducible refine kept_pulseAll_of (by assumption) ?_ | with_reducible apply kept_pulseAll
    | with_reducible apply kept_record | simp only [↓kept_mk] | with_reducible apply kept_ite
    | simp only [↓kept_mk, flash_of_latch, flash_of_modTenant, flash_of_setTenant]
    | (with_reducible refine kept_foldl _ _ ?_ ?_; rotate_left; (intro st x hst)) | split | dsimp only | intro _)

theorem kept_programLocks {a s : State} (mask : BitVec 32) (v : BitVec 32) (h : Kept a s) : Kept a (State.programLocks s mask v) := by
  unfold State.programLocks
  repeat' (first
    | with_reducible assumption | with_reducible refine kept_pulseAll_of (by assumption) ?_ | with_reducible apply kept_pulseAll
    | with_reducible apply kept_record | simp only [↓kept_mk] | with_reducible apply kept_ite
    | simp only [↓kept_mk, flash_of_latch, flash_of_modTenant, flash_of_setTenant]
    | (with_reducible refine kept_foldl _ _ ?_ ?_; rotate_left; (intro st x hst)) | split | dsimp only | intro _)

theorem kept_testWord {a s : State} (w : ℕ) (v : BitVec 32) (h : Kept a s) : Kept a (State.testWord s w v) := by
  unfold State.testWord
  repeat' (first
    | with_reducible assumption | with_reducible apply kept_programLocks | with_reducible apply kept_programField | simp only [↓kept_mk]
    | with_reducible apply kept_ite | simp only [↓kept_mk, flash_of_latch, flash_of_modTenant, flash_of_setTenant]
    | (with_reducible refine kept_foldl _ _ ?_ ?_; rotate_left; (intro st x hst)) | split | dsimp only | intro _)

theorem kept_provision {a s : State} (p : Cbor) (h : Kept a s) : Kept a (State.provision s p) := by
  unfold State.provision
  repeat' (first
    | with_reducible assumption | with_reducible apply kept_programLocks | with_reducible apply kept_programField | simp only [↓kept_mk]
    | with_reducible apply kept_ite | simp only [↓kept_mk, flash_of_latch, flash_of_modTenant, flash_of_setTenant] | split)

theorem kept_spoilOp {a s : State} (c : Fin 2) (h : Kept a s) : Kept a (State.spoilOp s c) := by
  unfold State.spoilOp
  repeat' (first
    | with_reducible assumption | with_reducible apply kept_spoilTask | simp only [↓kept_mk] | with_reducible apply kept_ite
    | simp only [↓kept_mk, flash_of_latch, flash_of_modTenant, flash_of_setTenant] | split)

theorem kept_cutVault {a s : State} (h : Kept a s) : Kept a (State.cutVault s) := by
  unfold State.cutVault
  repeat' (first
    | with_reducible assumption | with_reducible apply kept_vaultWrite | with_reducible refine kept_freeBelow_of (by assumption) ?_
    | with_reducible apply kept_freeBelow | simp only [↓kept_mk] | with_reducible apply kept_ite
    | simp only [↓kept_mk, flash_of_latch, flash_of_modTenant, flash_of_setTenant]
    | (with_reducible refine kept_foldl _ _ ?_ ?_; rotate_left; (intro st x hst)) | split)

theorem kept_brownOut {a s : State} (cause : ℕ) (h : Kept a s) : Kept a (State.brownOut s cause) := by
  have k := kept_cutVault (kept_spoilOp 1 (kept_spoilOp 0 h))
  unfold State.brownOut
  exact ⟨k.pending, k.otp, k.vault, fun _ => wf_nil _, fun _ => wf_nil _, k.chip⟩

theorem kept_fallTo {a s : State} (vbat : ℕ) (h : Kept a s) : Kept a (State.fallTo s vbat) := by
  unfold State.fallTo
  repeat' (first
    | with_reducible assumption | simp only [↓kept_mk] | with_reducible apply kept_ite
    | simp only [↓kept_mk, flash_of_latch, flash_of_modTenant, flash_of_setTenant]
    | (with_reducible refine kept_foldl _ _ ?_ ?_; rotate_left; (intro st x hst)) | split | dsimp only | intro _)

theorem kept_release {a s : State} (vbat : ℕ) (vddioH : ℕ) (vddioF : ℕ) (h : Kept a s) : Kept a (State.release s vbat vddioH vddioF) := by
  unfold State.release
  repeat' (first | with_reducible assumption | with_reducible apply kept_brownOut | simp only [↓kept_mk] | with_reducible apply kept_ite)

theorem kept_sampleStraps {a s : State} (i : StrapInputs) (h : Kept a s) : Kept a (State.sampleStraps s i) := by
  unfold State.sampleStraps
  repeat' (first
    | with_reducible assumption | with_reducible refine kept_readStraps_of (by assumption) ?_ | with_reducible apply kept_readStraps
    | with_reducible refine kept_convertAll_of (by assumption) ?_ | with_reducible apply kept_convertAll | simp only [↓kept_mk])

theorem kept_openWindow {a s : State} (i : StrapInputs) (h : Kept a s) : Kept a (State.openWindow s i) := by
  unfold State.openWindow
  repeat' (first
    | with_reducible assumption | with_reducible apply kept_sampleStraps | with_reducible apply kept_latch | simp only [↓kept_mk])

theorem kept_latchKeepers {a s : State} (fstrap : Option ℕ) (astrap : Option ℕ) (alertb : Option ℕ) (h : Kept a s) : Kept a (State.latchKeepers s fstrap astrap alertb) := by
  unfold State.latchKeepers
  repeat' (first
    | with_reducible assumption | with_reducible refine kept_readStrap_of (by assumption) ?_ | with_reducible apply kept_readStrap
    | simp only [↓kept_mk] | with_reducible apply kept_ite | simp only [↓kept_mk, flash_of_latch, flash_of_modTenant, flash_of_setTenant]
    | (with_reducible refine kept_foldl _ _ ?_ ?_; rotate_left; (intro st x hst)) | split | dsimp only | intro _)

theorem kept_endWindow {a s : State} (h : Kept a s) : Kept a (State.endWindow s) := by
  unfold State.endWindow
  repeat' (first | with_reducible assumption | simp only [↓kept_mk])

theorem kept_trainEdge {a s : State} (slot : ℕ) (level : Bool) (h : Kept a s) : Kept a (State.trainEdge s slot level) := by
  unfold State.trainEdge
  repeat' (first | with_reducible assumption | simp only [↓kept_mk])

theorem kept_stageLeaf {a s : State} (t : TSlot) (d : TenantDecl) (i : ℕ) (content : Bytes) (h : Kept a s) : Kept a (State.stageLeaf s t d i content) := by
  unfold State.stageLeaf
  repeat' (first
    | with_reducible assumption | with_reducible apply kept_setTenant | with_reducible apply kept_denWrite | simp only [↓kept_mk]
    | with_reducible apply kept_ite | simp only [↓kept_mk, flash_of_latch, flash_of_modTenant, flash_of_setTenant] | split)

theorem kept_stageRest {a s : State} (t : TSlot) (d : TenantDecl) (m : Manifest) (x4 : ℕ) (h : Kept a s) : Kept a (State.stageRest s t d m x4) := by
  induction x4 generalizing s with
  | zero => exact h
  | succ fuel ih =>
    unfold State.stageRest
    split
    · exact h
    · split
      · exact ih (kept_stageLeaf _ _ _ _ h)
      · exact h

theorem kept_sendRefuse {a s : State} (dest : Dest) (request : ℕ) (kind : ℕ) (reason : Byte) (addr : ℕ) (retry : ℕ) (sealed : Bool) (h : Kept a s) : Kept a (State.sendRefuse s dest request kind reason addr retry sealed) := by
  unfold State.sendRefuse
  repeat' (first | with_reducible assumption | with_reducible apply kept_send)

theorem kept_answerLink {a s : State} (t : TSlot) (d : TenantDecl) (r : LinkRequest) (outcome : Byte) (h : Kept a s) : Kept a (State.answerLink s t d r outcome) := by
  unfold State.answerLink
  repeat' (first
    | with_reducible assumption | with_reducible apply kept_sendRefuse | with_reducible apply kept_send
    | with_reducible apply kept_modTenant | simp only [↓kept_mk] | with_reducible apply kept_ite
    | simp only [↓kept_mk, flash_of_latch, flash_of_modTenant, flash_of_setTenant]
    | (with_reducible refine kept_foldl _ _ ?_ ?_; rotate_left; (intro st x hst)) | split | dsimp only | intro _)

theorem kept_endReads {a s : State} (t : TSlot) (kind : ℕ) (addr : ℕ) (outcome : Byte) (h : Kept a s) : Kept a (State.endReads s t kind addr outcome) := by
  unfold State.endReads
  repeat' (first
    | with_reducible assumption | with_reducible apply kept_answerLink | simp only [↓kept_mk] | with_reducible apply kept_ite
    | simp only [↓kept_mk, flash_of_latch, flash_of_modTenant, flash_of_setTenant]
    | (with_reducible refine kept_foldl _ _ ?_ ?_; rotate_left; (intro st x hst)) | split | dsimp only | intro _)

theorem kept_refuseChain {a s : State} (t : TSlot) (c : Chain) (reason : Byte) (h : Kept a s) : Kept a (State.refuseChain s t c reason) := by
  unfold State.refuseChain
  repeat' (first | with_reducible assumption | with_reducible apply kept_modTenant)

theorem kept_leafFail {a s : State} (t : TSlot) (leaf : ℕ) (sector : ℕ) (link : Byte) (h : Kept a s) : Kept a (State.leafFail s t leaf sector link) := by
  unfold State.leafFail
  repeat' (first | with_reducible assumption | with_reducible apply kept_recordLimited)

theorem kept_chainFailed {a s : State} (t : TSlot) (d : TenantDecl) (leaf : ℕ) (k : LeafKind) (sector : ℕ) (h : Kept a s) : Kept a (State.chainFailed s t d leaf k sector) := by
  unfold State.chainFailed
  repeat' (first | with_reducible assumption | with_reducible apply kept_leafFail | with_reducible apply kept_modTenant)

theorem kept_chainPassed {a s : State} (t : TSlot) (d : TenantDecl) (j : LaneJob) (plain : Bytes) (h : Kept a s) : Kept a (State.chainPassed s t d j plain) := by
  unfold State.chainPassed
  repeat' (first
    | with_reducible assumption | with_reducible apply kept_modTenant | simp only [↓kept_mk] | with_reducible apply kept_ite
    | simp only [↓kept_mk, flash_of_latch, flash_of_modTenant, flash_of_setTenant]
    | (with_reducible refine kept_foldl _ _ ?_ ?_; rotate_left; (intro st x hst)) | split | dsimp only | intro _)

theorem kept_setLane {a s : State} (l : Fin 2) (j : Option LaneJob) (h : Kept a s) : Kept a (State.setLane s l j) := by
  unfold State.setLane
  repeat' (first | with_reducible assumption | simp only [↓kept_mk])

theorem kept_takeLane {a s : State} (l : Fin 2) (j : LaneJob) (h : Kept a s) : Kept a (State.takeLane s l j) := by
  unfold State.takeLane
  repeat' (first
    | with_reducible assumption | with_reducible apply kept_setLane | with_reducible apply kept_fetchOrder | simp only [↓kept_mk]
    | with_reducible apply kept_ite | simp only [↓kept_mk, flash_of_latch, flash_of_modTenant, flash_of_setTenant]
    | (with_reducible refine kept_foldl _ _ ?_ ?_; rotate_left; (intro st x hst)) | split | dsimp only | intro _)

theorem kept_refuseDead {a s : State} (m : Manifest) (t : TSlot) (d : TenantDecl) (h : Kept a s) : Kept a (State.refuseDead s m t d) := by
  unfold State.refuseDead
  repeat' (first
    | with_reducible assumption | with_reducible apply kept_refuseChain | simp only [↓kept_mk] | with_reducible apply kept_ite
    | simp only [↓kept_mk, flash_of_latch, flash_of_modTenant, flash_of_setTenant]
    | (with_reducible refine kept_foldl _ _ ?_ ?_; rotate_left; (intro st x hst)) | split | dsimp only | intro _)

theorem kept_refuseAllDead {a s : State} (h : Kept a s) : Kept a (State.refuseAllDead s) := by
  unfold State.refuseAllDead
  repeat' (first
    | with_reducible assumption | with_reducible apply kept_refuseDead | simp only [↓kept_mk] | with_reducible apply kept_ite
    | simp only [↓kept_mk, flash_of_latch, flash_of_modTenant, flash_of_setTenant]
    | (with_reducible refine kept_foldl _ _ ?_ ?_; rotate_left; (intro st x hst)) | split | dsimp only | intro _)

theorem kept_serveChain {a s : State} (m : Manifest) (t : TSlot) (d : TenantDecl) (lane : Fin 2) (h : Kept a s) : Kept a (State.serveChain s m t d lane) := by
  unfold State.serveChain
  repeat' (first
    | with_reducible assumption | with_reducible apply kept_refuseDead | with_reducible apply kept_takeLane
    | with_reducible apply kept_modTenant | simp only [↓kept_mk] | with_reducible apply kept_ite
    | simp only [↓kept_mk, flash_of_latch, flash_of_modTenant, flash_of_setTenant]
    | (with_reducible refine kept_foldl _ _ ?_ ?_; rotate_left; (intro st x hst)) | split | dsimp only | intro _)

theorem kept_queueVault {a s : State} (words : List (ℕ × Bytes)) (wip : Option TSlot) (h : Kept a s) : Kept a (State.queueVault s words wip) := by
  unfold State.queueVault
  repeat' (first | with_reducible assumption | simp only [↓kept_mk])

theorem kept_clearMark {a s : State} (t : TSlot) (h : Kept a s) : Kept a (State.clearMark s t) := by
  unfold State.clearMark
  repeat' (first | with_reducible assumption | with_reducible apply kept_queueVault)

theorem kept_pushCeiling {a s : State} (t : TSlot) (b : Bytes) (h : Kept a s) : Kept a (State.pushCeiling s t b) := by
  unfold State.pushCeiling
  repeat' (first
    | with_reducible assumption | with_reducible apply kept_writeRoot | simp only [↓kept_mk] | with_reducible apply kept_ite
    | simp only [↓kept_mk, flash_of_latch, flash_of_modTenant, flash_of_setTenant]
    | (with_reducible refine kept_foldl _ _ ?_ ?_; rotate_left; (intro st x hst)) | split | dsimp only | intro _)

theorem kept_raiseCeiling {a s : State} (t : TSlot) (h : Kept a s) : Kept a (State.raiseCeiling s t) := by
  unfold State.raiseCeiling
  repeat' (first
    | with_reducible assumption | with_reducible apply kept_pushCeiling | with_reducible apply kept_setTenant | simp only [↓kept_mk]
    | with_reducible apply kept_ite | simp only [↓kept_mk, flash_of_latch, flash_of_modTenant, flash_of_setTenant]
    | (with_reducible refine kept_foldl _ _ ?_ ?_; rotate_left; (intro st x hst)) | split | dsimp only | intro _)

theorem kept_acceptProgram {a s : State} (t : TSlot) (d : TenantDecl) (w : PendingWrite) (addr : ℕ) (data : Bytes) (h : Kept a s) : Kept a (State.acceptProgram s t d w addr data) := by
  unfold State.acceptProgram
  repeat' (first
    | with_reducible assumption | with_reducible apply kept_raiseCeiling | with_reducible apply kept_queueVault
    | with_reducible apply kept_modTenant | simp only [↓kept_mk] | with_reducible apply kept_ite)

theorem kept_acceptErase {a s : State} (t : TSlot) (d : TenantDecl) (w : PendingWrite) (h : Kept a s) : Kept a (State.acceptErase s t d w) := by
  unfold State.acceptErase
  repeat' (first | with_reducible assumption | with_reducible apply kept_modTenant)

theorem kept_failCommit {a s : State} (cause : Byte) (fault : ℕ) (h : Kept a s) : Kept a (State.failCommit s cause fault) := by
  unfold State.failCommit
  repeat' (first
    | with_reducible assumption | with_reducible apply kept_queueErase | with_reducible apply kept_recordThen
    | with_reducible apply kept_setTenant | simp only [↓kept_mk] | with_reducible apply kept_ite
    | simp only [↓kept_mk, flash_of_latch, flash_of_modTenant, flash_of_setTenant] | split)

theorem kept_mergeFailed {a s : State} (d : TenantDecl) (c : Commit) (k : LeafKind) (no : ℕ) (sector : ℕ) (h : Kept a s) : Kept a (State.mergeFailed s d c k no sector) := by
  unfold State.mergeFailed
  repeat' (first | with_reducible assumption | with_reducible apply kept_failCommit | with_reducible apply kept_chainFailed)

theorem kept_commitC2 {a s : State} (c : Commit) (h : Kept a s) : Kept a (State.commitC2 s c) := by
  unfold State.commitC2
  repeat' (first
    | with_reducible assumption | with_reducible apply kept_raiseCeiling | with_reducible apply kept_setTenant | simp only [↓kept_mk]
    | with_reducible apply kept_ite | simp only [↓kept_mk, flash_of_latch, flash_of_modTenant, flash_of_setTenant]
    | (with_reducible refine kept_foldl _ _ ?_ ?_; rotate_left; (intro st x hst)) | split | dsimp only | intro _)

theorem kept_commitBlank {a s : State} (c : Commit) (h : Kept a s) : Kept a (State.commitBlank s c) := by
  unfold State.commitBlank
  repeat' (first
    | with_reducible assumption | with_reducible apply kept_commitC2 | with_reducible apply kept_flashFault
    | with_reducible apply kept_latch | simp only [↓kept_mk] | with_reducible apply kept_ite)

theorem kept_commitC1 {a s : State} (c : Commit) (h : Kept a s) : Kept a (State.commitC1 s c) := by
  unfold State.commitC1
  repeat' (first
    | with_reducible assumption | with_reducible apply kept_commitBlank | with_reducible apply kept_failCommit
    | with_reducible apply kept_latch | simp only [↓kept_mk] | with_reducible apply kept_ite
    | simp only [↓kept_mk, flash_of_latch, flash_of_modTenant, flash_of_setTenant]
    | (with_reducible refine kept_foldl _ _ ?_ ?_; rotate_left; (intro st x hst)) | split | dsimp only | intro _)

theorem kept_commitWrite {a s : State} (m : Manifest) (d : TenantDecl) (c : Commit) (h : Kept a s) : Kept a (State.commitWrite s m d c) := by
  unfold State.commitWrite
  repeat' (first
    | with_reducible assumption | with_reducible apply kept_failCommit | simp only [↓kept_mk] | with_reducible apply kept_ite
    | simp only [↓kept_mk, flash_of_latch, flash_of_modTenant, flash_of_setTenant] | split)

theorem kept_commitC4 {a s : State} (m : Manifest) (d : TenantDecl) (c : Commit) (h : Kept a s) : Kept a (State.commitC4 s m d c) := by
  unfold State.commitC4
  repeat' (first | with_reducible assumption | with_reducible apply kept_commitWrite)

theorem kept_commitC5 {a s : State} (m : Manifest) (d : TenantDecl) (c : Commit) (h : Kept a s) : Kept a (State.commitC5 s m d c) := by
  unfold State.commitC5
  repeat' (first | with_reducible assumption | with_reducible apply kept_commitWrite)

theorem kept_installRefused {a s : State} (kind : Byte) (slot : Byte) (carrier : Byte) (reason : Byte) (check : ℕ) (version : ℕ) (digest : Bytes) (h : Kept a s) : Kept a (State.installRefused s kind slot carrier reason check version digest) := by
  unfold State.installRefused
  repeat' (first | with_reducible assumption | with_reducible apply kept_recordThen)

theorem kept_takeObject {a s : State} (t : TSlot) (h' : Bytes) (h : Kept a s) : Kept a (State.takeObject s t h') := by
  unfold State.takeObject
  repeat' (first
    | with_reducible assumption | with_reducible apply kept_installRefused | with_reducible apply kept_modTenant | simp only [↓kept_mk]
    | with_reducible apply kept_ite)

theorem kept_dropJobs {a s : State} (t : TSlot) (drops : List (LeafKind × ℕ)) (h : Kept a s) : Kept a (State.dropJobs s t drops) := by
  unfold State.dropJobs
  repeat' (first
    | with_reducible assumption | simp only [↓kept_mk] | with_reducible apply kept_ite
    | simp only [↓kept_mk, flash_of_latch, flash_of_modTenant, flash_of_setTenant]
    | (with_reducible refine kept_foldl _ _ ?_ ?_; rotate_left; (intro st x hst)) | split | dsimp only | intro _)

theorem kept_commitC6 {a s : State} (m : Manifest) (d : TenantDecl) (c : Commit) (h : Kept a s) : Kept a (State.commitC6 s m d c) := by
  unfold State.commitC6
  repeat' (first
    | with_reducible assumption | with_reducible apply kept_dropJobs | with_reducible apply kept_takeObject
    | with_reducible apply kept_clearMark | with_reducible apply kept_queueErase | with_reducible apply kept_writeRoot
    | with_reducible apply kept_setTenant | simp only [↓kept_mk] | with_reducible apply kept_ite
    | simp only [↓kept_mk, flash_of_latch, flash_of_modTenant, flash_of_setTenant]
    | (with_reducible refine kept_foldl _ _ ?_ ?_; rotate_left; (intro st x hst)) | split | dsimp only | intro _)

theorem kept_commitErase {a s : State} (m : Manifest) (d : TenantDecl) (c : Commit) (first : ℕ) (count : ℕ) (h : Kept a s) : Kept a (State.commitErase s m d c first count) := by
  unfold State.commitErase
  repeat' (first
    | with_reducible assumption | with_reducible apply kept_commitC4 | with_reducible apply kept_failCommit | simp only [↓kept_mk]
    | with_reducible apply kept_ite | simp only [↓kept_mk, flash_of_latch, flash_of_modTenant, flash_of_setTenant]
    | (with_reducible refine kept_foldl _ _ ?_ ?_; rotate_left; (intro st x hst)) | split | dsimp only | intro _)

theorem kept_startCommit {a s : State} (m : Manifest) (t : TSlot) (d : TenantDecl) (h : Kept a s) : Kept a (State.startCommit s m t d) := by
  unfold State.startCommit
  repeat' (first
    | with_reducible assumption | with_reducible apply kept_commitErase | with_reducible apply kept_commitC1
    | with_reducible apply kept_setTenant | simp only [↓kept_mk] | with_reducible apply kept_ite
    | simp only [↓kept_mk, flash_of_latch, flash_of_modTenant, flash_of_setTenant]
    | (with_reducible refine kept_foldl _ _ ?_ ?_; rotate_left; (intro st x hst)) | split | dsimp only | intro _)

theorem kept_mergePassed {a s : State} (d : TenantDecl) (c : Commit) (j : LaneJob) (plain : Bytes) (h : Kept a s) : Kept a (State.mergePassed s d c j plain) := by
  unfold State.mergePassed
  repeat' (first | with_reducible assumption | with_reducible apply kept_commitC1 | simp only [↓kept_mk] | with_reducible apply kept_ite)

theorem kept_commitSectorFailed {a s : State} (c : Commit) (cause : Byte) (op : Byte) (h : Kept a s) : Kept a (State.commitSectorFailed s c cause op) := by
  unfold State.commitSectorFailed
  repeat' (first
    | with_reducible assumption | with_reducible apply kept_commitC1 | with_reducible apply kept_failCommit
    | with_reducible apply kept_retire | with_reducible apply kept_flashFault | simp only [↓kept_mk] | with_reducible apply kept_ite)

theorem kept_commitBegin {a s : State} (m : Manifest) (d : TenantDecl) (c : Commit) (h : Kept a s) : Kept a (State.commitBegin s m d c) := by
  unfold State.commitBegin
  repeat' (first
    | with_reducible assumption | with_reducible apply kept_commitErase | with_reducible apply kept_commitC1 | simp only [↓kept_mk]
    | with_reducible apply kept_ite | simp only [↓kept_mk, flash_of_latch, flash_of_modTenant, flash_of_setTenant]
    | (with_reducible refine kept_foldl _ _ ?_ ?_; rotate_left; (intro st x hst)) | split | dsimp only | intro _)

theorem kept_commitAdvance {a s : State} (m : Manifest) (d : TenantDecl) (c : Commit) (h : Kept a s) : Kept a (State.commitAdvance s m d c) := by
  unfold State.commitAdvance
  repeat' (first
    | with_reducible assumption | with_reducible apply kept_commitBegin | with_reducible apply kept_commitSectorFailed
    | with_reducible apply kept_commitC6 | with_reducible apply kept_commitC5 | with_reducible apply kept_commitC4
    | with_reducible apply kept_commitWrite | with_reducible apply kept_commitC1 | with_reducible apply kept_commitC2
    | with_reducible apply kept_retire | with_reducible apply kept_flashFault | with_reducible apply kept_latch | simp only [↓kept_mk]
    | with_reducible apply kept_ite | simp only [↓kept_mk, flash_of_latch, flash_of_modTenant, flash_of_setTenant] | split)

theorem kept_commitTaskFailed {a s : State} (m : Manifest) (d : TenantDecl) (c : Commit) (task : FlashTask) (cause : Byte) (h : Kept a s) : Kept a (State.commitTaskFailed s m d c task cause) := by
  unfold State.commitTaskFailed
  repeat' (first
    | with_reducible assumption | with_reducible apply kept_commitBegin | with_reducible apply kept_commitSectorFailed
    | with_reducible apply kept_commitWrite | with_reducible apply kept_commitC1 | with_reducible apply kept_retire
    | with_reducible apply kept_flashFault | simp only [↓kept_mk] | with_reducible apply kept_ite
    | simp only [↓kept_mk, flash_of_latch, flash_of_modTenant, flash_of_setTenant] | split)

theorem kept_commitRestart {a s : State} (c : Commit) (h : Kept a s) : Kept a (State.commitRestart s c) := by
  unfold State.commitRestart
  repeat' (first
    | with_reducible assumption | with_reducible apply kept_queueErase | simp only [↓kept_mk] | with_reducible apply kept_ite
    | simp only [↓kept_mk, flash_of_latch, flash_of_modTenant, flash_of_setTenant]
    | (with_reducible refine kept_foldl _ _ ?_ ?_; rotate_left; (intro st x hst)) | split | dsimp only | intro _)

end Sys2Proof.Laws
end

