-- ==== Sys2Proof/Laws/KeptInstall.lean ====
section
/-! SUPPORT. One lemma per shared operation of these model files, in the relation of Kept.lean: InstallOps, ParcelOps, FlashRun, StageOps, ReadOps, PorchOps. -/
namespace Sys2Proof.Laws
open Sys2Proof.Machine Sys2Proof.Safety

theorem kept_writeTrial {a s : State} (t : TSlot) (r : Trial) (h : Kept a s) : Kept a (State.writeTrial s t r) := by
  unfold State.writeTrial
  repeat' (first | with_reducible assumption | with_reducible apply kept_vaultWrite)

theorem kept_returnHeader {a s : State} (i : Install) (h' : Bytes) (h : Kept a s) : Kept a (State.returnHeader s i h') := by
  unfold State.returnHeader
  repeat' (first
    | with_reducible assumption | with_reducible apply kept_modTenant | simp only [↓kept_mk] | with_reducible apply kept_ite
    | simp only [↓kept_mk, flash_of_latch, flash_of_modTenant, flash_of_setTenant] | split)

theorem kept_refuseInstall {a s : State} (reason : Byte) (check : ℕ) (h : Kept a s) : Kept a (State.refuseInstall s reason check) := by
  unfold State.refuseInstall
  repeat' (first
    | with_reducible assumption | with_reducible apply kept_returnHeader | with_reducible apply kept_installRefused
    | with_reducible apply kept_dropKey | simp only [↓kept_mk] | with_reducible apply kept_ite
    | simp only [↓kept_mk, flash_of_latch, flash_of_modTenant, flash_of_setTenant]
    | (with_reducible refine kept_foldl _ _ ?_ ?_; rotate_left; (intro st x hst)) | split | dsimp only | intro _)

theorem kept_openInstall {a s : State} (i : Install) (h : Kept a s) : Kept a (State.openInstall s i) := by
  unfold State.openInstall
  repeat' (first | with_reducible assumption | with_reducible apply kept_vaultWrite)

theorem kept_closeInstall {a s : State} (h : Kept a s) : Kept a (State.closeInstall s) := by
  unfold State.closeInstall
  repeat' (first | with_reducible assumption | with_reducible apply kept_vaultWrite | simp only [↓kept_mk] | with_reducible apply kept_ite)

theorem kept_loadImageKey {a s : State} (t : TSlot) (g : ℕ) (h : Kept a s) : Kept a (State.loadImageKey s t g) := by
  unfold State.loadImageKey
  repeat' (first | with_reducible assumption | with_reducible apply kept_load)

theorem kept_loadDataKey {a s : State} (t : TSlot) (h : Kept a s) : Kept a (State.loadDataKey s t) := by
  unfold State.loadDataKey
  repeat' (first | with_reducible assumption | with_reducible apply kept_load)

theorem kept_beginImage {a s : State} (m : Manifest) (d : TenantDecl) (i : Install) (image : Bytes) (h : Kept a s) : Kept a (State.beginImage s m d i image) := by
  unfold State.beginImage
  repeat' (first
    | with_reducible assumption | with_reducible apply kept_loadImageKey | with_reducible apply kept_openInstall | simp only [↓kept_mk])

theorem kept_beginPair {a s : State} (i : Install) (manifest : Bytes) (image : Bytes) (h : Kept a s) : Kept a (State.beginPair s i manifest image) := by
  unfold State.beginPair
  repeat' (first
    | with_reducible assumption | with_reducible apply kept_openInstall | with_reducible apply kept_vaultWrite | simp only [↓kept_mk]
    | with_reducible apply kept_ite)

theorem kept_beginReseal {a s : State} (manifest : Bytes) (image : Bytes) (h : Kept a s) : Kept a (State.beginReseal s manifest image) := by
  unfold State.beginReseal
  repeat' (first | with_reducible assumption | with_reducible apply kept_openInstall | simp only [↓kept_mk])

theorem kept_installDone {a s : State} (i : Install) (generation : ℕ) (h : Kept a s) : Kept a (State.installDone s i generation) := by
  unfold State.installDone
  repeat' (first
    | with_reducible assumption | with_reducible apply kept_returnHeader | with_reducible apply kept_recordThen | simp only [↓kept_mk])

theorem kept_imageInstalled {a s : State} (i : Install) (old : Bytes) (h : Kept a s) : Kept a (State.imageInstalled s i old) := by
  unfold State.imageInstalled
  repeat' (first
    | with_reducible assumption | with_reducible apply kept_installDone | with_reducible apply kept_writeTrial
    | with_reducible apply kept_modTenant | simp only [↓kept_mk] | with_reducible apply kept_ite)

theorem kept_pairInstalled {a s : State} (i : Install) (pair : Option (Bytes × Bytes)) (h : Kept a s) : Kept a (State.pairInstalled s i pair) := by
  unfold State.pairInstalled
  repeat' (first
    | with_reducible assumption | with_reducible apply kept_installDone | simp only [↓kept_mk] | with_reducible apply kept_ite
    | simp only [↓kept_mk, flash_of_latch, flash_of_modTenant, flash_of_setTenant] | split)

theorem kept_flashWorkDone {a s : State} (h : Kept a s) : Kept a (State.flashWorkDone s) := by
  unfold State.flashWorkDone
  repeat' (first
    | with_reducible assumption | with_reducible apply kept_refuseInstall | simp only [↓kept_mk] | with_reducible apply kept_ite
    | simp only [↓kept_mk, flash_of_latch, flash_of_modTenant, flash_of_setTenant] | split)

theorem kept_askRevert {a s : State} (t : TSlot) (h : Kept a s) : Kept a (State.askRevert s t) := by
  unfold State.askRevert
  repeat' (first | with_reducible assumption | simp only [↓kept_mk] | with_reducible apply kept_ite)

theorem kept_reverted {a s : State} (t : TSlot) (cause : Byte) (h : Kept a s) : Kept a (State.reverted s t cause) := by
  unfold State.reverted
  repeat' (first | with_reducible assumption | with_reducible apply kept_writeTrial | with_reducible apply kept_record)

theorem kept_newRequest {a s : State} (h : Kept a s) : Kept a (State.newRequest s).2 := by
  unfold State.newRequest
  repeat' (first | with_reducible assumption | simp only [↓kept_mk])
theorem kept_newRequest_of {a s nx : State} {y} (e : (State.newRequest s) = (y, nx)) (h : Kept a s) : Kept a nx := by
  have := kept_newRequest h
  rwa [e] at this

theorem kept_ask {a s : State} (dest : Dest) (kind : ℕ) (sealed : Bool) (payload : Bytes) (h : Kept a s) : Kept a (State.ask s dest kind sealed payload) := by
  unfold State.ask
  repeat' (first
    | with_reducible assumption | with_reducible refine kept_newRequest_of (by assumption) ?_ | with_reducible apply kept_newRequest
    | with_reducible apply kept_send | simp only [↓kept_mk] | with_reducible apply kept_ite)

theorem kept_newTransfer {a s : State} (h : Kept a s) : Kept a (State.newTransfer s).2 := by
  unfold State.newTransfer
  repeat' (first | with_reducible assumption | simp only [↓kept_mk])
theorem kept_newTransfer_of {a s nx : State} {y} (e : (State.newTransfer s) = (y, nx)) (h : Kept a s) : Kept a nx := by
  have := kept_newTransfer h
  rwa [e] at this

theorem kept_setLine {a s : State} (d : TenantDecl) (low : Bool) (h : Kept a s) : Kept a (State.setLine s d low) := by
  unfold State.setLine
  repeat' (first
    | with_reducible assumption | simp only [↓kept_mk] | with_reducible apply kept_ite
    | simp only [↓kept_mk, flash_of_latch, flash_of_modTenant, flash_of_setTenant] | split)

theorem kept_writeParcel {a s : State} (place : ℕ) (step : ℕ) (slot : Byte) (transfer : BitVec 16) (peer : Bytes) (h : Kept a s) : Kept a (State.writeParcel s place step slot transfer peer) := by
  unfold State.writeParcel
  repeat' (first | with_reducible assumption | with_reducible apply kept_vaultWrite)

theorem kept_clearParcel {a s : State} (place : ℕ) (h : Kept a s) : Kept a (State.clearParcel s place) := by
  unfold State.clearParcel
  repeat' (first | with_reducible assumption | with_reducible apply kept_vaultWrite | simp only [↓kept_mk] | with_reducible apply kept_ite)

theorem kept_freeReason {a s : State} (h : Kept a s) : Kept a (State.freeReason s).2 := by
  unfold State.freeReason
  repeat' (first
    | with_reducible assumption | with_reducible refine kept_freeBelow_of (by assumption) ?_ | with_reducible apply kept_freeBelow
    | simp only [↓kept_mk] | with_reducible apply kept_ite | simp only [↓kept_mk, flash_of_latch, flash_of_modTenant, flash_of_setTenant]
    | (with_reducible refine kept_foldl _ _ ?_ ?_; rotate_left; (intro st x hst)) | split | dsimp only | intro _)
theorem kept_freeReason_of {a s nx : State} {y} (e : (State.freeReason s) = (y, nx)) (h : Kept a s) : Kept a nx := by
  have := kept_freeReason h
  rwa [e] at this

theorem kept_parcelAbort {a s : State} (slot : Byte) (role : Byte) (reason : Byte) (peer : Bytes) (h : Kept a s) : Kept a (State.parcelAbort s slot role reason peer) := by
  unfold State.parcelAbort
  repeat' (first | with_reducible assumption | with_reducible apply kept_record)

theorem kept_parcelStart {a s : State} (place : ℕ) (role : Byte) (h : Kept a s) : Kept a (State.parcelStart s place role) := by
  unfold State.parcelStart
  repeat' (first
    | with_reducible assumption | with_reducible apply kept_parcelAbort | with_reducible apply kept_clearParcel | simp only [↓kept_mk]
    | with_reducible apply kept_ite)

theorem kept_sendFragment {a s : State} (h : Kept a s) : Kept a (State.sendFragment s) := by
  unfold State.sendFragment
  repeat' (first
    | with_reducible assumption | with_reducible apply kept_ask | simp only [↓kept_mk] | with_reducible apply kept_ite
    | simp only [↓kept_mk, flash_of_latch, flash_of_modTenant, flash_of_setTenant] | split)

theorem kept_dropExport {a s : State} (h : Kept a s) : Kept a (State.dropExport s) := by
  unfold State.dropExport
  repeat' (first
    | with_reducible assumption | with_reducible apply kept_clearParcel | with_reducible apply kept_dropKey | simp only [↓kept_mk]
    | with_reducible apply kept_ite)

theorem kept_endOrder {a s : State} (reason : Byte) (h : Kept a s) : Kept a (State.endOrder s reason) := by
  unfold State.endOrder
  repeat' (first
    | with_reducible assumption | with_reducible apply kept_returnHeader | simp only [↓kept_mk] | with_reducible apply kept_ite
    | simp only [↓kept_mk, flash_of_latch, flash_of_modTenant, flash_of_setTenant] | split)

theorem kept_abortExport {a s : State} (reason : Byte) (h : Kept a s) : Kept a (State.abortExport s reason) := by
  unfold State.abortExport
  repeat' (first
    | with_reducible assumption | with_reducible apply kept_endOrder | with_reducible apply kept_dropExport
    | with_reducible apply kept_parcelAbort | with_reducible apply kept_modTenant | simp only [↓kept_mk] | with_reducible apply kept_ite
    | simp only [↓kept_mk, flash_of_latch, flash_of_modTenant, flash_of_setTenant] | split)

theorem kept_askExported {a s : State} (e' : Export) (h : Kept a s) : Kept a (State.askExported s e') := by
  unfold State.askExported
  repeat' (first | with_reducible assumption | with_reducible apply kept_writeParcel | simp only [↓kept_mk])

theorem kept_holdTenant {a s : State} (t : TSlot) (d : TenantDecl) (reason : Byte) (h : Kept a s) : Kept a (State.holdTenant s t d reason) := by
  unfold State.holdTenant
  repeat' (first
    | with_reducible assumption | with_reducible apply kept_setLine | with_reducible apply kept_modTenant
    | with_reducible apply kept_dropKey)

theorem kept_exported {a s : State} (h : Kept a s) : Kept a (State.exported s) := by
  unfold State.exported
  repeat' (first
    | with_reducible assumption | with_reducible apply kept_holdTenant | with_reducible apply kept_endOrder
    | with_reducible apply kept_dropExport | with_reducible apply kept_record | with_reducible apply kept_setClock
    | with_reducible apply kept_modTenant | simp only [↓kept_mk] | with_reducible apply kept_ite
    | simp only [↓kept_mk, flash_of_latch, flash_of_modTenant, flash_of_setTenant]
    | (with_reducible refine kept_foldl _ _ ?_ ?_; rotate_left; (intro st x hst)) | split | dsimp only | intro _)

theorem kept_setPlan {a s : State} (p : ImportPlan) (h : Kept a s) : Kept a (State.setPlan s p) := by
  unfold State.setPlan
  repeat' (first
    | with_reducible assumption | simp only [↓kept_mk] | with_reducible apply kept_ite
    | simp only [↓kept_mk, flash_of_latch, flash_of_modTenant, flash_of_setTenant]
    | (with_reducible refine kept_foldl _ _ ?_ ?_; rotate_left; (intro st x hst)) | split | dsimp only | intro _)

theorem kept_abortImport {a s : State} (reason : Byte) (h : Kept a s) : Kept a (State.abortImport s reason) := by
  unfold State.abortImport
  repeat' (first
    | with_reducible assumption | with_reducible apply kept_parcelAbort | with_reducible apply kept_clearParcel
    | with_reducible apply kept_queueErase | with_reducible apply kept_send | with_reducible apply kept_dropKey | simp only [↓kept_mk]
    | with_reducible apply kept_ite | simp only [↓kept_mk, flash_of_latch, flash_of_modTenant, flash_of_setTenant]
    | (with_reducible refine kept_foldl _ _ ?_ ?_; rotate_left; (intro st x hst)) | split)

theorem kept_beginImport {a s : State} (m : Manifest) (d : TenantDecl) (x : Transfer) (c : ParcelContent) (h : Kept a s) : Kept a (State.beginImport s m d x c) := by
  unfold State.beginImport
  repeat' (first
    | with_reducible assumption | with_reducible apply kept_writeParcel | with_reducible apply kept_loadImageKey | simp only [↓kept_mk]
    | with_reducible apply kept_ite | simp only [↓kept_mk, flash_of_latch, flash_of_modTenant, flash_of_setTenant]
    | (with_reducible refine kept_foldl _ _ ?_ ?_; rotate_left; (intro st x hst)) | split | dsimp only | intro _)

theorem kept_raiseCounter {a s : State} (off : ℕ) (v : ℕ) (h : Kept a s) : Kept a (State.raiseCounter s off v) := by
  unfold State.raiseCounter
  repeat' (first
    | with_reducible assumption | with_reducible apply kept_vaultPut | simp only [↓kept_mk] | with_reducible apply kept_ite
    | simp only [↓kept_mk, flash_of_latch, flash_of_modTenant, flash_of_setTenant] | split)

theorem kept_importCeiling {a s : State} (t : TSlot) (h : Kept a s) : Kept a (State.importCeiling s t) := by
  unfold State.importCeiling
  repeat' (first
    | with_reducible assumption | with_reducible apply kept_raiseCeiling | with_reducible apply kept_writeRoot
    | with_reducible apply kept_modTenant | simp only [↓kept_mk] | with_reducible apply kept_ite
    | simp only [↓kept_mk, flash_of_latch, flash_of_modTenant, flash_of_setTenant]
    | (with_reducible refine kept_foldl _ _ ?_ ?_; rotate_left; (intro st x hst)) | split | dsimp only | intro _)

theorem kept_importC2 {a s : State} (d : TenantDecl) (c : ParcelContent) (p : ImportPlan) (r : ℕ) (h : Kept a s) : Kept a (State.importC2 s d c p r) := by
  unfold State.importC2
  repeat' (first
    | with_reducible assumption | with_reducible apply kept_importCeiling | with_reducible apply kept_setPlan
    | with_reducible apply kept_modTenant | simp only [↓kept_mk] | with_reducible apply kept_ite
    | simp only [↓kept_mk, flash_of_latch, flash_of_modTenant, flash_of_setTenant]
    | (with_reducible refine kept_foldl _ _ ?_ ?_; rotate_left; (intro st x hst)) | split | dsimp only | intro _)

theorem kept_importC1 {a s : State} (d : TenantDecl) (c : ParcelContent) (p : ImportPlan) (h : Kept a s) : Kept a (State.importC1 s d c p) := by
  unfold State.importC1
  repeat' (first
    | with_reducible assumption | with_reducible apply kept_importC2 | with_reducible apply kept_abortImport
    | with_reducible apply kept_setPlan | with_reducible apply kept_flashFault | with_reducible apply kept_latch | simp only [↓kept_mk]
    | with_reducible apply kept_ite | simp only [↓kept_mk, flash_of_latch, flash_of_modTenant, flash_of_setTenant]
    | (with_reducible refine kept_foldl _ _ ?_ ?_; rotate_left; (intro st x hst)) | split | dsimp only | intro _)

theorem kept_importSectorFailed {a s : State} (d : TenantDecl) (c : ParcelContent) (p : ImportPlan) (r : ℕ) (cause : Byte) (op : Byte) (h : Kept a s) : Kept a (State.importSectorFailed s d c p r cause op) := by
  unfold State.importSectorFailed
  repeat' (first
    | with_reducible assumption | with_reducible apply kept_importC1 | with_reducible apply kept_abortImport
    | with_reducible apply kept_setPlan | with_reducible apply kept_retire | with_reducible apply kept_flashFault | simp only [↓kept_mk]
    | with_reducible apply kept_ite | simp only [↓kept_mk, flash_of_latch, flash_of_modTenant, flash_of_setTenant]
    | (with_reducible refine kept_foldl _ _ ?_ ?_; rotate_left; (intro st x hst)) | split | dsimp only | intro _)

theorem kept_importLedger {a s : State} (m : Manifest) (d : TenantDecl) (c : ParcelContent) (p : ImportPlan) (h : Kept a s) : Kept a (State.importLedger s m d c p) := by
  unfold State.importLedger
  repeat' (first
    | with_reducible assumption | with_reducible apply kept_raiseCounter | simp only [↓kept_mk] | with_reducible apply kept_ite
    | simp only [↓kept_mk, flash_of_latch, flash_of_modTenant, flash_of_setTenant]
    | (with_reducible refine kept_foldl _ _ ?_ ?_; rotate_left; (intro st x hst)) | split | dsimp only | intro _)

theorem kept_importNext {a s : State} (m : Manifest) (d : TenantDecl) (c : ParcelContent) (p : ImportPlan) (h : Kept a s) : Kept a (State.importNext s m d c p) := by
  unfold State.importNext
  repeat' (first
    | with_reducible assumption | with_reducible apply kept_importLedger | with_reducible apply kept_importC1
    | with_reducible apply kept_abortImport | with_reducible apply kept_setPlan | simp only [↓kept_mk] | with_reducible apply kept_ite
    | simp only [↓kept_mk, flash_of_latch, flash_of_modTenant, flash_of_setTenant]
    | (with_reducible refine kept_foldl _ _ ?_ ?_; rotate_left; (intro st x hst)) | split | dsimp only | intro _)

theorem kept_importStep {a s : State} (m : Manifest) (d : TenantDecl) (c : ParcelContent) (h : Kept a s) : Kept a (State.importStep s m d c) := by
  unfold State.importStep
  repeat' (first
    | with_reducible assumption | with_reducible apply kept_importNext | with_reducible apply kept_importSectorFailed
    | with_reducible apply kept_importC1 | with_reducible apply kept_importC2 | with_reducible apply kept_retire
    | with_reducible apply kept_flashFault | with_reducible apply kept_latch | simp only [↓kept_mk] | with_reducible apply kept_ite
    | simp only [↓kept_mk, flash_of_latch, flash_of_modTenant, flash_of_setTenant]
    | (with_reducible refine kept_foldl _ _ ?_ ?_; rotate_left; (intro st x hst)) | split | dsimp only | intro _)

theorem kept_importFailed {a s : State} (m : Manifest) (ref : ℕ) (cause : Byte) (op : Byte) (h : Kept a s) : Kept a (State.importFailed s m ref cause op) := by
  unfold State.importFailed
  repeat' (first
    | with_reducible assumption | with_reducible apply kept_importNext | with_reducible apply kept_importSectorFailed
    | with_reducible apply kept_importC1 | with_reducible apply kept_abortImport | with_reducible apply kept_retire
    | with_reducible apply kept_flashFault | simp only [↓kept_mk] | with_reducible apply kept_ite
    | simp only [↓kept_mk, flash_of_latch, flash_of_modTenant, flash_of_setTenant]
    | (with_reducible refine kept_foldl _ _ ?_ ?_; rotate_left; (intro st x hst)) | split | dsimp only | intro _)

theorem kept_resumeImport {a s : State} (m : Manifest) (h : Kept a s) : Kept a (State.resumeImport s m) := by
  unfold State.resumeImport
  repeat' (first
    | with_reducible assumption | with_reducible apply kept_importNext | simp only [↓kept_mk] | with_reducible apply kept_ite
    | simp only [↓kept_mk, flash_of_latch, flash_of_modTenant, flash_of_setTenant]
    | (with_reducible refine kept_foldl _ _ ?_ ?_; rotate_left; (intro st x hst)) | split | dsimp only | intro _)

theorem kept_imported {a s : State} (slots : List ℕ) (digests : List Bytes) (digest : Bytes) (ceiling : ℕ) (vacated : List ℕ) (h : Kept a s) : Kept a (State.imported s slots digests digest ceiling vacated) := by
  unfold State.imported
  repeat' (first
    | with_reducible assumption | with_reducible apply kept_clearParcel | with_reducible apply kept_writeTrial
    | with_reducible apply kept_queueErase | with_reducible apply kept_send | with_reducible apply kept_writeRoot
    | with_reducible apply kept_record | with_reducible apply kept_modTenant | with_reducible apply kept_dropKey | simp only [↓kept_mk]
    | with_reducible apply kept_ite | simp only [↓kept_mk, flash_of_latch, flash_of_modTenant, flash_of_setTenant]
    | (with_reducible refine kept_foldl _ _ ?_ ?_; rotate_left; (intro st x hst)) | split)

theorem kept_pumpCommit {a s : State} (c : Commit) (h : Kept a s) : Kept a (State.pumpCommit s c) := by
  unfold State.pumpCommit
  repeat' (first
    | with_reducible assumption | with_reducible apply kept_failCommit | with_reducible apply kept_startTask | simp only [↓kept_mk]
    | with_reducible apply kept_ite | simp only [↓kept_mk, flash_of_latch, flash_of_modTenant, flash_of_setTenant] | split)

theorem kept_pumpDirectory {a s : State} (h : Kept a s) : Kept a (State.pumpDirectory s) := by
  unfold State.pumpDirectory
  repeat' (first
    | with_reducible assumption | with_reducible apply kept_startTask | simp only [↓kept_mk] | with_reducible apply kept_ite
    | simp only [↓kept_mk, flash_of_latch, flash_of_modTenant, flash_of_setTenant] | split)

theorem kept_unspill {a s : State} (b : ℕ) (h : Kept a s) : Kept a (State.unspill s b) := by
  unfold State.unspill
  repeat' (first | with_reducible assumption | simp only [↓kept_mk])

theorem kept_pumpSpill {a s : State} (h : Kept a s) : Kept a (State.pumpSpill s) := by
  unfold State.pumpSpill
  repeat' (first
    | with_reducible assumption | with_reducible apply kept_unspill | with_reducible apply kept_startTask | simp only [↓kept_mk]
    | with_reducible apply kept_ite | simp only [↓kept_mk, flash_of_latch, flash_of_modTenant, flash_of_setTenant] | split)

theorem kept_failWork {a s : State} (reason : Byte) (h : Kept a s) : Kept a (State.failWork s reason) := by
  unfold State.failWork
  repeat' (first
    | with_reducible assumption | with_reducible apply kept_abortImport | with_reducible apply kept_refuseInstall | simp only [↓kept_mk]
    | with_reducible apply kept_ite)

theorem kept_pumpInstall {a s : State} (h : Kept a s) : Kept a (State.pumpInstall s) := by
  unfold State.pumpInstall
  repeat' (first
    | with_reducible assumption | with_reducible apply kept_failWork | with_reducible apply kept_startTask | simp only [↓kept_mk]
    | with_reducible apply kept_ite | simp only [↓kept_mk, flash_of_latch, flash_of_modTenant, flash_of_setTenant] | split)

theorem kept_resumeCommitWrite {a s : State} (m : Manifest) (h : Kept a s) : Kept a (State.resumeCommitWrite s m) := by
  unfold State.resumeCommitWrite
  repeat' (first
    | with_reducible assumption | with_reducible apply kept_commitWrite | simp only [↓kept_mk] | with_reducible apply kept_ite
    | simp only [↓kept_mk, flash_of_latch, flash_of_modTenant, flash_of_setTenant] | split)

theorem kept_resumeC1 {a s : State} (m : Manifest) (h : Kept a s) : Kept a (State.resumeC1 s m) := by
  unfold State.resumeC1
  repeat' (first
    | with_reducible assumption | with_reducible apply kept_commitBegin | simp only [↓kept_mk] | with_reducible apply kept_ite
    | simp only [↓kept_mk, flash_of_latch, flash_of_modTenant, flash_of_setTenant]
    | (with_reducible refine kept_foldl _ _ ?_ ?_; rotate_left; (intro st x hst)) | split | dsimp only | intro _)

theorem kept_resumeWaiting {a s : State} (h : Kept a s) : Kept a (State.resumeWaiting s) := by
  unfold State.resumeWaiting
  repeat' (first
    | with_reducible assumption | with_reducible apply kept_resumeC1 | with_reducible apply kept_resumeCommitWrite
    | with_reducible apply kept_resumeImport | simp only [↓kept_mk] | with_reducible apply kept_ite
    | simp only [↓kept_mk, flash_of_latch, flash_of_modTenant, flash_of_setTenant]
    | (with_reducible refine kept_foldl _ _ ?_ ?_; rotate_left; (intro st x hst)) | split | dsimp only | intro _)

theorem kept_pump {a s : State} (h : Kept a s) : Kept a (State.pump s) := by
  unfold State.pump
  repeat' (first
    | with_reducible assumption | with_reducible apply kept_resumeWaiting | with_reducible apply kept_pumpInstall
    | with_reducible apply kept_pumpSpill | with_reducible apply kept_pumpDirectory | with_reducible apply kept_pumpCommit
    | simp only [↓kept_mk] | with_reducible apply kept_ite | simp only [↓kept_mk, flash_of_latch, flash_of_modTenant, flash_of_setTenant]
    | (with_reducible refine kept_foldl _ _ ?_ ?_; rotate_left; (intro st x hst)) | split | dsimp only | intro _)

theorem kept_queueErased {a s : State} (r : ℕ) (h : Kept a s) : Kept a (State.queueErased s r) := by
  unfold State.queueErased
  repeat' (first
    | with_reducible assumption | with_reducible apply kept_latchIf | simp only [↓kept_mk] | with_reducible apply kept_ite
    | simp only [↓kept_mk, flash_of_latch, flash_of_modTenant, flash_of_setTenant]
    | (with_reducible refine kept_foldl _ _ ?_ ?_; rotate_left; (intro st x hst)) | split | dsimp only | intro _)

theorem kept_queueEraseFailed {a s : State} (r : ℕ) (cause : Byte) (h : Kept a s) : Kept a (State.queueEraseFailed s r cause) := by
  unfold State.queueEraseFailed
  repeat' (first
    | with_reducible assumption | with_reducible apply kept_retire | with_reducible apply kept_flashFault | simp only [↓kept_mk]
    | with_reducible apply kept_ite | simp only [↓kept_mk, flash_of_latch, flash_of_modTenant, flash_of_setTenant]
    | (with_reducible refine kept_foldl _ _ ?_ ?_; rotate_left; (intro st x hst)) | split | dsimp only | intro _)

theorem kept_directoryStep {a s : State} (h : Kept a s) : Kept a (State.directoryStep s) := by
  unfold State.directoryStep
  repeat' (first | with_reducible assumption | simp only [↓kept_mk] | with_reducible apply kept_ite)

theorem kept_spillStep {a s : State} (h : Kept a s) : Kept a (State.spillStep s) := by
  unfold State.spillStep
  repeat' (first
    | with_reducible assumption | with_reducible apply kept_vaultPut | simp only [↓kept_mk] | with_reducible apply kept_ite
    | simp only [↓kept_mk, flash_of_latch, flash_of_modTenant, flash_of_setTenant] | split)

theorem kept_spillFailed {a s : State} (cause : Byte) (op : Byte) (h : Kept a s) : Kept a (State.spillFailed s cause op) := by
  unfold State.spillFailed
  repeat' (first
    | with_reducible assumption | with_reducible apply kept_unspill | with_reducible apply kept_retire
    | with_reducible apply kept_flashFault | simp only [↓kept_mk] | with_reducible apply kept_ite
    | simp only [↓kept_mk, flash_of_latch, flash_of_modTenant, flash_of_setTenant] | split)

theorem kept_workDone {a s : State} (h : Kept a s) : Kept a (State.workDone s) := by
  unfold State.workDone
  repeat' (first
    | with_reducible assumption | with_reducible apply kept_importStep | with_reducible apply kept_flashWorkDone | simp only [↓kept_mk]
    | with_reducible apply kept_ite | simp only [↓kept_mk, flash_of_latch, flash_of_modTenant, flash_of_setTenant]
    | (with_reducible refine kept_foldl _ _ ?_ ?_; rotate_left; (intro st x hst)) | split | dsimp only | intro _)

theorem kept_opEnded {a s : State} (o : FlashOp) (cause : Option Byte) (h : Kept a s) : Kept a (State.opEnded s o cause) := by
  unfold State.opEnded
  repeat' (first
    | with_reducible assumption | with_reducible apply kept_workDone | with_reducible apply kept_spillFailed
    | with_reducible apply kept_spillStep | with_reducible apply kept_directoryStep | with_reducible apply kept_queueEraseFailed
    | with_reducible apply kept_queueErased | with_reducible apply kept_failWork | with_reducible apply kept_importFailed
    | with_reducible apply kept_commitTaskFailed | with_reducible apply kept_commitAdvance | with_reducible apply kept_flashFault
    | simp only [↓kept_mk] | with_reducible apply kept_ite | simp only [↓kept_mk, flash_of_latch, flash_of_modTenant, flash_of_setTenant]
    | (with_reducible refine kept_foldl _ _ ?_ ?_; rotate_left; (intro st x hst)) | split | dsimp only | intro _)

theorem kept_opLost {a s : State} (c : Fin 2) (timeout : Bool) (h : Kept a s) : Kept a (State.opLost s c timeout) := by
  unfold State.opLost
  repeat' (first
    | with_reducible assumption | with_reducible apply kept_opEnded | with_reducible apply kept_spoilTask
    | with_reducible apply kept_endOp | simp only [↓kept_mk] | with_reducible apply kept_ite
    | simp only [↓kept_mk, flash_of_latch, flash_of_modTenant, flash_of_setTenant] | split)

theorem kept_killChip {a s : State} (c : Fin 2) (op : Byte) (h : Kept a s) : Kept a (State.killChip s c op) := by
  unfold State.killChip
  repeat' (first
    | with_reducible assumption | with_reducible apply kept_refuseAllDead | with_reducible apply kept_flashFault | simp only [↓kept_mk]
    | with_reducible apply kept_ite | simp only [↓kept_mk, flash_of_latch, flash_of_modTenant, flash_of_setTenant]
    | (with_reducible refine kept_foldl _ _ ?_ ?_; rotate_left; (intro st x hst)) | split | dsimp only | intro _)

theorem kept_powerCycle {a s : State} (c : Fin 2) (op : Byte) (h : Kept a s) : Kept a (State.powerCycle s c op) := by
  unfold State.powerCycle
  repeat' (first | with_reducible assumption | with_reducible apply kept_killChip | simp only [↓kept_mk] | with_reducible apply kept_ite)

theorem kept_rediscover {a s : State} (c : Fin 2) (answers : Bool) (h : Kept a s) : Kept a (State.rediscover s c answers) := by
  unfold State.rediscover
  repeat' (first
    | with_reducible assumption | with_reducible apply kept_powerCycle | with_reducible apply kept_flashFault
    | with_reducible apply kept_order | with_reducible apply kept_latch | simp only [↓kept_mk] | with_reducible apply kept_ite
    | simp only [↓kept_mk, flash_of_latch, flash_of_modTenant, flash_of_setTenant]
    | (with_reducible refine kept_foldl _ _ ?_ ?_; rotate_left; (intro st x hst)) | split | dsimp only | intro _)

theorem kept_restoreFlash {a s : State} (b : ℕ) (answers0 : Bool) (answers1 : Bool) (h : Kept a s) : Kept a (State.restoreFlash s b answers0 answers1) := by
  unfold State.restoreFlash
  repeat' (first
    | with_reducible assumption | with_reducible apply kept_rediscover | with_reducible apply kept_setClock
    | with_reducible apply kept_latch | simp only [↓kept_mk] | with_reducible apply kept_ite
    | simp only [↓kept_mk, flash_of_latch, flash_of_modTenant, flash_of_setTenant]
    | (with_reducible refine kept_foldl _ _ ?_ ?_; rotate_left; (intro st x hst)) | split | dsimp only | intro _)

theorem kept_beginDirectory {a s : State} (h : Kept a s) : Kept a (State.beginDirectory s) := by
  unfold State.beginDirectory
  repeat' (first | with_reducible assumption | simp only [↓kept_mk])

theorem kept_dropOldest {a s : State} (h : Kept a s) : Kept a (State.dropOldest s) := by
  unfold State.dropOldest
  repeat' (first
    | with_reducible assumption | with_reducible apply kept_queueErase | with_reducible apply kept_makeRoom
    | with_reducible apply kept_dropBatch | with_reducible apply kept_vaultPut | with_reducible refine kept_freeBytes_of (by assumption) ?_
    | with_reducible apply kept_freeBytes | simp only [↓kept_mk] | with_reducible apply kept_ite
    | simp only [↓kept_mk, flash_of_latch, flash_of_modTenant, flash_of_setTenant]
    | (with_reducible refine kept_foldl _ _ ?_ ?_; rotate_left; (intro st x hst)) | split | dsimp only | intro _)

theorem kept_beginSpill {a s : State} (h : Kept a s) : Kept a (State.beginSpill s) := by
  unfold State.beginSpill
  repeat' (first
    | with_reducible assumption | with_reducible apply kept_dropOldest | simp only [↓kept_mk] | with_reducible apply kept_ite
    | simp only [↓kept_mk, flash_of_latch, flash_of_modTenant, flash_of_setTenant] | split)

theorem kept_rebuildPool {a s : State} (m : Manifest) (h : Kept a s) : Kept a (State.rebuildPool s m) := by
  unfold State.rebuildPool
  repeat' (first
    | with_reducible assumption | with_reducible apply kept_queueErase | with_reducible apply kept_latchIf | simp only [↓kept_mk]
    | with_reducible apply kept_ite | simp only [↓kept_mk, flash_of_latch, flash_of_modTenant, flash_of_setTenant]
    | (with_reducible refine kept_foldl _ _ ?_ ?_; rotate_left; (intro st x hst)) | split | dsimp only | intro _)

theorem kept_stageNow {a s : State} (t : TSlot) (d : TenantDecl) (again : Bool) (h : Kept a s) : Kept a (State.stageNow s t d again) := by
  unfold State.stageNow
  repeat' (first
    | with_reducible assumption | with_reducible apply kept_loadImageKey | with_reducible apply kept_modTenant | simp only [↓kept_mk]
    | with_reducible apply kept_ite | simp only [↓kept_mk, flash_of_latch, flash_of_modTenant, flash_of_setTenant]
    | (with_reducible refine kept_foldl _ _ ?_ ?_; rotate_left; (intro st x hst)) | split | dsimp only | intro _)

theorem kept_startStaging {a s : State} (t : TSlot) (d : TenantDecl) (again : Bool) (h : Kept a s) : Kept a (State.startStaging s t d again) := by
  unfold State.startStaging
  repeat' (first
    | with_reducible assumption | with_reducible apply kept_stageNow | with_reducible apply kept_askRevert
    | with_reducible apply kept_modTenant | simp only [↓kept_mk] | with_reducible apply kept_ite
    | simp only [↓kept_mk, flash_of_latch, flash_of_modTenant, flash_of_setTenant]
    | (with_reducible refine kept_foldl _ _ ?_ ?_; rotate_left; (intro st x hst)) | split | dsimp only | intro _)

theorem kept_freeOutcome {a s : State} (h : Kept a s) : Kept a (State.freeOutcome s).2 := by
  unfold State.freeOutcome
  repeat' (first
    | with_reducible assumption | with_reducible refine kept_freeBelow_of (by assumption) ?_ | with_reducible apply kept_freeBelow
    | simp only [↓kept_mk] | with_reducible apply kept_ite | simp only [↓kept_mk, flash_of_latch, flash_of_modTenant, flash_of_setTenant]
    | (with_reducible refine kept_foldl _ _ ?_ ?_; rotate_left; (intro st x hst)) | split | dsimp only | intro _)
theorem kept_freeOutcome_of {a s nx : State} {y} (e : (State.freeOutcome s) = (y, nx)) (h : Kept a s) : Kept a nx := by
  have := kept_freeOutcome h
  rwa [e] at this

theorem kept_versionsTenant {a s : State} (t : TSlot) (reason : Byte) (h : Kept a s) : Kept a (State.versionsTenant s t reason) := by
  unfold State.versionsTenant
  repeat' (first | with_reducible assumption | with_reducible apply kept_record)

theorem kept_versionsPairOf {a s : State} (source : Option Source) (h : Kept a s) : Kept a (State.versionsPairOf s source) := by
  unfold State.versionsPairOf
  repeat' (first | with_reducible assumption | with_reducible apply kept_record)

theorem kept_versionsAhead {a s : State} (t : TSlot) (h : Kept a s) : Kept a (State.versionsAhead s t) := by
  unfold State.versionsAhead
  repeat' (first
    | with_reducible assumption | with_reducible apply kept_versionsTenant | with_reducible refine kept_freeOutcome_of (by assumption) ?_
    | with_reducible apply kept_freeOutcome | simp only [↓kept_mk] | with_reducible apply kept_ite
    | simp only [↓kept_mk, flash_of_latch, flash_of_modTenant, flash_of_setTenant]
    | (with_reducible refine kept_foldl _ _ ?_ ?_; rotate_left; (intro st x hst)) | split | dsimp only | intro _)

theorem kept_versionsAll {a s : State} (t : TSlot) (reason : Byte) (h : Kept a s) : Kept a (State.versionsAll s t reason) := by
  unfold State.versionsAll
  repeat' (first
    | with_reducible assumption | with_reducible apply kept_versionsAhead | with_reducible apply kept_versionsTenant | simp only [↓kept_mk]
    | with_reducible apply kept_ite | simp only [↓kept_mk, flash_of_latch, flash_of_modTenant, flash_of_setTenant]
    | (with_reducible refine kept_foldl _ _ ?_ ?_; rotate_left; (intro st x hst)) | split | dsimp only | intro _)

theorem kept_versionsPair {a s : State} (h : Kept a s) : Kept a (State.versionsPair s) := by
  unfold State.versionsPair
  repeat' (first | with_reducible assumption | with_reducible apply kept_versionsPairOf)

theorem kept_tenantState {a s : State} (t : TSlot) (state : Byte) (reason : Byte) (h : Kept a s) : Kept a (State.tenantState s t state reason) := by
  unfold State.tenantState
  repeat' (first | with_reducible assumption | with_reducible apply kept_record)

theorem kept_chipRecord {a s : State} (c : Fin 2) (h : Kept a s) : Kept a (State.chipRecord s c) := by
  unfold State.chipRecord
  repeat' (first | with_reducible assumption | with_reducible apply kept_record | simp only [↓kept_mk] | with_reducible apply kept_ite)

theorem kept_startGroup {a s : State} (h : Kept a s) : Kept a (State.startGroup s) := by
  unfold State.startGroup
  repeat' (first
    | with_reducible assumption | with_reducible apply kept_chipRecord | with_reducible apply kept_record | simp only [↓kept_mk]
    | with_reducible apply kept_ite)

theorem kept_refuseStale {a s : State} (t : TSlot) (d : TenantDecl) (h : Kept a s) : Kept a (State.refuseStale s t d) := by
  unfold State.refuseStale
  repeat' (first | with_reducible assumption | with_reducible apply kept_modTenant | simp only [↓kept_mk] | with_reducible apply kept_ite)

theorem kept_openPort {a s : State} (t : TSlot) (d : TenantDecl) (h : Kept a s) : Kept a (State.openPort s t d) := by
  unfold State.openPort
  repeat' (first
    | with_reducible assumption | with_reducible apply kept_modPort | with_reducible apply kept_modTenant | simp only [↓kept_mk]
    | with_reducible apply kept_ite | simp only [↓kept_mk, flash_of_latch, flash_of_modTenant, flash_of_setTenant] | split)

theorem kept_serveTenant {a s : State} (t : TSlot) (d : TenantDecl) (life : TenantLife) (reason : Byte) (confirmed : Option Bool) (h : Kept a s) : Kept a (State.serveTenant s t d life reason confirmed) := by
  unfold State.serveTenant
  repeat' (first
    | with_reducible assumption | with_reducible apply kept_openPort | with_reducible apply kept_refuseStale
    | with_reducible apply kept_setLine | with_reducible apply kept_loadDataKey | with_reducible apply kept_publish
    | with_reducible apply kept_setAlert | with_reducible apply kept_modTenant | with_reducible apply kept_dropKey | simp only [↓kept_mk]
    | with_reducible apply kept_ite)

theorem kept_releaseTenant {a s : State} (t : TSlot) (d : TenantDecl) (h : Kept a s) : Kept a (State.releaseTenant s t d) := by
  unfold State.releaseTenant
  repeat' (first
    | with_reducible assumption | with_reducible apply kept_serveTenant | with_reducible apply kept_tenantState
    | with_reducible apply kept_writeTrial | with_reducible apply kept_modTenant | simp only [↓kept_mk] | with_reducible apply kept_ite)

theorem kept_failTenant {a s : State} (t : TSlot) (d : TenantDecl) (reason : Byte) (h : Kept a s) : Kept a (State.failTenant s t d reason) := by
  unfold State.failTenant
  repeat' (first
    | with_reducible assumption | with_reducible apply kept_serveTenant | with_reducible apply kept_tenantState
    | with_reducible apply kept_holdTenant | with_reducible apply kept_askRevert | with_reducible apply kept_modTenant
    | simp only [↓kept_mk] | with_reducible apply kept_ite | simp only [↓kept_mk, flash_of_latch, flash_of_modTenant, flash_of_setTenant]
    | split)

theorem kept_nextPlace {a s : State} (h : Kept a s) : Kept a (State.nextPlace s) := by
  unfold State.nextPlace
  repeat' (first
    | with_reducible assumption | with_reducible apply kept_startGroup | with_reducible apply kept_startStaging | simp only [↓kept_mk]
    | with_reducible apply kept_ite | simp only [↓kept_mk, flash_of_latch, flash_of_modTenant, flash_of_setTenant] | split)

theorem kept_beginStaging {a s : State} (h : Kept a s) : Kept a (State.beginStaging s) := by
  unfold State.beginStaging
  repeat' (first
    | with_reducible assumption | with_reducible apply kept_startGroup | with_reducible apply kept_startStaging | simp only [↓kept_mk]
    | with_reducible apply kept_ite | simp only [↓kept_mk, flash_of_latch, flash_of_modTenant, flash_of_setTenant] | split)

theorem kept_restart {a s : State} (t : TSlot) (d : TenantDecl) (h : Kept a s) : Kept a (State.restart s t d) := by
  unfold State.restart
  repeat' (first
    | with_reducible assumption | with_reducible apply kept_tenantState | with_reducible apply kept_startStaging
    | with_reducible apply kept_setLine | with_reducible apply kept_setAlert | with_reducible apply kept_setClock
    | with_reducible apply kept_modPort | with_reducible apply kept_modTenant | simp only [↓kept_mk] | with_reducible apply kept_ite
    | simp only [↓kept_mk, flash_of_latch, flash_of_modTenant, flash_of_setTenant]
    | (with_reducible refine kept_foldl _ _ ?_ ?_; rotate_left; (intro st x hst)) | split | dsimp only | intro _)

theorem kept_revertDone {a s : State} (t : TSlot) (h : Kept a s) : Kept a (State.revertDone s t) := by
  unfold State.revertDone
  repeat' (first
    | with_reducible assumption | with_reducible apply kept_versionsAhead | with_reducible apply kept_stageNow
    | with_reducible apply kept_reverted | with_reducible apply kept_modTenant | with_reducible apply kept_dropKey | simp only [↓kept_mk]
    | with_reducible apply kept_ite | simp only [↓kept_mk, flash_of_latch, flash_of_modTenant, flash_of_setTenant]
    | (with_reducible refine kept_foldl _ _ ?_ ?_; rotate_left; (intro st x hst)) | split | dsimp only | intro _)

theorem kept_revertRefused {a s : State} (t : TSlot) (h : Kept a s) : Kept a (State.revertRefused s t) := by
  unfold State.revertRefused
  repeat' (first
    | with_reducible assumption | with_reducible apply kept_nextPlace | with_reducible apply kept_tenantState
    | with_reducible apply kept_holdTenant | with_reducible apply kept_modTenant | simp only [↓kept_mk] | with_reducible apply kept_ite
    | simp only [↓kept_mk, flash_of_latch, flash_of_modTenant, flash_of_setTenant] | split)

theorem kept_endJob {a s : State} (lane : Fin 2) (j : LaneJob) (h : Kept a s) : Kept a (State.endJob s lane j) := by
  unfold State.endJob
  repeat' (first
    | with_reducible assumption | with_reducible apply kept_mergePassed | with_reducible apply kept_mergeFailed
    | with_reducible apply kept_chainPassed | with_reducible apply kept_chainFailed | with_reducible apply kept_stageLeaf
    | with_reducible apply kept_latch | simp only [↓kept_mk] | with_reducible apply kept_ite
    | simp only [↓kept_mk, flash_of_latch, flash_of_modTenant, flash_of_setTenant] | split)

theorem kept_verifyLane {a s : State} (lane : Fin 2) (h : Kept a s) : Kept a (State.verifyLane s lane) := by
  unfold State.verifyLane
  repeat' (first
    | with_reducible assumption | with_reducible apply kept_endJob | with_reducible apply kept_setLane | simp only [↓kept_mk]
    | with_reducible apply kept_ite | simp only [↓kept_mk, flash_of_latch, flash_of_modTenant, flash_of_setTenant] | split)

theorem kept_toLaneEnd {a s : State} (lane : Fin 2) (h : Kept a s) : Kept a (State.toLaneEnd s lane) := by
  unfold State.toLaneEnd
  repeat' (first
    | with_reducible assumption | with_reducible apply kept_verifyLane | with_reducible apply kept_pass | simp only [↓kept_mk]
    | with_reducible apply kept_ite | simp only [↓kept_mk, flash_of_latch, flash_of_modTenant, flash_of_setTenant]
    | (with_reducible refine kept_foldl _ _ ?_ ?_; rotate_left; (intro st x hst)) | split | dsimp only | intro _)

theorem kept_endDue {a s : State} (h : Kept a s) : Kept a (State.endDue s) := by
  unfold State.endDue
  repeat' (first
    | with_reducible assumption | with_reducible apply kept_verifyLane | simp only [↓kept_mk] | with_reducible apply kept_ite
    | simp only [↓kept_mk, flash_of_latch, flash_of_modTenant, flash_of_setTenant]
    | (with_reducible refine kept_foldl _ _ ?_ ?_; rotate_left; (intro st x hst)) | split | dsimp only | intro _)

theorem kept_endLanes {a s : State} (h : Kept a s) : Kept a (State.endLanes s) := by
  unfold State.endLanes
  repeat' (first
    | with_reducible assumption | with_reducible apply kept_verifyLane | simp only [↓kept_mk] | with_reducible apply kept_ite
    | simp only [↓kept_mk, flash_of_latch, flash_of_modTenant, flash_of_setTenant]
    | (with_reducible refine kept_foldl _ _ ?_ ?_; rotate_left; (intro st x hst)) | split | dsimp only | intro _)

theorem kept_porchEnd {a s : State} (t : TSlot) (r : Region) (status : Byte) (reason : Byte) (h : Kept a s) : Kept a (State.porchEnd s t r status reason) := by
  unfold State.porchEnd
  repeat' (first | with_reducible assumption | with_reducible apply kept_modTenant)

theorem kept_porchRefuse {a s : State} (t : TSlot) (d : TenantDecl) (r : Region) (reason : Byte) (h : Kept a s) : Kept a (State.porchRefuse s t d r reason) := by
  unfold State.porchRefuse
  repeat' (first | with_reducible assumption | with_reducible apply kept_porchEnd | with_reducible apply kept_refuse)

theorem kept_takePorch {a s : State} (t : TSlot) (d : TenantDecl) (r : Region) (bytes : List (ℕ × Byte)) (h : Kept a s) : Kept a (State.takePorch s t d r bytes) := by
  unfold State.takePorch
  repeat' (first
    | with_reducible assumption | with_reducible apply kept_porchRefuse | with_reducible apply kept_refuse
    | with_reducible apply kept_setTenant | simp only [↓kept_mk] | with_reducible apply kept_ite
    | simp only [↓kept_mk, flash_of_latch, flash_of_modTenant, flash_of_setTenant] | split)

theorem kept_livePages {a s : State} (t : TSlot) (h : Kept a s) : Kept a (State.livePages s t) := by
  unfold State.livePages
  repeat' (first | with_reducible assumption | with_reducible apply kept_modTenant)

theorem kept_beginStatement {a s : State} (h : Kept a s) : Kept a (State.beginStatement s) := by
  unfold State.beginStatement
  repeat' (first
    | with_reducible assumption | with_reducible apply kept_recordThen | with_reducible apply kept_vaultPut | simp only [↓kept_mk]
    | with_reducible apply kept_ite | simp only [↓kept_mk, flash_of_latch, flash_of_modTenant, flash_of_setTenant] | split)

theorem kept_askStatement {a s : State} (a' : StmtAsker) (nonce : Bytes) (h : Kept a s) : Kept a (State.askStatement s a' nonce).1 := by
  unfold State.askStatement
  repeat' (first
    | with_reducible assumption | with_reducible apply kept_beginStatement | simp only [↓kept_mk] | with_reducible apply kept_ite
    | simp only [↓kept_mk, flash_of_latch, flash_of_modTenant, flash_of_setTenant] | split)
theorem kept_askStatement_of {a s nx : State} {a' : StmtAsker} {nonce : Bytes} {y} (e : (State.askStatement s a' nonce) = (nx, y)) (h : Kept a s) : Kept a nx := by
  have := kept_askStatement a' nonce h
  rwa [e] at this

theorem kept_fixStatement {a s : State} (h : Kept a s) : Kept a (State.fixStatement s) := by
  unfold State.fixStatement
  repeat' (first
    | with_reducible assumption | with_reducible refine kept_freeBelow_of (by assumption) ?_ | with_reducible apply kept_freeBelow
    | simp only [↓kept_mk] | with_reducible apply kept_ite | simp only [↓kept_mk, flash_of_latch, flash_of_modTenant, flash_of_setTenant]
    | split)

theorem kept_committed {a s : State} (o : OnCommit) (h : Kept a s) : Kept a (State.committed s o) := by
  unfold State.committed
  repeat' (first
    | with_reducible assumption | with_reducible apply kept_fixStatement | with_reducible apply kept_closeInstall
    | with_reducible apply kept_clearMark | with_reducible apply kept_modTenant | simp only [↓kept_mk] | with_reducible apply kept_ite
    | simp only [↓kept_mk, flash_of_latch, flash_of_modTenant, flash_of_setTenant] | split)

theorem kept_appendQueued {a s : State} (x1 : List AuditReq) (h : Kept a s) : Kept a (State.appendQueued s x1) := by
  induction x1 generalizing s with
  | nil => exact h
  | cons r rest ih => exact ih (kept_committed _ (kept_appendNow _ _ _ _ h))

theorem kept_appendAll {a s : State} (h : Kept a s) : Kept a (State.appendAll s) := by
  unfold State.appendAll
  repeat' (first
    | with_reducible assumption | with_reducible apply kept_appendQueued | simp only [↓kept_mk] | with_reducible apply kept_ite
    | simp only [↓kept_mk, flash_of_latch, flash_of_modTenant, flash_of_setTenant]
    | (with_reducible refine kept_foldl _ _ ?_ ?_; rotate_left; (intro st x hst)) | split | dsimp only | intro _)

theorem kept_signHash {a s : State} (hash : Bytes) (h : Kept a s) : Kept a (State.signHash s hash).2 := by
  unfold State.signHash
  repeat' (first
    | with_reducible assumption | with_reducible refine kept_random_of (by assumption) ?_ | with_reducible apply kept_random
    | with_reducible apply kept_latchIf | simp only [↓kept_mk] | with_reducible apply kept_ite
    | simp only [↓kept_mk, flash_of_latch, flash_of_modTenant, flash_of_setTenant]
    | (with_reducible refine kept_foldl _ _ ?_ ?_; rotate_left; (intro st x hst)) | split | dsimp only | intro _)
theorem kept_signHash_of {a s nx : State} {hash : Bytes} {y} (e : (State.signHash s hash) = (y, nx)) (h : Kept a s) : Kept a nx := by
  have := kept_signHash hash h
  rwa [e] at this

theorem kept_signStatement {a s : State} (payload : Bytes) (h : Kept a s) : Kept a (State.signStatement s payload).2 := by
  unfold State.signStatement
  repeat' (first
    | with_reducible assumption | with_reducible refine kept_signHash_of (by assumption) ?_ | with_reducible apply kept_signHash
    | simp only [↓kept_mk] | with_reducible apply kept_ite | simp only [↓kept_mk, flash_of_latch, flash_of_modTenant, flash_of_setTenant]
    | (with_reducible refine kept_foldl _ _ ?_ ?_; rotate_left; (intro st x hst)) | split | dsimp only | intro _)
theorem kept_signStatement_of {a s nx : State} {payload : Bytes} {y} (e : (State.signStatement s payload) = (y, nx)) (h : Kept a s) : Kept a nx := by
  have := kept_signStatement payload h
  rwa [e] at this

theorem kept_sendFragments {a s : State} (dest : Dest) (request : Byte) (bytes : Bytes) (h : Kept a s) : Kept a (State.sendFragments s dest request bytes) := by
  unfold State.sendFragments
  repeat' (first
    | with_reducible assumption | with_reducible apply kept_send | simp only [↓kept_mk] | with_reducible apply kept_ite
    | simp only [↓kept_mk, flash_of_latch, flash_of_modTenant, flash_of_setTenant]
    | (with_reducible refine kept_foldl _ _ ?_ ?_; rotate_left; (intro st x hst)))

theorem kept_deliver {a s : State} (a' : StmtAsker) (bytes : Bytes) (h : Kept a s) : Kept a (State.deliver s a' bytes) := by
  unfold State.deliver
  repeat' (first
    | with_reducible assumption | with_reducible apply kept_sendFragments | with_reducible apply kept_modTenant | simp only [↓kept_mk]
    | with_reducible apply kept_ite | simp only [↓kept_mk, flash_of_latch, flash_of_modTenant, flash_of_setTenant] | split)

theorem kept_signHead {a s : State} (h : Kept a s) : Kept a (State.signHead s) := by
  unfold State.signHead
  repeat' (first
    | with_reducible assumption | with_reducible apply kept_deliver | with_reducible refine kept_signStatement_of (by assumption) ?_
    | with_reducible apply kept_signStatement | with_reducible apply kept_beginStatement | simp only [↓kept_mk]
    | with_reducible apply kept_ite | simp only [↓kept_mk, flash_of_latch, flash_of_modTenant, flash_of_setTenant] | split)

theorem kept_fillWindow {a s : State} (t : TSlot) (d : TenantDecl) (addr : ℕ) (h : Kept a s) : Kept a (State.fillWindow s t d addr) := by
  unfold State.fillWindow
  repeat' (first
    | with_reducible assumption | with_reducible apply kept_leafFail | with_reducible apply kept_modTenant | simp only [↓kept_mk]
    | with_reducible apply kept_ite)

theorem kept_fillPorch {a s : State} (t : TSlot) (d : TenantDecl) (addr : ℕ) (h : Kept a s) : Kept a (State.fillPorch s t d addr) := by
  unfold State.fillPorch
  repeat' (first | with_reducible assumption | with_reducible apply kept_livePages | with_reducible apply kept_modTenant)

theorem kept_queueChain {a s : State} (t : TSlot) (d : TenantDecl) (opcode : Byte) (addr : ℕ) (h : Kept a s) : Kept a (State.queueChain s t d opcode addr) := by
  unfold State.queueChain
  repeat' (first
    | with_reducible assumption | with_reducible apply kept_endReads | with_reducible apply kept_refuse
    | with_reducible apply kept_setTenant | simp only [↓kept_mk] | with_reducible apply kept_ite
    | simp only [↓kept_mk, flash_of_latch, flash_of_modTenant, flash_of_setTenant]
    | (with_reducible refine kept_foldl _ _ ?_ ?_; rotate_left; (intro st x hst)) | split | dsimp only | intro _)

theorem kept_keepRequest {a s : State} (t : TSlot) (r : LinkRequest) (h : Kept a s) : Kept a (State.keepRequest s t r) := by
  unfold State.keepRequest
  repeat' (first | with_reducible assumption | with_reducible apply kept_modTenant)

theorem kept_answerKept {a s : State} (t : TSlot) (d : TenantDecl) (request : Byte) (kind : ℕ) (outcome : Byte) (h : Kept a s) : Kept a (State.answerKept s t d request kind outcome) := by
  unfold State.answerKept
  repeat' (first
    | with_reducible assumption | with_reducible apply kept_answerLink | simp only [↓kept_mk] | with_reducible apply kept_ite
    | simp only [↓kept_mk, flash_of_latch, flash_of_modTenant, flash_of_setTenant]
    | (with_reducible refine kept_foldl _ _ ?_ ?_; rotate_left; (intro st x hst)) | split | dsimp only | intro _)

theorem kept_endWrite {a s : State} (t : TSlot) (w : Option PendingWrite) (outcome : Byte) (h : Kept a s) : Kept a (State.endWrite s t w outcome) := by
  unfold State.endWrite
  repeat' (first
    | with_reducible assumption | with_reducible apply kept_answerKept | simp only [↓kept_mk] | with_reducible apply kept_ite
    | simp only [↓kept_mk, flash_of_latch, flash_of_modTenant, flash_of_setTenant]
    | (with_reducible refine kept_foldl _ _ ?_ ?_; rotate_left; (intro st x hst)) | split | dsimp only | intro _)

theorem kept_pollPage {a s : State} (t : TSlot) (d : TenantDecl) (request : Byte) (addr : ℕ) (data : Bytes) (h : Kept a s) : Kept a (State.pollPage s t d request addr data) := by
  unfold State.pollPage
  repeat' (first
    | with_reducible assumption | with_reducible apply kept_answerKept | with_reducible apply kept_takePorch | simp only [↓kept_mk]
    | with_reducible apply kept_ite | simp only [↓kept_mk, flash_of_latch, flash_of_modTenant, flash_of_setTenant]
    | (with_reducible refine kept_foldl _ _ ?_ ?_; rotate_left; (intro st x hst)) | split | dsimp only | intro _)

theorem kept_pollStatement {a s : State} (t : TSlot) (d : TenantDecl) (request : Byte) (nonce : Bytes) (h : Kept a s) : Kept a (State.pollStatement s t d request nonce) := by
  unfold State.pollStatement
  repeat' (first
    | with_reducible assumption | with_reducible apply kept_answerKept | with_reducible refine kept_askStatement_of (by assumption) ?_
    | with_reducible apply kept_askStatement | with_reducible apply kept_porchRefuse | with_reducible apply kept_refuse
    | with_reducible apply kept_modTenant | simp only [↓kept_mk] | with_reducible apply kept_ite
    | simp only [↓kept_mk, flash_of_latch, flash_of_modTenant, flash_of_setTenant]
    | (with_reducible refine kept_foldl _ _ ?_ ?_; rotate_left; (intro st x hst)) | split | dsimp only | intro _)

theorem kept_applyEvent {a s : State} (t : TSlot) (d : TenantDecl) (e' : LaneEvent) (h : Kept a s) : Kept a (State.applyEvent s t d e') := by
  unfold State.applyEvent
  repeat' (first
    | with_reducible assumption | with_reducible apply kept_pollStatement | with_reducible apply kept_pollPage
    | with_reducible apply kept_queueChain | with_reducible apply kept_fillPorch | with_reducible apply kept_fillWindow
    | with_reducible apply kept_takePorch | with_reducible apply kept_clearWip | with_reducible apply kept_refuse
    | with_reducible apply kept_modTenant | simp only [↓kept_mk] | with_reducible apply kept_ite
    | simp only [↓kept_mk, flash_of_latch, flash_of_modTenant, flash_of_setTenant]
    | (with_reducible refine kept_foldl _ _ ?_ ?_; rotate_left; (intro st x hst)) | split | dsimp only | intro _)

theorem kept_applyOutcome {a s : State} (t : TSlot) (o : TOutcome) (h : Kept a s) : Kept a (State.applyOutcome s t o) := by
  unfold State.applyOutcome
  repeat' (first
    | with_reducible assumption | with_reducible apply kept_endWrite | with_reducible apply kept_endReads | with_reducible apply kept_refuse
    | with_reducible apply kept_modTenant | simp only [↓kept_mk] | with_reducible apply kept_ite
    | simp only [↓kept_mk, flash_of_latch, flash_of_modTenant, flash_of_setTenant]
    | (with_reducible refine kept_foldl _ _ ?_ ?_; rotate_left; (intro st x hst)) | split | dsimp only | intro _)

theorem kept_markDeferred {a s : State} (t : TSlot) (h : Kept a s) : Kept a (State.markDeferred s t) := by
  unfold State.markDeferred
  repeat' (first | with_reducible assumption | with_reducible apply kept_modTenant)

theorem kept_freeChains {a s : State} (t : TSlot) (h : Kept a s) : Kept a (State.freeChains s t) := by
  unfold State.freeChains
  repeat' (first | with_reducible assumption | with_reducible apply kept_modTenant)

theorem kept_finishWrite {a s : State} (t : TSlot) (h : Kept a s) : Kept a (State.finishWrite s t) := by
  unfold State.finishWrite
  repeat' (first
    | with_reducible assumption | with_reducible apply kept_endWrite | with_reducible apply kept_clearWip
    | with_reducible apply kept_modTenant | simp only [↓kept_mk] | with_reducible apply kept_ite
    | simp only [↓kept_mk, flash_of_latch, flash_of_modTenant, flash_of_setTenant]
    | (with_reducible refine kept_foldl _ _ ?_ ?_; rotate_left; (intro st x hst)) | split | dsimp only | intro _)

theorem kept_continueRead {a s : State} (t : TSlot) (d : TenantDecl) (r : LinkRequest) (h : Kept a s) : Kept a (State.continueRead s t d r) := by
  unfold State.continueRead
  repeat' (first
    | with_reducible assumption | with_reducible apply kept_queueChain | with_reducible apply kept_fillPorch
    | with_reducible apply kept_fillWindow | simp only [↓kept_mk] | with_reducible apply kept_ite
    | simp only [↓kept_mk, flash_of_latch, flash_of_modTenant, flash_of_setTenant]
    | (with_reducible refine kept_foldl _ _ ?_ ?_; rotate_left; (intro st x hst)) | split | dsimp only | intro _)

theorem kept_replyData {a s : State} (t : TSlot) (p : Peer) (request : Byte) (addr : ℕ) (bytes : Bytes) (failed : Bool) (h : Kept a s) : Kept a (State.replyData s t p request addr bytes failed) := by
  unfold State.replyData
  repeat' (first
    | with_reducible assumption | with_reducible apply kept_send | simp only [↓kept_mk] | with_reducible apply kept_ite
    | simp only [↓kept_mk, flash_of_latch, flash_of_modTenant, flash_of_setTenant]
    | (with_reducible refine kept_foldl _ _ ?_ ?_; rotate_left; (intro st x hst)) | split | dsimp only | intro _)

theorem kept_finishRead {a s : State} (t : TSlot) (d : TenantDecl) (r : LinkRequest) (h : Kept a s) : Kept a (State.finishRead s t d r) := by
  unfold State.finishRead
  repeat' (first
    | with_reducible assumption | with_reducible apply kept_replyData | with_reducible apply kept_modTenant | simp only [↓kept_mk]
    | with_reducible apply kept_ite | simp only [↓kept_mk, flash_of_latch, flash_of_modTenant, flash_of_setTenant]
    | (with_reducible refine kept_foldl _ _ ?_ ?_; rotate_left; (intro st x hst)) | split | dsimp only | intro _)

theorem kept_askMerge {a s : State} (t : TSlot) (h : Kept a s) : Kept a (State.askMerge s t) := by
  unfold State.askMerge
  repeat' (first
    | with_reducible assumption | simp only [↓kept_mk] | with_reducible apply kept_ite
    | simp only [↓kept_mk, flash_of_latch, flash_of_modTenant, flash_of_setTenant]
    | (with_reducible refine kept_foldl _ _ ?_ ?_; rotate_left; (intro st x hst)) | split | dsimp only | intro _)

theorem kept_pollDead {a s : State} (t : TSlot) (d : TenantDecl) (h : Kept a s) : Kept a (State.pollDead s t d) := by
  unfold State.pollDead
  repeat' (first
    | with_reducible assumption | with_reducible apply kept_refuseDead | simp only [↓kept_mk] | with_reducible apply kept_ite
    | simp only [↓kept_mk, flash_of_latch, flash_of_modTenant, flash_of_setTenant]
    | (with_reducible refine kept_foldl _ _ ?_ ?_; rotate_left; (intro st x hst)) | split | dsimp only | intro _)

theorem kept_pollLane {a s : State} (t : TSlot) (d : TenantDecl) (h : Kept a s) : Kept a (State.pollLane s t d) := by
  unfold State.pollLane
  repeat' (first
    | with_reducible assumption | with_reducible apply kept_pollDead | with_reducible apply kept_askMerge
    | with_reducible apply kept_finishRead | with_reducible apply kept_continueRead | with_reducible apply kept_finishWrite
    | with_reducible apply kept_freeChains | with_reducible apply kept_markDeferred | with_reducible apply kept_applyOutcome
    | with_reducible apply kept_applyEvent | with_reducible apply kept_livePages | with_reducible apply kept_publish
    | with_reducible apply kept_modTenant | with_reducible apply kept_setTenant | simp only [↓kept_mk] | with_reducible apply kept_ite
    | simp only [↓kept_mk, flash_of_latch, flash_of_modTenant, flash_of_setTenant]
    | (with_reducible refine kept_foldl _ _ ?_ ?_; rotate_left; (intro st x hst)) | split | dsimp only | intro _)

end Sys2Proof.Laws
end

