-- ==== Sys2Proof/Laws/KeptServices.lean ====
section
/-! SUPPORT. One lemma per shared operation of these model files, in the relation of Kept.lean: Supply, Lane, Writes, Porch, Service, MailOps, Mailbox, Sleep, BadgerOps, BadgerRun. -/
namespace Sys2Proof.Laws
open Sys2Proof.Machine Sys2Proof.Safety

theorem kept_execPowerOnReset {a s : State} (vbat : ℕ) (vddioH : ℕ) (vddioF : ℕ) (h : Kept a s) : KeptOut a (execPowerOnReset vbat vddioH vddioF s) := by
  unfold execPowerOnReset
  repeat' (first
    | with_reducible assumption | with_reducible apply keptOut_next | with_reducible apply keptOut_fault
    | with_reducible apply keptOut_refused | with_reducible apply kept_release | simp only [↓kept_mk] | with_reducible apply kept_ite)

theorem kept_execBrownOut {a s : State} (cause : TripCause) (vbat : ℕ) (h : Kept a s) : KeptOut a (execBrownOut cause vbat s) := by
  unfold execBrownOut
  repeat' (first
    | with_reducible assumption | with_reducible apply keptOut_next | with_reducible apply keptOut_fault
    | with_reducible apply keptOut_refused | with_reducible apply kept_fallTo | with_reducible apply kept_brownOut | simp only [↓kept_mk]
    | with_reducible apply kept_ite | simp only [↓kept_mk, flash_of_latch, flash_of_modTenant, flash_of_setTenant]
    | (with_reducible refine kept_foldl _ _ ?_ ?_; rotate_left; (intro st x hst)) | split | dsimp only | intro _)

theorem kept_execCommitMonitorTrip {a s : State} (h : Kept a s) : KeptOut a (execCommitMonitorTrip s) := by
  unfold execCommitMonitorTrip
  repeat' (first
    | with_reducible assumption | with_reducible apply keptOut_next | with_reducible apply keptOut_fault
    | with_reducible apply keptOut_refused | with_reducible apply kept_holdWith | with_reducible apply kept_commitTrip
    | with_reducible apply kept_latch | simp only [↓kept_mk] | with_reducible apply kept_ite
    | simp only [↓kept_mk, flash_of_latch, flash_of_modTenant, flash_of_setTenant] | split)

theorem kept_execStrapWindowOpen {a s : State} (i : StrapInputs) (h : Kept a s) : KeptOut a (execStrapWindowOpen i s) := by
  unfold execStrapWindowOpen
  repeat' (first
    | with_reducible assumption | with_reducible apply keptOut_next | with_reducible apply keptOut_fault
    | with_reducible apply keptOut_refused | with_reducible apply kept_openWindow | simp only [↓kept_mk] | with_reducible apply kept_ite)

theorem kept_execStrapKeeperLatch {a s : State} (fstrap : Option ℕ) (astrap : Option ℕ) (alertb : Option ℕ) (h : Kept a s) : KeptOut a (execStrapKeeperLatch fstrap astrap alertb s) := by
  unfold execStrapKeeperLatch
  repeat' (first
    | with_reducible assumption | with_reducible apply keptOut_next | with_reducible apply keptOut_fault
    | with_reducible apply keptOut_refused | with_reducible apply kept_latchKeepers | simp only [↓kept_mk] | with_reducible apply kept_ite
    | simp only [↓kept_mk, flash_of_latch, flash_of_modTenant, flash_of_setTenant]
    | (with_reducible refine kept_foldl _ _ ?_ ?_; rotate_left; (intro st x hst)) | split | dsimp only | intro _)

theorem kept_execStrapWindowEnd {a s : State} (h : Kept a s) : KeptOut a (execStrapWindowEnd s) := by
  unfold execStrapWindowEnd
  repeat' (first
    | with_reducible assumption | with_reducible apply keptOut_next | with_reducible apply keptOut_fault
    | with_reducible apply keptOut_refused | with_reducible apply kept_endWindow | simp only [↓kept_mk] | with_reducible apply kept_ite)

theorem kept_execConfirmationPulseEdge {a s : State} (slot : ℕ) (sense3 : ℕ) (h : Kept a s) : KeptOut a (execConfirmationPulseEdge slot sense3 s) := by
  unfold execConfirmationPulseEdge
  repeat' (first
    | with_reducible assumption | with_reducible apply keptOut_next | with_reducible apply keptOut_fault
    | with_reducible apply keptOut_refused | with_reducible apply kept_trainEdge | simp only [↓kept_mk] | with_reducible apply kept_ite
    | simp only [↓kept_mk, flash_of_latch, flash_of_modTenant, flash_of_setTenant]
    | (with_reducible refine kept_foldl _ _ ?_ ?_; rotate_left; (intro st x hst)) | split | dsimp only | intro _)

theorem kept_execBankSupplyInRange {a s : State} (vddioH : ℕ) (h : Kept a s) : KeptOut a (execBankSupplyInRange vddioH s) := by
  unfold execBankSupplyInRange
  repeat' (first
    | with_reducible assumption | with_reducible apply keptOut_next | with_reducible apply keptOut_fault
    | with_reducible apply keptOut_refused | simp only [↓kept_mk] | with_reducible apply kept_ite)

theorem kept_execWatchdogExpiry {a s : State} (h : Kept a s) : KeptOut a (execWatchdogExpiry s) := by
  unfold execWatchdogExpiry
  repeat' (first
    | with_reducible assumption | with_reducible apply keptOut_next | with_reducible apply keptOut_fault
    | with_reducible apply keptOut_refused | with_reducible apply kept_brownOut | simp only [↓kept_mk] | with_reducible apply kept_ite)

theorem kept_execGlitchMonitorAlarm {a s : State} (h : Kept a s) : KeptOut a (execGlitchMonitorAlarm s) := by
  unfold execGlitchMonitorAlarm
  repeat' (first
    | with_reducible assumption | with_reducible apply keptOut_next | with_reducible apply keptOut_fault
    | with_reducible apply keptOut_refused | with_reducible apply kept_brownOut | simp only [↓kept_mk] | with_reducible apply kept_ite)

theorem kept_execLfxoQualified {a s : State} (h : Kept a s) : KeptOut a (execLfxoQualified s) := by
  unfold execLfxoQualified
  repeat' (first
    | with_reducible assumption | with_reducible apply keptOut_next | with_reducible apply keptOut_fault
    | with_reducible apply keptOut_refused | with_reducible apply kept_latch | simp only [↓kept_mk] | with_reducible apply kept_ite)

theorem kept_execLfxoLost {a s : State} (h : Kept a s) : KeptOut a (execLfxoLost s) := by
  unfold execLfxoLost
  repeat' (first
    | with_reducible assumption | with_reducible apply keptOut_next | with_reducible apply keptOut_fault
    | with_reducible apply keptOut_refused | with_reducible apply kept_latch | simp only [↓kept_mk] | with_reducible apply kept_ite)

theorem kept_execLfxoDeadline {a s : State} (h : Kept a s) : KeptOut a (execLfxoDeadline s) := by
  unfold execLfxoDeadline
  repeat' (first
    | with_reducible assumption | with_reducible apply keptOut_next | with_reducible apply keptOut_fault
    | with_reducible apply keptOut_refused | with_reducible apply kept_pass | with_reducible apply kept_latch | simp only [↓kept_mk]
    | with_reducible apply kept_ite | simp only [↓kept_mk, flash_of_latch, flash_of_modTenant, flash_of_setTenant]
    | (with_reducible refine kept_foldl _ _ ?_ ?_; rotate_left; (intro st x hst)) | split | dsimp only | intro _)

theorem kept_execTrngHealthFailure {a s : State} (src : Fin 2) (test : TrngTest) (h : Kept a s) : KeptOut a (execTrngHealthFailure src test s) := by
  unfold execTrngHealthFailure
  repeat' (first
    | with_reducible assumption | with_reducible apply keptOut_next | with_reducible apply keptOut_fault
    | with_reducible apply keptOut_refused | with_reducible apply kept_recordLimited | with_reducible apply kept_latch
    | simp only [↓kept_mk] | with_reducible apply kept_ite)

theorem kept_execDrbgReseed {a s : State} (h : Kept a s) : KeptOut a (execDrbgReseed s) := by
  unfold execDrbgReseed
  repeat' (first
    | with_reducible assumption | with_reducible apply keptOut_next | with_reducible apply keptOut_fault
    | with_reducible apply keptOut_refused | with_reducible apply kept_setClock | with_reducible apply kept_latch | simp only [↓kept_mk]
    | with_reducible apply kept_ite | simp only [↓kept_mk, flash_of_latch, flash_of_modTenant, flash_of_setTenant]
    | (with_reducible refine kept_foldl _ _ ?_ ?_; rotate_left; (intro st x hst)) | split | dsimp only | intro _)

theorem kept_execLeafVerifyDone {a s : State} (lane : Fin 2) (h : Kept a s) : KeptOut a (execLeafVerifyDone lane s) := by
  unfold execLeafVerifyDone
  repeat' (first
    | with_reducible assumption | with_reducible apply keptOut_next | with_reducible apply keptOut_fault
    | with_reducible apply keptOut_refused | with_reducible apply kept_toLaneEnd | with_reducible apply kept_pump | simp only [↓kept_mk]
    | with_reducible apply kept_ite | simp only [↓kept_mk, flash_of_latch, flash_of_modTenant, flash_of_setTenant]
    | (with_reducible refine kept_foldl _ _ ?_ ?_; rotate_left; (intro st x hst)) | split | dsimp only | intro _)

theorem kept_serveStaging {a s : State} (m : Manifest) (t : TSlot) (d : TenantDecl) (lane : Fin 2) (h : Kept a s) : Kept a (State.serveStaging s m t d lane) := by
  unfold State.serveStaging
  repeat' (first
    | with_reducible assumption | with_reducible apply kept_takeLane | with_reducible apply kept_modTenant | simp only [↓kept_mk]
    | with_reducible apply kept_ite | simp only [↓kept_mk, flash_of_latch, flash_of_modTenant, flash_of_setTenant]
    | (with_reducible refine kept_foldl _ _ ?_ ?_; rotate_left; (intro st x hst)) | split | dsimp only | intro _)

theorem kept_serveMerge {a s : State} (m : Manifest) (t : TSlot) (d : TenantDecl) (lane : Fin 2) (h : Kept a s) : ∀ u, (State.serveMerge s m t d lane) = some u → Kept a u := by
  intro u e
  unfold State.serveMerge at e
  try dsimp only at e
  repeat' (first | (cases e; done) | split at e)
  all_goals (first | (cases e; done) | (obtain rfl := Option.some.inj e))
  all_goals (repeat' (first
  | with_reducible assumption | with_reducible apply kept_mergeFailed | with_reducible apply kept_failCommit
  | with_reducible apply kept_takeLane | simp only [↓kept_mk] | with_reducible apply kept_ite
  | simp only [↓kept_mk, flash_of_latch, flash_of_modTenant, flash_of_setTenant]
  | (with_reducible refine kept_foldl _ _ ?_ ?_; rotate_left; (intro st x hst)) | split | dsimp only | intro _))

theorem kept_serveOwner {a s : State} (m : Manifest) (t : TSlot) (d : TenantDecl) (lane : Fin 2) (h : Kept a s) : Kept a (State.serveOwner s m t d lane) := by
  unfold State.serveOwner
  repeat' (first
    | with_reducible assumption | with_reducible exact kept_serveMerge _ _ _ _ (by assumption) _ (by assumption)
    | with_reducible apply kept_serveStaging | with_reducible apply kept_serveChain | simp only [↓kept_mk] | with_reducible apply kept_ite
    | simp only [↓kept_mk, flash_of_latch, flash_of_modTenant, flash_of_setTenant]
    | (with_reducible refine kept_foldl _ _ ?_ ?_; rotate_left; (intro st x hst)) | split | dsimp only | intro _)

theorem kept_fetchOrders {a s : State} (refs : List ℕ) (h : Kept a s) : Kept a (State.fetchOrders s refs) := by
  unfold State.fetchOrders
  repeat' (first
    | with_reducible assumption | with_reducible apply kept_fetchOrder | simp only [↓kept_mk] | with_reducible apply kept_ite
    | simp only [↓kept_mk, flash_of_latch, flash_of_modTenant, flash_of_setTenant]
    | (with_reducible refine kept_foldl _ _ ?_ ?_; rotate_left; (intro st x hst)) | split | dsimp only | intro _)

theorem kept_serveWarden {a s : State} (m : Manifest) (h : Kept a s) : Kept a (State.serveWarden s m) := by
  unfold State.serveWarden
  repeat' (first
    | with_reducible assumption | with_reducible apply kept_fetchOrders | simp only [↓kept_mk] | with_reducible apply kept_ite
    | simp only [↓kept_mk, flash_of_latch, flash_of_modTenant, flash_of_setTenant]
    | (with_reducible refine kept_foldl _ _ ?_ ?_; rotate_left; (intro st x hst)) | split | dsimp only | intro _)

theorem kept_serveLedger {a s : State} (h : Kept a s) : Kept a (State.serveLedger s) := by
  unfold State.serveLedger
  repeat' (first
    | with_reducible assumption | with_reducible apply kept_fetchOrder | simp only [↓kept_mk] | with_reducible apply kept_ite
    | simp only [↓kept_mk, flash_of_latch, flash_of_modTenant, flash_of_setTenant]
    | (with_reducible refine kept_foldl _ _ ?_ ?_; rotate_left; (intro st x hst)) | split | dsimp only | intro _)

theorem kept_execTicketWindow {a s : State} (w : Fin 30) (h : Kept a s) : KeptOut a (execTicketWindow w s) := by
  unfold execTicketWindow
  repeat' (first
    | with_reducible assumption | with_reducible apply keptOut_next | with_reducible apply keptOut_fault
    | with_reducible apply keptOut_refused | with_reducible apply kept_serveLedger | with_reducible apply kept_serveWarden
    | with_reducible apply kept_serveOwner | with_reducible apply kept_endDue | with_reducible apply kept_verifyLane
    | with_reducible apply kept_pump | with_reducible apply kept_setClock | simp only [↓kept_mk] | with_reducible apply kept_ite
    | simp only [↓kept_mk, flash_of_latch, flash_of_modTenant, flash_of_setTenant]
    | (with_reducible refine kept_foldl _ _ ?_ ?_; rotate_left; (intro st x hst)) | split | dsimp only | intro _)

theorem kept_execCachePublication {a s : State} (t : TSlot) (h : Kept a s) : KeptOut a (execCachePublication t s) := by
  unfold execCachePublication
  repeat' (first
    | with_reducible assumption | with_reducible apply keptOut_next | with_reducible apply keptOut_fault
    | with_reducible apply keptOut_refused | with_reducible apply kept_endDue | with_reducible apply kept_toStart
    | with_reducible apply kept_modTenant | simp only [↓kept_mk] | with_reducible apply kept_ite
    | simp only [↓kept_mk, flash_of_latch, flash_of_modTenant, flash_of_setTenant]
    | (with_reducible refine kept_foldl _ _ ?_ ?_; rotate_left; (intro st x hst)) | split | dsimp only | intro _)

theorem kept_execLanePoll {a s : State} (t : TSlot) (h : Kept a s) : KeptOut a (execLanePoll t s) := by
  unfold execLanePoll
  repeat' (first
    | with_reducible assumption | with_reducible apply keptOut_next | with_reducible apply keptOut_fault
    | with_reducible apply keptOut_refused | with_reducible apply kept_pollLane | with_reducible apply kept_endDue
    | with_reducible apply kept_toPoll | simp only [↓kept_mk] | with_reducible apply kept_ite
    | simp only [↓kept_mk, flash_of_latch, flash_of_modTenant, flash_of_setTenant]
    | (with_reducible refine kept_foldl _ _ ?_ ?_; rotate_left; (intro st x hst)) | split | dsimp only | intro _)

theorem kept_expireWrite {a s : State} (t : TSlot) (limit : ℕ) (h : Kept a s) : Kept a (State.expireWrite s t limit) := by
  unfold State.expireWrite
  repeat' (first
    | with_reducible assumption | with_reducible apply kept_endWrite | with_reducible apply kept_clearWip | with_reducible apply kept_refuse
    | with_reducible apply kept_modTenant | simp only [↓kept_mk] | with_reducible apply kept_ite
    | simp only [↓kept_mk, flash_of_latch, flash_of_modTenant, flash_of_setTenant]
    | (with_reducible refine kept_foldl _ _ ?_ ?_; rotate_left; (intro st x hst)) | split | dsimp only | intro _)

theorem kept_expireChains {a s : State} (t : TSlot) (limit : ℕ) (h : Kept a s) : Kept a (State.expireChains s t limit) := by
  unfold State.expireChains
  repeat' (first
    | with_reducible assumption | with_reducible apply kept_endReads | with_reducible apply kept_refuse
    | with_reducible apply kept_modTenant | simp only [↓kept_mk] | with_reducible apply kept_ite
    | simp only [↓kept_mk, flash_of_latch, flash_of_modTenant, flash_of_setTenant]
    | (with_reducible refine kept_foldl _ _ ?_ ?_; rotate_left; (intro st x hst)) | split | dsimp only | intro _)

theorem kept_execDeferralLimitExpiry {a s : State} (t : TSlot) (h : Kept a s) : KeptOut a (execDeferralLimitExpiry t s) := by
  unfold execDeferralLimitExpiry
  repeat' (first
    | with_reducible assumption | with_reducible apply keptOut_next | with_reducible apply keptOut_fault
    | with_reducible apply keptOut_refused | with_reducible apply kept_expireChains | with_reducible apply kept_expireWrite
    | with_reducible apply kept_markDeferred | with_reducible apply kept_publish | with_reducible apply kept_setClock
    | with_reducible apply kept_modTenant | simp only [↓kept_mk] | with_reducible apply kept_ite
    | simp only [↓kept_mk, flash_of_latch, flash_of_modTenant, flash_of_setTenant]
    | (with_reducible refine kept_foldl _ _ ?_ ?_; rotate_left; (intro st x hst)) | split | dsimp only | intro _)

theorem kept_decideTenant {a s : State} (t : TSlot) (d : TenantDecl) (m : Manifest) (g : Staging) (h : Kept a s) : Kept a (State.decideTenant s t d m g) := by
  unfold State.decideTenant
  repeat' (first
    | with_reducible assumption | with_reducible apply kept_appendAll | with_reducible apply kept_failTenant
    | with_reducible apply kept_releaseTenant | with_reducible apply kept_versionsAll | with_reducible apply kept_versionsTenant
    | with_reducible apply kept_stageRest | with_reducible apply kept_setClock | with_reducible apply kept_modTenant | simp only [↓kept_mk]
    | with_reducible apply kept_ite | simp only [↓kept_mk, flash_of_latch, flash_of_modTenant, flash_of_setTenant]
    | (with_reducible refine kept_foldl _ _ ?_ ?_; rotate_left; (intro st x hst)) | split | dsimp only | intro _)

theorem kept_execStagingDecision {a s : State} (t : TSlot) (h : Kept a s) : KeptOut a (execStagingDecision t s) := by
  unfold execStagingDecision
  repeat' (first
    | with_reducible assumption | with_reducible apply keptOut_next | with_reducible apply keptOut_fault
    | with_reducible apply keptOut_refused | with_reducible apply kept_nextPlace | with_reducible apply kept_decideTenant
    | simp only [↓kept_mk] | with_reducible apply kept_ite | simp only [↓kept_mk, flash_of_latch, flash_of_modTenant, flash_of_setTenant]
    | split)

theorem kept_refuseWrite {a s : State} (t : TSlot) (w : PendingWrite) (reason : Byte) (h : Kept a s) : Kept a (State.refuseWrite s t w reason) := by
  unfold State.refuseWrite
  repeat' (first
    | with_reducible assumption | with_reducible apply kept_endWrite | with_reducible apply kept_clearWip | with_reducible apply kept_refuse
    | with_reducible apply kept_modTenant | simp only [↓kept_mk] | with_reducible apply kept_ite
    | simp only [↓kept_mk, flash_of_latch, flash_of_modTenant, flash_of_setTenant]
    | (with_reducible refine kept_foldl _ _ ?_ ?_; rotate_left; (intro st x hst)) | split | dsimp only | intro _)

theorem kept_closeOther {a s : State} (t : TSlot) (d : TenantDecl) (op : WriteOp) (h : Kept a s) : Kept a (State.closeOther s t d op) := by
  unfold State.closeOther
  repeat' (first
    | with_reducible assumption | with_reducible apply kept_modTenant | simp only [↓kept_mk] | with_reducible apply kept_ite
    | simp only [↓kept_mk, flash_of_latch, flash_of_modTenant, flash_of_setTenant]
    | (with_reducible refine kept_foldl _ _ ?_ ?_; rotate_left; (intro st x hst)) | split | dsimp only | intro _)

theorem kept_decideAt {a s : State} (t : TSlot) (d : TenantDecl) (w : PendingWrite) (h : Kept a s) : Kept a (State.decideAt s t d w) := by
  unfold State.decideAt
  repeat' (first
    | with_reducible assumption | with_reducible apply kept_closeOther | with_reducible apply kept_refuseWrite
    | with_reducible apply kept_acceptErase | with_reducible apply kept_acceptProgram | simp only [↓kept_mk] | with_reducible apply kept_ite
    | simp only [↓kept_mk, flash_of_latch, flash_of_modTenant, flash_of_setTenant]
    | (with_reducible refine kept_foldl _ _ ?_ ?_; rotate_left; (intro st x hst)) | split | dsimp only | intro _)

theorem kept_execWriteAcceptance {a s : State} (t : TSlot) (h : Kept a s) : KeptOut a (execWriteAcceptance t s) := by
  unfold execWriteAcceptance
  repeat' (first
    | with_reducible assumption | with_reducible apply keptOut_next | with_reducible apply keptOut_fault
    | with_reducible apply keptOut_refused | with_reducible apply kept_decideAt | with_reducible apply kept_publish
    | with_reducible apply kept_modTenant | simp only [↓kept_mk] | with_reducible apply kept_ite
    | simp only [↓kept_mk, flash_of_latch, flash_of_modTenant, flash_of_setTenant] | split)

theorem kept_execBounceBufferIdleClose {a s : State} (t : TSlot) (h : Kept a s) : KeptOut a (execBounceBufferIdleClose t s) := by
  unfold execBounceBufferIdleClose
  repeat' (first
    | with_reducible assumption | with_reducible apply keptOut_next | with_reducible apply keptOut_fault
    | with_reducible apply keptOut_refused | with_reducible apply kept_setClock | with_reducible apply kept_modTenant | simp only [↓kept_mk]
    | with_reducible apply kept_ite | simp only [↓kept_mk, flash_of_latch, flash_of_modTenant, flash_of_setTenant]
    | (with_reducible refine kept_foldl _ _ ?_ ?_; rotate_left; (intro st x hst)) | split | dsimp only | intro _)

theorem kept_execCommitStart {a s : State} (h : Kept a s) : KeptOut a (execCommitStart s) := by
  unfold execCommitStart
  repeat' (first
    | with_reducible assumption | with_reducible apply keptOut_next | with_reducible apply keptOut_fault
    | with_reducible apply keptOut_refused | with_reducible apply kept_pump | with_reducible apply kept_startCommit
    | with_reducible apply kept_toStart | simp only [↓kept_mk] | with_reducible apply kept_ite
    | simp only [↓kept_mk, flash_of_latch, flash_of_modTenant, flash_of_setTenant]
    | (with_reducible refine kept_foldl _ _ ?_ ?_; rotate_left; (intro st x hst)) | split | dsimp only | intro _)

theorem kept_resumeErases {a s : State} (h : Kept a s) : Kept a (State.resumeErases s) := by
  unfold State.resumeErases
  repeat' (first
    | with_reducible assumption | with_reducible apply kept_order | simp only [↓kept_mk] | with_reducible apply kept_ite
    | simp only [↓kept_mk, flash_of_latch, flash_of_modTenant, flash_of_setTenant]
    | (with_reducible refine kept_foldl _ _ ?_ ?_; rotate_left; (intro st x hst)) | split | dsimp only | intro _)

theorem kept_resumeCommit {a s : State} (h : Kept a s) : Kept a (State.resumeCommit s) := by
  unfold State.resumeCommit
  repeat' (first
    | with_reducible assumption | with_reducible apply kept_commitRestart | simp only [↓kept_mk] | with_reducible apply kept_ite
    | simp only [↓kept_mk, flash_of_latch, flash_of_modTenant, flash_of_setTenant] | split)

theorem kept_execCommitMonitorRelease {a s : State} (h : Kept a s) : KeptOut a (execCommitMonitorRelease s) := by
  unfold execCommitMonitorRelease
  repeat' (first
    | with_reducible assumption | with_reducible apply keptOut_next | with_reducible apply keptOut_fault
    | with_reducible apply keptOut_refused | with_reducible apply kept_resumeCommit | with_reducible apply kept_resumeErases
    | with_reducible apply kept_pump | with_reducible apply kept_latch | simp only [↓kept_mk] | with_reducible apply kept_ite)

theorem kept_execMakeStatement {a s : State} (t : TSlot) (h : Kept a s) : KeptOut a (execMakeStatement t s) := by
  unfold execMakeStatement
  repeat' (first
    | with_reducible assumption | with_reducible apply keptOut_next | with_reducible apply keptOut_fault
    | with_reducible apply keptOut_refused | with_reducible refine kept_askStatement_of (by assumption) ?_
    | with_reducible apply kept_askStatement | with_reducible apply kept_porchRefuse | simp only [↓kept_mk]
    | with_reducible apply kept_ite | simp only [↓kept_mk, flash_of_latch, flash_of_modTenant, flash_of_setTenant] | split)

theorem kept_execStatementSigning {a s : State} (h : Kept a s) : KeptOut a (execStatementSigning s) := by
  unfold execStatementSigning
  repeat' (first
    | with_reducible assumption | with_reducible apply keptOut_next | with_reducible apply keptOut_fault
    | with_reducible apply keptOut_refused | with_reducible apply kept_signHead | with_reducible apply kept_toStart
    | with_reducible apply kept_setClock | with_reducible apply kept_modPort | simp only [↓kept_mk] | with_reducible apply kept_ite
    | simp only [↓kept_mk, flash_of_latch, flash_of_modTenant, flash_of_setTenant]
    | (with_reducible refine kept_foldl _ _ ?_ ?_; rotate_left; (intro st x hst)) | split | dsimp only | intro _)

theorem kept_requestNote {a s : State} (t : TSlot) (h : Kept a s) : Kept a (State.requestNote s t) := by
  unfold State.requestNote
  repeat' (first | with_reducible assumption | with_reducible apply kept_recordThen | with_reducible apply kept_modTenant)

theorem kept_execAppendNote {a s : State} (t : TSlot) (h : Kept a s) : KeptOut a (execAppendNote t s) := by
  unfold execAppendNote
  repeat' (first
    | with_reducible assumption | with_reducible apply keptOut_next | with_reducible apply keptOut_fault
    | with_reducible apply keptOut_refused | with_reducible apply kept_requestNote | with_reducible apply kept_porchRefuse
    | simp only [↓kept_mk] | with_reducible apply kept_ite | simp only [↓kept_mk, flash_of_latch, flash_of_modTenant, flash_of_setTenant]
    | split)

theorem kept_giveNonce {a s : State} (t : TSlot) (h : Kept a s) : Kept a (State.giveNonce s t) := by
  unfold State.giveNonce
  repeat' (first
    | with_reducible assumption | with_reducible apply kept_modTenant | with_reducible refine kept_random_of (by assumption) ?_
    | with_reducible apply kept_random)

theorem kept_advance {a s : State} (t : TSlot) (h : Kept a s) : Kept a (State.advance s t) := by
  unfold State.advance
  repeat' (first | with_reducible assumption | with_reducible apply kept_livePages | with_reducible apply kept_countUp)

theorem kept_execNewNonce {a s : State} (t : TSlot) (h : Kept a s) : KeptOut a (execNewNonce t s) := by
  unfold execNewNonce
  repeat' (first
    | with_reducible assumption | with_reducible apply keptOut_next | with_reducible apply keptOut_fault
    | with_reducible apply keptOut_refused | with_reducible apply kept_giveNonce | with_reducible apply kept_porchEnd
    | simp only [↓kept_mk] | with_reducible apply kept_ite | simp only [↓kept_mk, flash_of_latch, flash_of_modTenant, flash_of_setTenant]
    | split)

theorem kept_execAdvanceCounter {a s : State} (t : TSlot) (h : Kept a s) : KeptOut a (execAdvanceCounter t s) := by
  unfold execAdvanceCounter
  repeat' (first
    | with_reducible assumption | with_reducible apply keptOut_next | with_reducible apply keptOut_fault
    | with_reducible apply keptOut_refused | with_reducible apply kept_advance | with_reducible apply kept_porchRefuse
    | with_reducible apply kept_porchEnd | simp only [↓kept_mk] | with_reducible apply kept_ite
    | simp only [↓kept_mk, flash_of_latch, flash_of_modTenant, flash_of_setTenant] | split)

theorem kept_execNonceAndAdvance {a s : State} (t : TSlot) (h : Kept a s) : KeptOut a (execNonceAndAdvance t s) := by
  unfold execNonceAndAdvance
  repeat' (first
    | with_reducible assumption | with_reducible apply keptOut_next | with_reducible apply keptOut_fault
    | with_reducible apply keptOut_refused | with_reducible apply kept_advance | with_reducible apply kept_giveNonce
    | with_reducible apply kept_porchRefuse | with_reducible apply kept_porchEnd | simp only [↓kept_mk] | with_reducible apply kept_ite
    | simp only [↓kept_mk, flash_of_latch, flash_of_modTenant, flash_of_setTenant] | split)

theorem kept_confirmTrial {a s : State} (t : TSlot) (h : Kept a s) : Kept a (State.confirmTrial s t) := by
  unfold State.confirmTrial
  repeat' (first
    | with_reducible assumption | with_reducible apply kept_writeTrial | with_reducible apply kept_modTenant | simp only [↓kept_mk]
    | with_reducible apply kept_ite)

theorem kept_execConfirmGeneration {a s : State} (t : TSlot) (h : Kept a s) : KeptOut a (execConfirmGeneration t s) := by
  unfold execConfirmGeneration
  repeat' (first
    | with_reducible assumption | with_reducible apply keptOut_next | with_reducible apply keptOut_fault
    | with_reducible apply keptOut_refused | with_reducible apply kept_confirmTrial | with_reducible apply kept_livePages
    | with_reducible apply kept_porchRefuse | with_reducible apply kept_porchEnd | simp only [↓kept_mk] | with_reducible apply kept_ite
    | simp only [↓kept_mk, flash_of_latch, flash_of_modTenant, flash_of_setTenant] | split)

theorem kept_afterCommit {a s : State} (req : LedgerReq) (old : Bytes) (h : Kept a s) : Kept a (State.afterCommit s req old) := by
  unfold State.afterCommit
  repeat' (first
    | with_reducible assumption | with_reducible apply kept_revertDone | with_reducible apply kept_imported
    | with_reducible apply kept_exported | with_reducible apply kept_pairInstalled | with_reducible apply kept_imageInstalled
    | with_reducible apply kept_dropKey | simp only [↓kept_mk] | with_reducible apply kept_ite
    | simp only [↓kept_mk, flash_of_latch, flash_of_modTenant, flash_of_setTenant] | split)

theorem kept_afterRefusal {a s : State} (req : LedgerReq) (reason : Byte) (h : Kept a s) : Kept a (State.afterRefusal s req reason) := by
  unfold State.afterRefusal
  repeat' (first
    | with_reducible assumption | with_reducible apply kept_revertRefused | with_reducible apply kept_abortImport
    | with_reducible apply kept_abortExport | with_reducible apply kept_refuseInstall | simp only [↓kept_mk]
    | with_reducible apply kept_ite | simp only [↓kept_mk, flash_of_latch, flash_of_modTenant, flash_of_setTenant] | split)

theorem kept_runUpdate {a s : State} (req : LedgerReq) (rest : List LedgerReq) (tripIn : Option (Fin 4)) (h : Kept a s) : Kept a (State.runUpdate s req rest tripIn) := by
  unfold State.runUpdate
  repeat' (first
    | with_reducible assumption | with_reducible apply kept_afterRefusal | with_reducible apply kept_afterCommit
    | with_reducible apply kept_commitTrip | with_reducible refine kept_ledgerUpdate_of (by assumption) ?_
    | with_reducible apply kept_ledgerUpdate | with_reducible apply kept_setClock | with_reducible apply kept_latch | simp only [↓kept_mk]
    | with_reducible apply kept_ite | simp only [↓kept_mk, flash_of_latch, flash_of_modTenant, flash_of_setTenant]
    | (with_reducible refine kept_foldl _ _ ?_ ?_; rotate_left; (intro st x hst)) | split | dsimp only | intro _)

theorem kept_execLedgerUpdate {a s : State} (tripIn : Option (Fin 4)) (h : Kept a s) : KeptOut a (execLedgerUpdate tripIn s) := by
  unfold execLedgerUpdate
  repeat' (first
    | with_reducible assumption | with_reducible apply keptOut_next | with_reducible apply keptOut_fault
    | with_reducible apply keptOut_refused | with_reducible apply kept_runUpdate | simp only [↓kept_mk] | with_reducible apply kept_ite
    | simp only [↓kept_mk, flash_of_latch, flash_of_modTenant, flash_of_setTenant] | split)

theorem kept_execLedgerInitialise {a s : State} (h : Kept a s) : KeptOut a (execLedgerInitialise s) := by
  unfold execLedgerInitialise
  repeat' (first
    | with_reducible assumption | with_reducible apply keptOut_next | with_reducible apply keptOut_fault
    | with_reducible apply keptOut_refused | with_reducible apply kept_ledgerInit | with_reducible apply kept_setClock
    | simp only [↓kept_mk] | with_reducible apply kept_ite | simp only [↓kept_mk, flash_of_latch, flash_of_modTenant, flash_of_setTenant]
    | (with_reducible refine kept_foldl _ _ ?_ ?_; rotate_left; (intro st x hst)) | split | dsimp only | intro _)

theorem kept_overflowRecord {a s : State} (h : Kept a s) : Kept a (State.overflowRecord s) := by
  unfold State.overflowRecord
  repeat' (first | with_reducible assumption | with_reducible apply kept_record | simp only [↓kept_mk] | with_reducible apply kept_ite)

theorem kept_execAuditAppend {a s : State} (h : Kept a s) : KeptOut a (execAuditAppend s) := by
  unfold execAuditAppend
  repeat' (first
    | with_reducible assumption | with_reducible apply keptOut_next | with_reducible apply keptOut_fault
    | with_reducible apply keptOut_refused | with_reducible apply kept_overflowRecord | with_reducible apply kept_appendQueued
    | with_reducible apply kept_toStart | simp only [↓kept_mk] | with_reducible apply kept_ite
    | simp only [↓kept_mk, flash_of_latch, flash_of_modTenant, flash_of_setTenant]
    | (with_reducible refine kept_foldl _ _ ?_ ?_; rotate_left; (intro st x hst)) | split | dsimp only | intro _)

theorem kept_execVaultWriteComplete {a s : State} (h : Kept a s) : KeptOut a (execVaultWriteComplete s) := by
  unfold execVaultWriteComplete
  repeat' (first
    | with_reducible assumption | with_reducible apply keptOut_next | with_reducible apply keptOut_fault
    | with_reducible apply keptOut_refused | with_reducible apply kept_modTenant | with_reducible apply kept_vaultWrite
    | with_reducible apply kept_latch | simp only [↓kept_mk] | with_reducible apply kept_ite
    | simp only [↓kept_mk, flash_of_latch, flash_of_modTenant, flash_of_setTenant]
    | (with_reducible refine kept_foldl _ _ ?_ ?_; rotate_left; (intro st x hst)) | split)

theorem kept_execSpillBatchWrite {a s : State} (h : Kept a s) : KeptOut a (execSpillBatchWrite s) := by
  unfold execSpillBatchWrite
  repeat' (first
    | with_reducible assumption | with_reducible apply keptOut_next | with_reducible apply keptOut_fault
    | with_reducible apply keptOut_refused | with_reducible apply kept_beginSpill | with_reducible apply kept_pump
    | with_reducible apply kept_toStart | simp only [↓kept_mk] | with_reducible apply kept_ite
    | simp only [↓kept_mk, flash_of_latch, flash_of_modTenant, flash_of_setTenant]
    | (with_reducible refine kept_foldl _ _ ?_ ?_; rotate_left; (intro st x hst)) | split | dsimp only | intro _)

theorem kept_execEraseQueueErase {a s : State} (h : Kept a s) : KeptOut a (execEraseQueueErase s) := by
  unfold execEraseQueueErase
  repeat' (first
    | with_reducible assumption | with_reducible apply keptOut_next | with_reducible apply keptOut_fault
    | with_reducible apply keptOut_refused | with_reducible apply kept_startTask | with_reducible apply kept_toStart | simp only [↓kept_mk]
    | with_reducible apply kept_ite | simp only [↓kept_mk, flash_of_latch, flash_of_modTenant, flash_of_setTenant]
    | (with_reducible refine kept_foldl _ _ ?_ ?_; rotate_left; (intro st x hst)) | split | dsimp only | intro _)

theorem kept_execFlashDirectoryUpdate {a s : State} (h : Kept a s) : KeptOut a (execFlashDirectoryUpdate s) := by
  unfold execFlashDirectoryUpdate
  repeat' (first
    | with_reducible assumption | with_reducible apply keptOut_next | with_reducible apply keptOut_fault
    | with_reducible apply keptOut_refused | with_reducible apply kept_beginDirectory | with_reducible apply kept_pump
    | with_reducible apply kept_toStart | simp only [↓kept_mk] | with_reducible apply kept_ite
    | simp only [↓kept_mk, flash_of_latch, flash_of_modTenant, flash_of_setTenant]
    | (with_reducible refine kept_foldl _ _ ?_ ?_; rotate_left; (intro st x hst)) | split | dsimp only | intro _)

theorem kept_execFreePoolRebuild {a s : State} (h : Kept a s) : KeptOut a (execFreePoolRebuild s) := by
  unfold execFreePoolRebuild
  repeat' (first
    | with_reducible assumption | with_reducible apply keptOut_next | with_reducible apply keptOut_fault
    | with_reducible apply keptOut_refused | with_reducible apply kept_rebuildPool | with_reducible apply kept_pump
    | with_reducible apply kept_toStart | simp only [↓kept_mk] | with_reducible apply kept_ite
    | simp only [↓kept_mk, flash_of_latch, flash_of_modTenant, flash_of_setTenant]
    | (with_reducible refine kept_foldl _ _ ?_ ?_; rotate_left; (intro st x hst)) | split | dsimp only | intro _)

theorem kept_readyBoundary {a s : State} (h : Kept a s) : Kept a (State.readyBoundary s).2 := by
  unfold State.readyBoundary
  repeat' (first
    | with_reducible assumption | with_reducible refine kept_freeBit_of (by assumption) ?_ | with_reducible apply kept_freeBit
    | simp only [↓kept_mk] | with_reducible apply kept_ite | simp only [↓kept_mk, flash_of_latch, flash_of_modTenant, flash_of_setTenant]
    | split)
theorem kept_readyBoundary_of {a s nx : State} {y} (e : (State.readyBoundary s) = (y, nx)) (h : Kept a s) : Kept a nx := by
  have := kept_readyBoundary h
  rwa [e] at this

theorem kept_askWake {a s : State} (h : Kept a s) : Kept a (State.askWake s) := by
  unfold State.askWake
  repeat' (first
    | with_reducible assumption | with_reducible refine kept_readyBoundary_of (by assumption) ?_ | with_reducible apply kept_readyBoundary
    | with_reducible apply kept_latch | simp only [↓kept_mk] | with_reducible apply kept_ite
    | simp only [↓kept_mk, flash_of_latch, flash_of_modTenant, flash_of_setTenant] | split)

theorem kept_setChannel {a s : State} (ch : Fin 12) (c : Channel) (h : Kept a s) : Kept a (State.setChannel s ch c) := by
  unfold State.setChannel
  repeat' (first | with_reducible assumption | simp only [↓kept_mk])

theorem kept_noticeArrived {a s : State} (side : SideDecl) (h : Kept a s) : Kept a (State.noticeArrived s side) := by
  unfold State.noticeArrived
  repeat' (first
    | with_reducible assumption | with_reducible apply kept_askWake | with_reducible apply kept_latch | simp only [↓kept_mk]
    | with_reducible apply kept_ite | simp only [↓kept_mk, flash_of_latch, flash_of_modTenant, flash_of_setTenant] | split)

theorem kept_channelSend {a s : State} (ch : Fin 12) (r : NoticeReq) (h : Kept a s) : Kept a (State.channelSend s ch r).2 := by
  unfold State.channelSend
  repeat' (first
    | with_reducible assumption | with_reducible apply kept_noticeArrived | with_reducible apply kept_setChannel | simp only [↓kept_mk]
    | with_reducible apply kept_ite | simp only [↓kept_mk, flash_of_latch, flash_of_modTenant, flash_of_setTenant] | split)
theorem kept_channelSend_of {a s nx : State} {ch : Fin 12} {r : NoticeReq} {y} (e : (State.channelSend s ch r) = (y, nx)) (h : Kept a s) : Kept a nx := by
  have := kept_channelSend ch r h
  rwa [e] at this

theorem kept_relatchMail {a s : State} (h : Kept a s) : Kept a (State.relatchMail s) := by
  unfold State.relatchMail
  repeat' (first
    | with_reducible assumption | with_reducible apply kept_latch | simp only [↓kept_mk] | with_reducible apply kept_ite
    | simp only [↓kept_mk, flash_of_latch, flash_of_modTenant, flash_of_setTenant]
    | (with_reducible refine kept_foldl _ _ ?_ ?_; rotate_left; (intro st x hst)) | split)

theorem kept_noticeRead {a s : State} (ch : Fin 12) (reader : ℕ) (word : BitVec 32) (h : Kept a s) : Kept a (State.noticeRead s ch reader word) := by
  unfold State.noticeRead
  repeat' (first | with_reducible assumption | with_reducible apply kept_record | simp only [↓kept_mk] | with_reducible apply kept_ite)

theorem kept_channelReceive {a s : State} (ch : Fin 12) (reader : ℕ) (h : Kept a s) : Kept a (State.channelReceive s ch reader) := by
  unfold State.channelReceive
  repeat' (first
    | with_reducible assumption | with_reducible apply kept_noticeRead | with_reducible apply kept_setChannel | simp only [↓kept_mk]
    | with_reducible apply kept_ite | simp only [↓kept_mk, flash_of_latch, flash_of_modTenant, flash_of_setTenant] | split)

theorem kept_readSide {a s : State} (ch : Fin 12) (d : ChannelDecl) (a' : Bool) (h : Kept a s) : Kept a (State.readSide s ch d a') := by
  unfold State.readSide
  repeat' (first
    | with_reducible assumption | with_reducible apply kept_channelReceive | simp only [↓kept_mk] | with_reducible apply kept_ite
    | simp only [↓kept_mk, flash_of_latch, flash_of_modTenant, flash_of_setTenant]
    | (with_reducible refine kept_foldl _ _ ?_ ?_; rotate_left; (intro st x hst)) | split | dsimp only | intro _)

theorem kept_readSides {a s : State} (pick : SideDecl → Bool) (h : Kept a s) : Kept a (State.readSides s pick) := by
  unfold State.readSides
  repeat' (first
    | with_reducible assumption | with_reducible apply kept_readSide | simp only [↓kept_mk] | with_reducible apply kept_ite
    | simp only [↓kept_mk, flash_of_latch, flash_of_modTenant, flash_of_setTenant]
    | (with_reducible refine kept_foldl _ _ ?_ ?_; rotate_left; (intro st x hst)) | split | dsimp only | intro _)

theorem kept_readMail {a s : State} (n : ℕ) (h : Kept a s) : Kept a (State.readMail s n) := by
  unfold State.readMail
  repeat' (first
    | with_reducible assumption | with_reducible apply kept_readSides | simp only [↓kept_mk] | with_reducible apply kept_ite
    | simp only [↓kept_mk, flash_of_latch, flash_of_modTenant, flash_of_setTenant]
    | (with_reducible refine kept_foldl _ _ ?_ ?_; rotate_left; (intro st x hst)) | split | dsimp only | intro _)

theorem kept_pmuReads {a s : State} (h : Kept a s) : Kept a (State.pmuReads s) := by
  unfold State.pmuReads
  repeat' (first
    | with_reducible assumption | with_reducible apply kept_readSides | simp only [↓kept_mk] | with_reducible apply kept_ite
    | simp only [↓kept_mk, flash_of_latch, flash_of_modTenant, flash_of_setTenant]
    | (with_reducible refine kept_foldl _ _ ?_ ?_; rotate_left; (intro st x hst)) | split | dsimp only | intro _)

theorem kept_badgerReads {a s : State} (h : Kept a s) : Kept a (State.badgerReads s) := by
  unfold State.badgerReads
  repeat' (first
    | with_reducible assumption | with_reducible apply kept_readSides | simp only [↓kept_mk] | with_reducible apply kept_ite
    | simp only [↓kept_mk, flash_of_latch, flash_of_modTenant, flash_of_setTenant]
    | (with_reducible refine kept_foldl _ _ ?_ ?_; rotate_left; (intro st x hst)) | split | dsimp only | intro _)

theorem kept_execNoticeSend {a s : State} (ch : Fin 12) (req : NoticeReq) (other : Option NoticeReq) (h : Kept a s) : KeptOut a (execNoticeSend ch req other s) := by
  unfold execNoticeSend
  repeat' (first
    | with_reducible assumption | with_reducible apply keptOut_next | with_reducible apply keptOut_fault
    | with_reducible apply keptOut_refused | with_reducible refine kept_channelSend_of (by assumption) ?_
    | with_reducible apply kept_channelSend | simp only [↓kept_mk] | with_reducible apply kept_ite
    | simp only [↓kept_mk, flash_of_latch, flash_of_modTenant, flash_of_setTenant] | split)

theorem kept_execNoticeReceive {a s : State} (ch : Fin 12) (reader : Fin 16) (h : Kept a s) : KeptOut a (execNoticeReceive ch reader s) := by
  unfold execNoticeReceive
  repeat' (first
    | with_reducible assumption | with_reducible apply keptOut_next | with_reducible apply keptOut_fault
    | with_reducible apply keptOut_refused | with_reducible apply kept_channelReceive | with_reducible apply kept_atPoll
    | simp only [↓kept_mk] | with_reducible apply kept_ite | simp only [↓kept_mk, flash_of_latch, flash_of_modTenant, flash_of_setTenant]
    | (with_reducible refine kept_foldl _ _ ?_ ?_; rotate_left; (intro st x hst)) | split | dsimp only | intro _)

theorem kept_execEventPoll {a s : State} (e' : Fin 256) (relatch : Bool) (h : Kept a s) : KeptOut a (execEventPoll e' relatch s) := by
  unfold execEventPoll
  repeat' (first
    | with_reducible assumption | with_reducible apply keptOut_next | with_reducible apply keptOut_fault
    | with_reducible apply keptOut_refused | with_reducible apply kept_readMail | with_reducible apply kept_toPoll
    | with_reducible apply kept_clearEvent | with_reducible apply kept_latchIf | simp only [↓kept_mk] | with_reducible apply kept_ite
    | simp only [↓kept_mk, flash_of_latch, flash_of_modTenant, flash_of_setTenant]
    | (with_reducible refine kept_foldl _ _ ?_ ?_; rotate_left; (intro st x hst)) | split | dsimp only | intro _)

theorem kept_loseSram {a s : State} (h : Kept a s) : Kept a (State.loseSram s) := by
  unfold State.loseSram
  exact kept_sramWrite _ _ (kept_sram (s := { s with freeDrawn := s.freeDrawn + 1 }) h (fun _ => wf_nil _))

theorem kept_loseDen {a s : State} (h : Kept a s) : Kept a (State.loseDen s) := by
  unfold State.loseDen
  exact kept_ite h (kept_den (s := { s with freeDrawn := s.freeDrawn + 1 }) h (fun _ => wf_nil _))

theorem kept_orderBoth {a s : State} (op : Sfdp → Byte) (h : Kept a s) : Kept a (State.orderBoth s op) := by
  unfold State.orderBoth
  repeat' (first
    | with_reducible assumption | with_reducible apply kept_order | simp only [↓kept_mk] | with_reducible apply kept_ite
    | simp only [↓kept_mk, flash_of_latch, flash_of_modTenant, flash_of_setTenant]
    | (with_reducible refine kept_foldl _ _ ?_ ?_; rotate_left; (intro st x hst)) | split | dsimp only | intro _)

theorem kept_fallAsleep {a s : State} (count : Option ℕ) (h : Kept a s) : Kept a (State.fallAsleep s count) := by
  unfold State.fallAsleep
  repeat' (first
    | with_reducible assumption | with_reducible apply kept_orderBoth | with_reducible apply kept_loseDen
    | with_reducible apply kept_loseSram | simp only [↓kept_mk] | with_reducible apply kept_ite
    | simp only [↓kept_mk, flash_of_latch, flash_of_modTenant, flash_of_setTenant]
    | (with_reducible refine kept_foldl _ _ ?_ ?_; rotate_left; (intro st x hst)) | split | dsimp only | intro _)

theorem kept_execSleepEntry {a s : State} (wakeCount : Option ℕ) (h : Kept a s) : KeptOut a (execSleepEntry wakeCount s) := by
  unfold execSleepEntry
  repeat' (first
    | with_reducible assumption | with_reducible apply keptOut_next | with_reducible apply keptOut_fault
    | with_reducible apply keptOut_refused | with_reducible apply kept_fallAsleep | with_reducible apply kept_endLanes
    | with_reducible apply kept_setClock | simp only [↓kept_mk] | with_reducible apply kept_ite
    | simp only [↓kept_mk, flash_of_latch, flash_of_modTenant, flash_of_setTenant]
    | (with_reducible refine kept_foldl _ _ ?_ ?_; rotate_left; (intro st x hst)) | split | dsimp only | intro _)

theorem kept_execWakeRequest {a s : State} (src : WakeSource) (h : Kept a s) : KeptOut a (execWakeRequest src s) := by
  unfold execWakeRequest
  repeat' (first
    | with_reducible assumption | with_reducible apply keptOut_next | with_reducible apply keptOut_fault
    | with_reducible apply keptOut_refused | with_reducible apply kept_askWake | simp only [↓kept_mk] | with_reducible apply kept_ite
    | simp only [↓kept_mk, flash_of_latch, flash_of_modTenant, flash_of_setTenant] | split)

theorem kept_execSleepTimerWake {a s : State} (h : Kept a s) : KeptOut a (execSleepTimerWake s) := by
  unfold execSleepTimerWake
  repeat' (first
    | with_reducible assumption | with_reducible apply keptOut_next | with_reducible apply keptOut_fault
    | with_reducible apply keptOut_refused | with_reducible apply kept_askWake | with_reducible apply kept_setClock
    | with_reducible apply kept_latch | simp only [↓kept_mk] | with_reducible apply kept_ite
    | simp only [↓kept_mk, flash_of_latch, flash_of_modTenant, flash_of_setTenant]
    | (with_reducible refine kept_foldl _ _ ?_ ?_; rotate_left; (intro st x hst)) | split | dsimp only | intro _)

theorem kept_releaseChips {a s : State} (h : Kept a s) : Kept a (State.releaseChips s) := by
  unfold State.releaseChips
  repeat' (first
    | with_reducible assumption | with_reducible apply kept_orderBoth | simp only [↓kept_mk] | with_reducible apply kept_ite
    | simp only [↓kept_mk, flash_of_latch, flash_of_modTenant, flash_of_setTenant]
    | (with_reducible refine kept_foldl _ _ ?_ ?_; rotate_left; (intro st x hst)) | split | dsimp only | intro _)

theorem kept_wakeUp {a s : State} (b : ℕ) (h : Kept a s) : Kept a (State.wakeUp s b) := by
  unfold State.wakeUp
  repeat' (first
    | with_reducible assumption | with_reducible apply kept_releaseChips | with_reducible apply kept_relatchMail
    | with_reducible apply kept_setClock | with_reducible apply kept_latchIf | with_reducible apply kept_latch | simp only [↓kept_mk]
    | with_reducible apply kept_ite | simp only [↓kept_mk, flash_of_latch, flash_of_modTenant, flash_of_setTenant]
    | (with_reducible refine kept_foldl _ _ ?_ ?_; rotate_left; (intro st x hst)) | split | dsimp only | intro _)

theorem kept_execFabricResume {a s : State} (h : Kept a s) : KeptOut a (execFabricResume s) := by
  unfold execFabricResume
  repeat' (first
    | with_reducible assumption | with_reducible apply keptOut_next | with_reducible apply keptOut_fault
    | with_reducible apply keptOut_refused | with_reducible apply kept_wakeUp | simp only [↓kept_mk] | with_reducible apply kept_ite
    | simp only [↓kept_mk, flash_of_latch, flash_of_modTenant, flash_of_setTenant]
    | (with_reducible refine kept_foldl _ _ ?_ ?_; rotate_left; (intro st x hst)) | split | dsimp only | intro _)

theorem kept_compare {a s : State} (c : BChanCfg) (old : Bool) (mv : ℕ) (h : Kept a s) : Kept a (State.compare s c old mv).2 := by
  unfold State.compare
  repeat' (first
    | with_reducible assumption | with_reducible refine kept_freeBit_of (by assumption) ?_ | with_reducible apply kept_freeBit
    | simp only [↓kept_mk] | with_reducible apply kept_ite | simp only [↓kept_mk, flash_of_latch, flash_of_modTenant, flash_of_setTenant]
    | split)
theorem kept_compare_of {a s nx : State} {c : BChanCfg} {old : Bool} {mv : ℕ} {y} (e : (State.compare s c old mv) = (y, nx)) (h : Kept a s) : Kept a nx := by
  have := kept_compare c old mv h
  rwa [e] at this

theorem kept_sampleChannel {a s : State} (p : BProgram) (i : Fin 4) (mv : ℕ) (h : Kept a s) : Kept a (State.sampleChannel s p i mv) := by
  unfold State.sampleChannel
  repeat' (first
    | with_reducible assumption | with_reducible refine kept_compare_of (by assumption) ?_ | with_reducible apply kept_compare
    | simp only [↓kept_mk] | with_reducible apply kept_ite)

theorem kept_drivePermit {a s : State} (h : Kept a s) : Kept a (State.drivePermit s) := by
  unfold State.drivePermit
  repeat' (first | with_reducible assumption | simp only [↓kept_mk])

theorem kept_badgerEvent {a s : State} (e' : ℕ) (h : Kept a s) : Kept a (State.badgerEvent s e') := by
  unfold State.badgerEvent
  repeat' (first | with_reducible assumption | with_reducible apply kept_askWake | with_reducible apply kept_latch)

theorem kept_causeEvents {a s : State} (causes : ℕ) (h : Kept a s) : Kept a (State.causeEvents s causes) := by
  unfold State.causeEvents
  repeat' (first
    | with_reducible assumption | with_reducible apply kept_badgerEvent | simp only [↓kept_mk] | with_reducible apply kept_ite
    | simp only [↓kept_mk, flash_of_latch, flash_of_modTenant, flash_of_setTenant]
    | (with_reducible refine kept_foldl _ _ ?_ ?_; rotate_left; (intro st x hst)))

theorem kept_dropMessage {a s : State} (h : Kept a s) : Kept a (State.dropMessage s) := by
  unfold State.dropMessage
  repeat' (first | with_reducible assumption | with_reducible apply kept_badgerEvent | simp only [↓kept_mk])

theorem kept_logMessage {a s : State} (p : BProgram) (causes : ℕ) (rule : Byte) (event : Byte) (count : ℕ) (h : Kept a s) : Kept a (State.logMessage s p causes rule event count) := by
  unfold State.logMessage
  repeat' (first
    | with_reducible assumption | with_reducible apply kept_dropMessage | with_reducible refine kept_channelSend_of (by assumption) ?_
    | with_reducible apply kept_channelSend | with_reducible apply kept_sramWrite | simp only [↓kept_mk] | with_reducible apply kept_ite
    | simp only [↓kept_mk, flash_of_latch, flash_of_modTenant, flash_of_setTenant] | split)

theorem kept_platformWake {a s : State} (p : Port) (h : Kept a s) : Kept a (State.platformWake s p) := by
  unfold State.platformWake
  repeat' (first
    | with_reducible assumption | with_reducible apply kept_driveAlert | simp only [↓kept_mk] | with_reducible apply kept_ite
    | simp only [↓kept_mk, flash_of_latch, flash_of_modTenant, flash_of_setTenant] | split)

theorem kept_wakeActions {a s : State} (fired : List BRule) (h : Kept a s) : Kept a (State.wakeActions s fired) := by
  unfold State.wakeActions
  repeat' (first
    | with_reducible assumption | with_reducible apply kept_platformWake | with_reducible apply kept_badgerEvent | simp only [↓kept_mk]
    | with_reducible apply kept_ite | simp only [↓kept_mk, flash_of_latch, flash_of_modTenant, flash_of_setTenant]
    | (with_reducible refine kept_foldl _ _ ?_ ?_; rotate_left; (intro st x hst)))

theorem kept_toTick {a s : State} (p : BProgram) (h : Kept a s) : Kept a (State.toTick s p) := by
  unfold State.toTick
  repeat' (first
    | with_reducible assumption | with_reducible apply kept_pass | simp only [↓kept_mk] | with_reducible apply kept_ite
    | simp only [↓kept_mk, flash_of_latch, flash_of_modTenant, flash_of_setTenant]
    | (with_reducible refine kept_foldl _ _ ?_ ?_; rotate_left; (intro st x hst)) | split | dsimp only | intro _)

theorem kept_settleTick {a s : State} (p : BProgram) (old : Badger) (logs : List (BRule × ℕ)) (h : Kept a s) : Kept a (State.settleTick s p old logs) := by
  unfold State.settleTick
  repeat' (first
    | with_reducible assumption | with_reducible apply kept_logMessage | with_reducible apply kept_causeEvents
    | with_reducible apply kept_drivePermit | simp only [↓kept_mk] | with_reducible apply kept_ite)

theorem kept_tickInputs {a s : State} (p : BProgram) (mv : Fin 4 → ℕ) (h : Kept a s) : Kept a (State.tickInputs s p mv) := by
  unfold State.tickInputs
  repeat' (first
    | with_reducible assumption | with_reducible apply kept_sampleChannel | simp only [↓kept_mk] | with_reducible apply kept_ite
    | simp only [↓kept_mk, flash_of_latch, flash_of_modTenant, flash_of_setTenant]
    | (with_reducible refine kept_foldl _ _ ?_ ?_; rotate_left; (intro st x hst)))

theorem kept_badgerTick {a s : State} (p : BProgram) (mv : Fin 4 → ℕ) (h : Kept a s) : Kept a (State.badgerTick s p mv) := by
  unfold State.badgerTick
  repeat' (first
    | with_reducible assumption | with_reducible apply kept_tickInputs | with_reducible apply kept_settleTick
    | with_reducible apply kept_toTick | with_reducible apply kept_wakeActions | with_reducible apply kept_badgerReads
    | with_reducible apply kept_pmuReads | simp only [↓kept_mk] | with_reducible apply kept_ite
    | simp only [↓kept_mk, flash_of_latch, flash_of_modTenant, flash_of_setTenant]
    | (with_reducible refine kept_foldl _ _ ?_ ?_; rotate_left; (intro st x hst)) | split | dsimp only | intro _)

theorem kept_loadBadger {a s : State} (m : Manifest) (h : Kept a s) : Kept a (State.loadBadger s m) := by
  unfold State.loadBadger
  repeat' (first | with_reducible assumption | simp only [↓kept_mk])

theorem kept_switchBadger {a s : State} (p : BProgram) (h : Kept a s) : Kept a (State.switchBadger s p) := by
  unfold State.switchBadger
  repeat' (first | with_reducible assumption | with_reducible apply kept_badgerEvent | simp only [↓kept_mk])

theorem kept_toEdge {a s : State} (h : Kept a s) : Kept a (State.toEdge s) := kept_pass _ h

theorem kept_execBadgerTick {a s : State} (sense0 : ℕ) (sense1 : ℕ) (sense2 : ℕ) (sense3 : ℕ) (h : Kept a s) : KeptOut a (execBadgerTick sense0 sense1 sense2 sense3 s) := by
  unfold execBadgerTick
  repeat' (first
    | with_reducible assumption | with_reducible apply keptOut_next | with_reducible apply keptOut_fault
    | with_reducible apply keptOut_refused | with_reducible apply kept_badgerTick | with_reducible apply kept_switchBadger | with_reducible apply kept_badgerReads
    | with_reducible apply kept_pmuReads | simp only [↓kept_mk] | with_reducible apply kept_ite
    | simp only [↓kept_mk, flash_of_latch, flash_of_modTenant, flash_of_setTenant]
    | (with_reducible refine kept_foldl _ _ ?_ ?_; rotate_left; (intro st x hst)) | split | dsimp only | intro _)

theorem kept_execBadgerTimerExpiry {a s : State} (i : Fin 8) (h : Kept a s) : KeptOut a (execBadgerTimerExpiry i s) := by
  unfold execBadgerTimerExpiry
  repeat' (first
    | with_reducible assumption | with_reducible apply keptOut_next | with_reducible apply keptOut_fault
    | with_reducible apply keptOut_refused | with_reducible apply kept_toEdge | simp only [↓kept_mk] | with_reducible apply kept_ite
    | simp only [↓kept_mk, flash_of_latch, flash_of_modTenant, flash_of_setTenant] | split | dsimp only | intro _)

theorem kept_execEgressHoldExpiry {a s : State} (h : Kept a s) : KeptOut a (execEgressHoldExpiry s) := by
  unfold execEgressHoldExpiry
  repeat' (first
    | with_reducible assumption | with_reducible apply keptOut_next | with_reducible apply keptOut_fault
    | with_reducible apply keptOut_refused | with_reducible apply kept_settleTick | with_reducible apply kept_toEdge | simp only [↓kept_mk] | with_reducible apply kept_ite
    | simp only [↓kept_mk, flash_of_latch, flash_of_modTenant, flash_of_setTenant] | split | dsimp only | intro _)

theorem kept_execTamperHoldExpiry {a s : State} (h : Kept a s) : KeptOut a (execTamperHoldExpiry s) := by
  unfold execTamperHoldExpiry
  repeat' (first
    | with_reducible assumption | with_reducible apply keptOut_next | with_reducible apply keptOut_fault
    | with_reducible apply keptOut_refused | with_reducible apply kept_settleTick | with_reducible apply kept_toEdge | simp only [↓kept_mk] | with_reducible apply kept_ite
    | simp only [↓kept_mk, flash_of_latch, flash_of_modTenant, flash_of_setTenant] | split | dsimp only | intro _)

theorem kept_execGuardWordWrite {a s : State} (h : Kept a s) : KeptOut a (execGuardWordWrite s) := by
  unfold execGuardWordWrite
  repeat' (first
    | with_reducible assumption | with_reducible apply keptOut_next | with_reducible apply keptOut_fault
    | with_reducible apply keptOut_refused | with_reducible apply kept_setClock | simp only [↓kept_mk] | with_reducible apply kept_ite
    | simp only [↓kept_mk, flash_of_latch, flash_of_modTenant, flash_of_setTenant]
    | (with_reducible refine kept_foldl _ _ ?_ ?_; rotate_left; (intro st x hst)) | split | dsimp only | intro _)

theorem kept_execBadgerProgramSwitch {a s : State} (h : Kept a s) : KeptOut a (execBadgerProgramSwitch s) := by
  unfold execBadgerProgramSwitch
  repeat' (first
    | with_reducible assumption | with_reducible apply keptOut_next | with_reducible apply keptOut_fault
    | with_reducible apply keptOut_refused | with_reducible apply kept_switchBadger | simp only [↓kept_mk] | with_reducible apply kept_ite
    | simp only [↓kept_mk, flash_of_latch, flash_of_modTenant, flash_of_setTenant] | split)

end Sys2Proof.Laws
end

