-- ==== Sys2Proof/Laws/KeptBoot.lean ====
section
/-! SUPPORT. One lemma per shared operation of these model files, in the relation of Kept.lean: PortOps, InstallRun, BootOps, Start, Sources, PortRun, Boot, FlashCmd, HandoverOps, ExportOps, InstallCmd. -/
namespace Sys2Proof.Laws
open Sys2Proof.Machine Sys2Proof.Safety

theorem kept_report {a s : State} (t : TSlot) (e' : LaneEvent) (source : Option ℕ) (h : Kept a s) : Kept a (State.report s t e' source) := by
  unfold State.report
  repeat' (first
    | with_reducible assumption | with_reducible apply kept_askWake | with_reducible apply kept_modTenant
    | with_reducible apply kept_latch | simp only [↓kept_mk] | with_reducible apply kept_ite
    | simp only [↓kept_mk, flash_of_latch, flash_of_modTenant, flash_of_setTenant] | split)

theorem kept_drive {a s : State} (p : Port) (bs : Bytes) (h : Kept a s) : Kept a (State.drive s p bs) := by
  unfold State.drive
  repeat' (first | with_reducible assumption | with_reducible apply kept_modPort)

theorem kept_hearFall {a s : State} (p : Port) (h : Kept a s) : Kept a (State.hearFall s p) := by
  unfold State.hearFall
  repeat' (first
    | with_reducible assumption | simp only [↓kept_mk] | with_reducible apply kept_ite
    | simp only [↓kept_mk, flash_of_latch, flash_of_modTenant, flash_of_setTenant]
    | (with_reducible refine kept_foldl _ _ ?_ ?_; rotate_left; (intro st x hst)) | split | dsimp only | intro _)

theorem kept_beginCommand {a s : State} (p : Port) (h : Kept a s) : Kept a (State.beginCommand s p) := by
  unfold State.beginCommand
  repeat' (first
    | with_reducible assumption | with_reducible apply kept_hearFall | with_reducible apply kept_modPort | simp only [↓kept_mk]
    | with_reducible apply kept_ite | simp only [↓kept_mk, flash_of_latch, flash_of_modTenant, flash_of_setTenant]
    | (with_reducible refine kept_foldl _ _ ?_ ?_; rotate_left; (intro st x hst)) | split | dsimp only | intro _)

theorem kept_filter {a s : State} (p : Port) (t : TSlot) (opcode : Byte) (addr : Option (BitVec 24)) (h : Kept a s) : Kept a (State.filter s p t opcode addr) := by
  unfold State.filter
  repeat' (first | with_reducible assumption | with_reducible apply kept_report | simp only [↓kept_mk] | with_reducible apply kept_ite)

theorem kept_dualIoBytes {a s : State} (addr : BitVec 24) (mode : Byte) (count : ℕ) (h : Kept a s) : Kept a (State.dualIoBytes s addr mode count).2 := by
  unfold State.dualIoBytes
  repeat' (first
    | with_reducible assumption | with_reducible refine kept_freeBelow_of (by assumption) ?_ | with_reducible apply kept_freeBelow
    | simp only [↓kept_mk] | with_reducible apply kept_ite | simp only [↓kept_mk, flash_of_latch, flash_of_modTenant, flash_of_setTenant]
    | split)
theorem kept_dualIoBytes_of {a s nx : State} {addr : BitVec 24} {mode : Byte} {count : ℕ} {y} (e : (State.dualIoBytes s addr mode count) = (y, nx)) (h : Kept a s) : Kept a nx := by
  have := kept_dualIoBytes addr mode count h
  rwa [e] at this

theorem kept_quadIoBytes {a s : State} (addr : BitVec 24) (mode : Byte) (count : ℕ) (h : Kept a s) : Kept a (State.quadIoBytes s addr mode count).2 := by
  unfold State.quadIoBytes
  repeat' (first
    | with_reducible assumption | with_reducible refine kept_freeBelow_of (by assumption) ?_ | with_reducible apply kept_freeBelow
    | simp only [↓kept_mk] | with_reducible apply kept_ite | simp only [↓kept_mk, flash_of_latch, flash_of_modTenant, flash_of_setTenant]
    | split)
theorem kept_quadIoBytes_of {a s nx : State} {addr : BitVec 24} {mode : Byte} {count : ℕ} {y} (e : (State.quadIoBytes s addr mode count) = (y, nx)) (h : Kept a s) : Kept a nx := by
  have := kept_quadIoBytes addr mode count h
  rwa [e] at this

theorem kept_tenantRead {a s : State} (p : Port) (t : TSlot) (d : TenantDecl) (opcode : Byte) (a' : ℕ) (n : ℕ) (h : Kept a s) : Kept a (State.tenantRead s p t d opcode a' n) := by
  unfold State.tenantRead
  repeat' (first
    | with_reducible assumption | with_reducible apply kept_drive | with_reducible apply kept_report | simp only [↓kept_mk]
    | with_reducible apply kept_ite | simp only [↓kept_mk, flash_of_latch, flash_of_modTenant, flash_of_setTenant] | split)

theorem kept_intakeRead {a s : State} (p : Port) (a' : ℕ) (n : ℕ) (h : Kept a s) : Kept a (State.intakeRead s p a' n) := by
  unfold State.intakeRead
  repeat' (first
    | with_reducible assumption | with_reducible apply kept_drive | with_reducible refine kept_freeBytes_of (by assumption) ?_
    | with_reducible apply kept_freeBytes)

theorem kept_readoutRead {a s : State} (p : Port) (a' : ℕ) (n : ℕ) (h : Kept a s) : Kept a (State.readoutRead s p a' n) := by
  unfold State.readoutRead
  repeat' (first
    | with_reducible assumption | with_reducible apply kept_drive | with_reducible refine kept_freeBytes_of (by assumption) ?_
    | with_reducible apply kept_freeBytes)

theorem kept_takeWrite {a s : State} (p : Port) (t : TSlot) (d : TenantDecl) (opcode : Byte) (op : WriteOp) (h : Kept a s) : Kept a (State.takeWrite s p t d opcode op) := by
  unfold State.takeWrite
  repeat' (first
    | with_reducible assumption | with_reducible apply kept_report | with_reducible apply kept_askWake | with_reducible apply kept_modPort
    | with_reducible apply kept_modTenant | with_reducible apply kept_latch | simp only [↓kept_mk] | with_reducible apply kept_ite
    | simp only [↓kept_mk, flash_of_latch, flash_of_modTenant, flash_of_setTenant] | split)

theorem kept_turnAway {a s : State} (carrier : Byte) (object : Bytes) (reason : Byte) (h : Kept a s) : Kept a (State.turnAway s carrier object reason) := by
  unfold State.turnAway
  repeat' (first
    | with_reducible assumption | with_reducible apply kept_installRefused | simp only [↓kept_mk] | with_reducible apply kept_ite)

theorem kept_takeWhole {a s : State} (carrier : Byte) (object : Bytes) (h : Kept a s) : Kept a (State.takeWhole s carrier object) := by
  unfold State.takeWhole
  repeat' (first | with_reducible assumption | with_reducible apply kept_turnAway | simp only [↓kept_mk] | with_reducible apply kept_ite)

theorem kept_absorbPage {a s : State} (a' : ℕ) (data : Bytes) (h : Kept a s) : Kept a (State.absorbPage s a' data) := by
  unfold State.absorbPage
  repeat' (first
    | with_reducible assumption | with_reducible apply kept_takeWhole | with_reducible apply kept_turnAway | simp only [↓kept_mk]
    | with_reducible apply kept_ite | simp only [↓kept_mk, flash_of_latch, flash_of_modTenant, flash_of_setTenant] | split)

theorem kept_romPage {a s : State} (a' : ℕ) (data : Bytes) (h : Kept a s) : Kept a (State.romPage s a' data) := by
  unfold State.romPage
  repeat' (first
    | with_reducible assumption | simp only [↓kept_mk] | with_reducible apply kept_ite
    | simp only [↓kept_mk, flash_of_latch, flash_of_modTenant, flash_of_setTenant] | split)

theorem kept_wardenSlots {a s : State} (n : ℕ) (h : Kept a s) : Kept a (State.wardenSlots s n) := by
  unfold State.wardenSlots
  repeat' (first
    | with_reducible assumption | with_reducible apply kept_pass | with_reducible apply kept_setClock | simp only [↓kept_mk]
    | with_reducible apply kept_ite | simp only [↓kept_mk, flash_of_latch, flash_of_modTenant, flash_of_setTenant]
    | (with_reducible refine kept_foldl _ _ ?_ ?_; rotate_left; (intro st x hst)) | split | dsimp only | intro _)

theorem kept_checkInstall {a s : State} (i : Install) (h : Kept a s) : Kept a (State.checkInstall s i) := by
  unfold State.checkInstall
  repeat' (first
    | with_reducible assumption | with_reducible apply kept_wardenSlots | with_reducible apply kept_refuseInstall
    | with_reducible apply kept_setClock | simp only [↓kept_mk] | with_reducible apply kept_ite
    | simp only [↓kept_mk, flash_of_latch, flash_of_modTenant, flash_of_setTenant]
    | (with_reducible refine kept_foldl _ _ ?_ ?_; rotate_left; (intro st x hst)) | split | dsimp only | intro _)

theorem kept_spend {a s : State} (n : ℕ) (h : Kept a s) : Kept a (State.spend s n) := by
  unfold State.spend
  repeat' (first | with_reducible assumption | simp only [↓kept_mk])

theorem kept_spendUpTo {a s : State} (n : ℕ) (h : Kept a s) : Kept a (State.spendUpTo s n) := by
  unfold State.spendUpTo
  repeat' (first
    | with_reducible assumption | with_reducible apply kept_spend | with_reducible refine kept_freeBelow_of (by assumption) ?_
    | with_reducible apply kept_freeBelow)

theorem kept_applyStraps {a s : State} (h : Kept a s) : Kept a (State.applyStraps s) := by
  unfold State.applyStraps
  repeat' (first | with_reducible assumption | simp only [↓kept_mk])

theorem kept_sourceRecord {a s : State} (x : Source) (reason : Byte) (check : Byte) (version : ℕ) (count : ℕ) (h : Kept a s) : Kept a (State.sourceRecord s x reason check version count) := by
  unfold State.sourceRecord
  repeat' (first | with_reducible assumption | with_reducible apply kept_appendNow | simp only [↓kept_mk] | with_reducible apply kept_ite)

theorem kept_flushRepeated {a s : State} (p : Source → Bool) (h : Kept a s) : Kept a (State.flushRepeated s p) := by
  unfold State.flushRepeated
  repeat' (first
    | with_reducible assumption | with_reducible apply kept_sourceRecord | simp only [↓kept_mk] | with_reducible apply kept_ite
    | simp only [↓kept_mk, flash_of_latch, flash_of_modTenant, flash_of_setTenant]
    | (with_reducible refine kept_foldl _ _ ?_ ?_; rotate_left; (intro st x hst)))

theorem kept_sourceFail {a s : State} (x : Source) (reason : Byte) (check : Byte) (version : ℕ) (h : Kept a s) : Kept a (State.sourceFail s x reason check version) := by
  unfold State.sourceFail
  repeat' (first
    | with_reducible assumption | with_reducible apply kept_flushRepeated | with_reducible apply kept_sourceRecord | simp only [↓kept_mk]
    | with_reducible apply kept_ite)

theorem kept_advanceCursor {a s : State} (job : WipeJob) (chip : ℕ) (block : ℕ) (h : Kept a s) : Kept a (State.advanceCursor s job chip block) := by
  unfold State.advanceCursor
  repeat' (first
    | with_reducible assumption | with_reducible apply kept_vaultErase | with_reducible apply kept_vaultPut
    | with_reducible apply kept_latch | simp only [↓kept_mk] | with_reducible apply kept_ite
    | simp only [↓kept_mk, flash_of_latch, flash_of_modTenant, flash_of_setTenant] | split)

theorem kept_eraseBlock {a s : State} (job : WipeJob) (completion : Bool) (ignored : Bool) (chip : ℕ) (block : ℕ) (h : Kept a s) : Kept a (State.eraseBlock s job completion ignored chip block) := by
  unfold State.eraseBlock
  repeat' (first
    | with_reducible assumption | with_reducible apply kept_holdWith | with_reducible apply kept_startTask | simp only [↓kept_mk]
    | with_reducible apply kept_ite)

theorem kept_discoverAll {a s : State} (h : Kept a s) : Kept a (State.discoverAll s) := by
  unfold State.discoverAll
  repeat' (first
    | with_reducible assumption | with_reducible apply kept_spendUpTo | with_reducible apply kept_spend | with_reducible apply kept_discover
    | simp only [↓kept_mk] | with_reducible apply kept_ite | simp only [↓kept_mk, flash_of_latch, flash_of_modTenant, flash_of_setTenant]
    | (with_reducible refine kept_foldl _ _ ?_ ?_; rotate_left; (intro st x hst)) | split | dsimp only | intro _)

theorem kept_armFault {a s : State} (mask : ℕ) (h : Kept a s) : Kept a (State.armFault s mask) := by
  unfold State.armFault
  repeat' (first | with_reducible assumption | with_reducible apply kept_hold | with_reducible apply kept_appendNow)

theorem kept_zeroiseMemories {a s : State} (h : Kept a s) : Kept a (State.zeroiseMemories s) := by
  unfold State.zeroiseMemories
  exact kept_sramWrite _ _ (kept_den (s := { s with sram := [], sramFill := 0 }) (kept_sram h (fun _ => wf_nil _)) (fun _ => wf_nil _))

theorem kept_pairNotes {a s : State} (p : Pair) (h : Kept a s) : Kept a (State.pairNotes s p) := by
  unfold State.pairNotes
  repeat' (first
    | with_reducible assumption | with_reducible apply kept_noteBit | simp only [↓kept_mk] | with_reducible apply kept_ite
    | simp only [↓kept_mk, flash_of_latch, flash_of_modTenant, flash_of_setTenant] | split)

theorem kept_wardenKeys {a s : State} (h : Kept a s) : Kept a (State.wardenKeys s) := by
  unfold State.wardenKeys
  repeat' (first
    | with_reducible assumption | with_reducible apply kept_putKey | simp only [↓kept_mk] | with_reducible apply kept_ite
    | simp only [↓kept_mk, flash_of_latch, flash_of_modTenant, flash_of_setTenant] | split)

theorem kept_tenantKeys {a s : State} (m : Manifest) (h : Kept a s) : Kept a (State.tenantKeys s m) := by
  unfold State.tenantKeys
  repeat' (first
    | with_reducible assumption | with_reducible apply kept_loadImageKey | simp only [↓kept_mk] | with_reducible apply kept_ite
    | simp only [↓kept_mk, flash_of_latch, flash_of_modTenant, flash_of_setTenant]
    | (with_reducible refine kept_foldl _ _ ?_ ?_; rotate_left; (intro st x hst)) | split | dsimp only | intro _)

theorem kept_createTenant {a s : State} (m : Manifest) (k : ℕ) (d : TenantDecl) (h : Kept a s) : Kept a (State.createTenant s m k d) := by
  unfold State.createTenant
  repeat' (first
    | with_reducible assumption | with_reducible apply kept_noteBit | with_reducible apply kept_setTenant | simp only [↓kept_mk]
    | with_reducible apply kept_ite)

theorem kept_createTenants {a s : State} (m : Manifest) (h : Kept a s) : Kept a (State.createTenants s m) := by
  unfold State.createTenants
  repeat' (first
    | with_reducible assumption | with_reducible apply kept_createTenant | simp only [↓kept_mk] | with_reducible apply kept_ite
    | simp only [↓kept_mk, flash_of_latch, flash_of_modTenant, flash_of_setTenant]
    | (with_reducible refine kept_foldl _ _ ?_ ?_; rotate_left; (intro st x hst)))

theorem kept_readMark {a s : State} (t : TSlot) (h : Kept a s) : Kept a (State.readMark s t) := by
  unfold State.readMark
  repeat' (first
    | with_reducible assumption | with_reducible apply kept_record | with_reducible apply kept_modTenant
    | with_reducible apply kept_vaultWrite | simp only [↓kept_mk] | with_reducible apply kept_ite)

theorem kept_readInstall {a s : State} (h : Kept a s) : Kept a (State.readInstall s) := by
  unfold State.readInstall
  repeat' (first
    | with_reducible assumption | with_reducible apply kept_closeInstall | with_reducible apply kept_installRefused
    | with_reducible apply kept_modTenant | simp only [↓kept_mk] | with_reducible apply kept_ite)

theorem kept_readTrials {a s : State} (m : Manifest) (h : Kept a s) : Kept a (State.readTrials s m) := by
  unfold State.readTrials
  repeat' (first | with_reducible assumption | with_reducible apply kept_noteBit | simp only [↓kept_mk] | with_reducible apply kept_ite)

theorem kept_scanSpill {a s : State} (m : Manifest) (h : Kept a s) : Kept a (State.scanSpill s m) := by
  unfold State.scanSpill
  repeat' (first
    | with_reducible assumption | with_reducible apply kept_queueErase | with_reducible apply kept_vaultPut | simp only [↓kept_mk]
    | with_reducible apply kept_ite | simp only [↓kept_mk, flash_of_latch, flash_of_modTenant, flash_of_setTenant]
    | (with_reducible refine kept_foldl _ _ ?_ ?_; rotate_left; (intro st x hst)) | split)

theorem kept_readDirectory {a s : State} (h : Kept a s) : Kept a (State.readDirectory s) := by
  unfold State.readDirectory
  repeat' (first
    | with_reducible assumption | with_reducible apply kept_noteBit | simp only [↓kept_mk] | with_reducible apply kept_ite
    | simp only [↓kept_mk, flash_of_latch, flash_of_modTenant, flash_of_setTenant] | split)

theorem kept_writeTable {a s : State} (m : Manifest) (h : Kept a s) : Kept a (State.writeTable s m) := by
  unfold State.writeTable
  repeat' (first | with_reducible assumption | simp only [↓kept_mk])

theorem kept_takeBlock {a s : State} (h : Kept a s) : Kept a (State.takeBlock s) := by
  unfold State.takeBlock
  repeat' (first
    | with_reducible assumption | with_reducible apply kept_sramWrite | simp only [↓kept_mk] | with_reducible apply kept_ite
    | simp only [↓kept_mk, flash_of_latch, flash_of_modTenant, flash_of_setTenant]
    | (with_reducible refine kept_foldl _ _ ?_ ?_; rotate_left; (intro st x hst)) | split | dsimp only | intro _)

theorem kept_enterN {a s : State} (p : Pair) (h : Kept a s) : Kept a (State.enterN s p) := by
  unfold State.enterN
  repeat' (first
    | with_reducible assumption | with_reducible apply kept_zeroiseMemories | with_reducible apply kept_flushRepeated
    | with_reducible apply kept_sramWrite | simp only [↓kept_mk] | with_reducible apply kept_ite
    | simp only [↓kept_mk, flash_of_latch, flash_of_modTenant, flash_of_setTenant]
    | (with_reducible refine kept_foldl _ _ ?_ ?_; rotate_left; (intro st x hst)) | split | dsimp only | intro _)

theorem kept_wardenLaps {a s : State} (p : Pair) (h : Kept a s) : Kept a (State.wardenLaps s p) := by
  unfold State.wardenLaps
  repeat' (first
    | with_reducible assumption | with_reducible apply kept_takeBlock | with_reducible apply kept_writeTable
    | with_reducible apply kept_readDirectory | with_reducible apply kept_scanSpill | with_reducible apply kept_readTrials
    | with_reducible apply kept_readInstall | with_reducible apply kept_readMark | with_reducible apply kept_createTenants
    | with_reducible apply kept_tenantKeys | with_reducible apply kept_wardenKeys | with_reducible apply kept_pairNotes
    | with_reducible apply kept_loadBadger | with_reducible apply kept_versionsPair | with_reducible apply kept_parcelStart
    | with_reducible apply kept_ledgerStart | with_reducible apply kept_settleHead | with_reducible apply kept_latchIf
    | simp only [↓kept_mk] | with_reducible apply kept_ite | simp only [↓kept_mk, flash_of_latch, flash_of_modTenant, flash_of_setTenant]
    | (with_reducible refine kept_foldl _ _ ?_ ?_; rotate_left; (intro st x hst)) | split | dsimp only | intro _)

theorem kept_handOver {a s : State} (p : Pair) (h : Kept a s) : Kept a (State.handOver s p) := by
  unfold State.handOver
  repeat' (first
    | with_reducible assumption | with_reducible apply kept_wardenLaps | with_reducible apply kept_enterN
    | with_reducible apply kept_beginStaging | with_reducible apply kept_setClock | simp only [↓kept_mk] | with_reducible apply kept_ite
    | simp only [↓kept_mk, flash_of_latch, flash_of_modTenant, flash_of_setTenant]
    | (with_reducible refine kept_foldl _ _ ?_ ?_; rotate_left; (intro st x hst)) | split | dsimp only | intro _)

theorem kept_spendCost {a s : State} (c : Cost) (h : Kept a s) : Kept a (State.spendCost s c) := by
  unfold State.spendCost
  repeat' (first
    | with_reducible assumption | with_reducible apply kept_spendUpTo | with_reducible apply kept_spend | simp only [↓kept_mk]
    | with_reducible apply kept_ite | simp only [↓kept_mk, flash_of_latch, flash_of_modTenant, flash_of_setTenant]
    | (with_reducible refine kept_foldl _ _ ?_ ?_; rotate_left; (intro st x hst)) | split | dsimp only | intro _)

theorem kept_romIntake {a s : State} (on : Bool) (h : Kept a s) : Kept a (State.romIntake s on) := by
  unfold State.romIntake
  repeat' (first | with_reducible assumption | simp only [↓kept_mk])

theorem kept_beginAttempt {a s : State} (x : Source) (stage : BootStage) (h : Kept a s) : Kept a (State.beginAttempt s x stage) := by
  unfold State.beginAttempt
  repeat' (first | with_reducible assumption | with_reducible apply kept_romIntake | simp only [↓kept_mk])

theorem kept_endAttempt {a s : State} (h : Kept a s) : Kept a (State.endAttempt s) := by
  unfold State.endAttempt
  repeat' (first | with_reducible assumption | with_reducible apply kept_romIntake | simp only [↓kept_mk])

theorem kept_enterRecovery {a s : State} (forced : Bool) (h : Kept a s) : Kept a (State.enterRecovery s forced) := by
  unfold State.enterRecovery
  repeat' (first | with_reducible assumption | with_reducible apply kept_beginAttempt | simp only [↓kept_mk])

theorem kept_nextRecovery {a s : State} (x : Source) (forced : Bool) (h : Kept a s) : Kept a (State.nextRecovery s x forced) := by
  unfold State.nextRecovery
  repeat' (first
    | with_reducible assumption | with_reducible apply kept_beginAttempt | with_reducible apply kept_sourceFail | simp only [↓kept_mk]
    | with_reducible apply kept_ite)

theorem kept_trySources {a s : State} (x0 : List Source) (h : Kept a s) : Kept a (State.trySources x0 s) := by
  induction x0 generalizing s with
  | nil => exact kept_enterRecovery _ h
  | cons x rest ih =>
    unfold State.trySources
    split
    · exact kept_beginAttempt _ _ h
    · split
      · exact ih (kept_sourceFail _ _ _ _ h)
      · exact kept_beginAttempt _ _ h
    · split
      · exact ih (kept_sourceFail _ _ _ _ h)
      · exact ih (kept_sourceFail _ _ _ _ (kept_spendCost _ h))
      · exact kept_handOver _ (kept_spendCost _ h)

theorem kept_attemptFailed {a s : State} (reason : Byte) (check : Byte) (version : ℕ) (h : Kept a s) : Kept a (State.attemptFailed s reason check version) := by
  unfold State.attemptFailed
  repeat' (first
    | with_reducible assumption | with_reducible apply kept_trySources | with_reducible apply kept_nextRecovery
    | with_reducible apply kept_endAttempt | with_reducible apply kept_sourceFail | simp only [↓kept_mk] | with_reducible apply kept_ite
    | simp only [↓kept_mk, flash_of_latch, flash_of_modTenant, flash_of_setTenant] | split)

theorem kept_objectArrived {a s : State} (x : Source) (object : Bytes) (h : Kept a s) : Kept a (State.objectArrived s x object) := by
  unfold State.objectArrived
  repeat' (first
    | with_reducible assumption | with_reducible apply kept_attemptFailed | with_reducible apply kept_endAttempt
    | with_reducible apply kept_spendCost | with_reducible apply kept_handOver | simp only [↓kept_mk] | with_reducible apply kept_ite
    | simp only [↓kept_mk, flash_of_latch, flash_of_modTenant, flash_of_setTenant]
    | (with_reducible refine kept_foldl _ _ ?_ ?_; rotate_left; (intro st x hst)) | split | dsimp only | intro _)

theorem kept_romArrived {a s : State} (h : Kept a s) : Kept a (State.romArrived s) := by
  unfold State.romArrived
  repeat' (first
    | with_reducible assumption | with_reducible apply kept_objectArrived | simp only [↓kept_mk] | with_reducible apply kept_ite
    | simp only [↓kept_mk, flash_of_latch, flash_of_modTenant, flash_of_setTenant] | split)

theorem kept_toRtc {a s : State} (n : ℕ) (h : Kept a s) : Kept a (State.toRtc s n) := by
  unfold State.toRtc
  repeat' (first | with_reducible assumption | simp only [↓kept_mk] | with_reducible apply kept_ite)

theorem kept_groupRead {a s : State} (p : Port) (g : Option Machine.Group) (opcode : Byte) (addr : BitVec 24) (count : ℕ) (io0 : Option (BitVec 24)) (h : Kept a s) : Kept a (State.groupRead s p g opcode addr count io0) := by
  unfold State.groupRead
  repeat' (first
    | with_reducible assumption | with_reducible apply kept_tenantRead | with_reducible apply kept_filter | simp only [↓kept_mk]
    | with_reducible apply kept_ite | simp only [↓kept_mk, flash_of_latch, flash_of_modTenant, flash_of_setTenant]
    | (with_reducible refine kept_foldl _ _ ?_ ?_; rotate_left; (intro st x hst)) | split | dsimp only | intro _)

theorem kept_execReadData {a s : State} (p : Port) (addr : BitVec 24) (count : ℕ) (h : Kept a s) : KeptOut a (execReadData p addr count s) := by
  unfold execReadData
  repeat' (first
    | with_reducible assumption | with_reducible apply keptOut_next | with_reducible apply keptOut_fault
    | with_reducible apply keptOut_refused | with_reducible apply kept_groupRead | with_reducible apply kept_readoutRead
    | with_reducible apply kept_intakeRead | with_reducible apply kept_beginCommand | simp only [↓kept_mk] | with_reducible apply kept_ite
    | simp only [↓kept_mk, flash_of_latch, flash_of_modTenant, flash_of_setTenant] | split)

theorem kept_execFastRead {a s : State} (p : Port) (addr : BitVec 24) (count : ℕ) (h : Kept a s) : KeptOut a (execFastRead p addr count s) := by
  unfold execFastRead
  repeat' (first
    | with_reducible assumption | with_reducible apply keptOut_next | with_reducible apply keptOut_fault
    | with_reducible apply keptOut_refused | with_reducible apply kept_groupRead | with_reducible apply kept_readoutRead
    | with_reducible apply kept_beginCommand | simp only [↓kept_mk] | with_reducible apply kept_ite
    | simp only [↓kept_mk, flash_of_latch, flash_of_modTenant, flash_of_setTenant] | split)

theorem kept_execDualOutputRead {a s : State} (p : Port) (addr : BitVec 24) (count : ℕ) (h : Kept a s) : KeptOut a (execDualOutputRead p addr count s) := by
  unfold execDualOutputRead
  repeat' (first
    | with_reducible assumption | with_reducible apply keptOut_next | with_reducible apply keptOut_fault
    | with_reducible apply keptOut_refused | with_reducible apply kept_groupRead | with_reducible apply kept_beginCommand)

theorem kept_execDualIoRead {a s : State} (p : Port) (addr : BitVec 24) (mode : Byte) (count : ℕ) (h : Kept a s) : KeptOut a (execDualIoRead p addr mode count s) := by
  unfold execDualIoRead
  repeat' (first
    | with_reducible assumption | with_reducible apply keptOut_next | with_reducible apply keptOut_fault
    | with_reducible apply keptOut_refused | with_reducible apply kept_groupRead
    | with_reducible refine kept_dualIoBytes_of (by assumption) ?_ | with_reducible apply kept_dualIoBytes
    | with_reducible apply kept_beginCommand)

theorem kept_execQuadOutputRead {a s : State} (p : Port) (addr : BitVec 24) (count : ℕ) (h : Kept a s) : KeptOut a (execQuadOutputRead p addr count s) := by
  unfold execQuadOutputRead
  repeat' (first
    | with_reducible assumption | with_reducible apply keptOut_next | with_reducible apply keptOut_fault
    | with_reducible apply keptOut_refused | with_reducible apply kept_groupRead | with_reducible apply kept_beginCommand)

theorem kept_execQuadIoRead {a s : State} (p : Port) (addr : BitVec 24) (mode : Byte) (count : ℕ) (h : Kept a s) : KeptOut a (execQuadIoRead p addr mode count s) := by
  unfold execQuadIoRead
  repeat' (first
    | with_reducible assumption | with_reducible apply keptOut_next | with_reducible apply keptOut_fault
    | with_reducible apply keptOut_refused | with_reducible apply kept_groupRead
    | with_reducible refine kept_quadIoBytes_of (by assumption) ?_ | with_reducible apply kept_quadIoBytes
    | with_reducible apply kept_beginCommand)

theorem kept_setWel {a s : State} (p : Port) (opcode : Byte) (v : Bool) (h : Kept a s) : Kept a (State.setWel s p opcode v) := by
  unfold State.setWel
  repeat' (first
    | with_reducible assumption | with_reducible apply kept_filter | with_reducible apply kept_modPort | simp only [↓kept_mk]
    | with_reducible apply kept_ite | simp only [↓kept_mk, flash_of_latch, flash_of_modTenant, flash_of_setTenant] | split)

theorem kept_execWriteEnable {a s : State} (p : Port) (h : Kept a s) : KeptOut a (execWriteEnable p s) := by
  unfold execWriteEnable
  repeat' (first
    | with_reducible assumption | with_reducible apply keptOut_next | with_reducible apply keptOut_fault
    | with_reducible apply keptOut_refused | with_reducible apply kept_setWel | with_reducible apply kept_beginCommand)

theorem kept_execWriteDisable {a s : State} (p : Port) (h : Kept a s) : KeptOut a (execWriteDisable p s) := by
  unfold execWriteDisable
  repeat' (first
    | with_reducible assumption | with_reducible apply keptOut_next | with_reducible apply keptOut_fault
    | with_reducible apply keptOut_refused | with_reducible apply kept_setWel | with_reducible apply kept_beginCommand)

theorem kept_intakePage {a s : State} (a' : ℕ) (data : Bytes) (h : Kept a s) : Kept a (State.intakePage s a' data) := by
  unfold State.intakePage
  repeat' (first
    | with_reducible assumption | with_reducible apply kept_romPage | with_reducible apply kept_absorbPage
    | with_reducible apply kept_romArrived | with_reducible apply kept_modPort | simp only [↓kept_mk] | with_reducible apply kept_ite)

theorem kept_readoutRequest {a s : State} (nonce : Bytes) (h : Kept a s) : Kept a (State.readoutRequest s nonce) := by
  unfold State.readoutRequest
  repeat' (first
    | with_reducible assumption | with_reducible apply kept_fixStatement | with_reducible refine kept_askStatement_of (by assumption) ?_
    | with_reducible apply kept_askStatement | with_reducible apply kept_modPort | simp only [↓kept_mk] | with_reducible apply kept_ite)

theorem kept_execPageProgram {a s : State} (p : Port) (addr : BitVec 24) (data : Bytes) (onByte : Bool) (h : Kept a s) : KeptOut a (execPageProgram p addr data onByte s) := by
  unfold execPageProgram
  repeat' (first
    | with_reducible assumption | with_reducible apply keptOut_next | with_reducible apply keptOut_fault
    | with_reducible apply keptOut_refused | with_reducible apply kept_readoutRequest | with_reducible apply kept_intakePage
    | with_reducible apply kept_takeWrite | with_reducible apply kept_filter | with_reducible apply kept_beginCommand
    | simp only [↓kept_mk] | with_reducible apply kept_ite | simp only [↓kept_mk, flash_of_latch, flash_of_modTenant, flash_of_setTenant]
    | split)

theorem kept_execIntakePageProgram {a s : State} (addr : BitVec 24) (data : Bytes) (h : Kept a s) : KeptOut a (execIntakePageProgram addr data s) := by
  unfold execIntakePageProgram
  repeat' (first
    | with_reducible assumption | with_reducible apply keptOut_next | with_reducible apply keptOut_fault
    | with_reducible apply keptOut_refused | with_reducible apply kept_intakePage | with_reducible apply kept_beginCommand
    | simp only [↓kept_mk] | with_reducible apply kept_ite | simp only [↓kept_mk, flash_of_latch, flash_of_modTenant, flash_of_setTenant]
    | split)

theorem kept_execReadoutStatementRequest {a s : State} (nonce : Bytes) (h : Kept a s) : KeptOut a (execReadoutStatementRequest nonce s) := by
  unfold execReadoutStatementRequest
  repeat' (first
    | with_reducible assumption | with_reducible apply keptOut_next | with_reducible apply keptOut_fault
    | with_reducible apply keptOut_refused | with_reducible apply kept_readoutRequest | with_reducible apply kept_beginCommand
    | simp only [↓kept_mk] | with_reducible apply kept_ite | simp only [↓kept_mk, flash_of_latch, flash_of_modTenant, flash_of_setTenant]
    | split)

theorem kept_groupErase {a s : State} (p : Port) (g : Machine.Group) (opcode : Byte) (addr : BitVec 24) (onByte : Bool) (op : WriteOp) (h : Kept a s) : Kept a (State.groupErase s p g opcode addr onByte op) := by
  unfold State.groupErase
  repeat' (first
    | with_reducible assumption | with_reducible apply kept_takeWrite | with_reducible apply kept_filter | simp only [↓kept_mk]
    | with_reducible apply kept_ite | simp only [↓kept_mk, flash_of_latch, flash_of_modTenant, flash_of_setTenant]
    | (with_reducible refine kept_foldl _ _ ?_ ?_; rotate_left; (intro st x hst)) | split | dsimp only | intro _)

theorem kept_execSectorErase4k {a s : State} (p : Port) (addr : BitVec 24) (onByte : Bool) (h : Kept a s) : KeptOut a (execSectorErase4k p addr onByte s) := by
  unfold execSectorErase4k
  repeat' (first
    | with_reducible assumption | with_reducible apply keptOut_next | with_reducible apply keptOut_fault
    | with_reducible apply keptOut_refused | with_reducible apply kept_groupErase | with_reducible apply kept_beginCommand)

theorem kept_execBlockErase64k {a s : State} (p : Port) (addr : BitVec 24) (onByte : Bool) (h : Kept a s) : KeptOut a (execBlockErase64k p addr onByte s) := by
  unfold execBlockErase64k
  repeat' (first
    | with_reducible assumption | with_reducible apply keptOut_next | with_reducible apply keptOut_fault
    | with_reducible apply keptOut_refused | with_reducible apply kept_groupErase | with_reducible apply kept_beginCommand)

theorem kept_execReadStatus {a s : State} (p : Port) (count : ℕ) (h : Kept a s) : KeptOut a (execReadStatus p count s) := by
  unfold execReadStatus
  repeat' (first
    | with_reducible assumption | with_reducible apply keptOut_next | with_reducible apply keptOut_fault
    | with_reducible apply keptOut_refused | with_reducible apply kept_beginCommand | with_reducible apply kept_drive
    | simp only [↓kept_mk] | with_reducible apply kept_ite)

theorem kept_execReadFlagStatus {a s : State} (p : Port) (count : ℕ) (h : Kept a s) : KeptOut a (execReadFlagStatus p count s) := by
  unfold execReadFlagStatus
  repeat' (first
    | with_reducible assumption | with_reducible apply keptOut_next | with_reducible apply keptOut_fault
    | with_reducible apply keptOut_refused | with_reducible apply kept_beginCommand | with_reducible apply kept_drive
    | simp only [↓kept_mk] | with_reducible apply kept_ite | simp only [↓kept_mk, flash_of_latch, flash_of_modTenant, flash_of_setTenant]
    | split)

theorem kept_execClearFlags {a s : State} (p : Port) (h : Kept a s) : KeptOut a (execClearFlags p s) := by
  unfold execClearFlags
  repeat' (first
    | with_reducible assumption | with_reducible apply keptOut_next | with_reducible apply keptOut_fault
    | with_reducible apply keptOut_refused | with_reducible apply kept_beginCommand | with_reducible apply kept_report
    | simp only [↓kept_mk] | with_reducible apply kept_ite | simp only [↓kept_mk, flash_of_latch, flash_of_modTenant, flash_of_setTenant]
    | split)

theorem kept_execReadSfdp {a s : State} (p : Port) (addr : BitVec 24) (count : ℕ) (h : Kept a s) : KeptOut a (execReadSfdp p addr count s) := by
  unfold execReadSfdp
  repeat' (first
    | with_reducible assumption | with_reducible apply keptOut_next | with_reducible apply keptOut_fault
    | with_reducible apply keptOut_refused | with_reducible apply kept_beginCommand | with_reducible apply kept_drive
    | simp only [↓kept_mk] | with_reducible apply kept_ite | simp only [↓kept_mk, flash_of_latch, flash_of_modTenant, flash_of_setTenant]
    | split)

theorem kept_execReadId {a s : State} (p : Port) (count : ℕ) (h : Kept a s) : KeptOut a (execReadId p count s) := by
  unfold execReadId
  repeat' (first
    | with_reducible assumption | with_reducible apply keptOut_next | with_reducible apply keptOut_fault
    | with_reducible apply keptOut_refused | with_reducible apply kept_beginCommand | with_reducible apply kept_drive
    | simp only [↓kept_mk] | with_reducible apply kept_ite | simp only [↓kept_mk, flash_of_latch, flash_of_modTenant, flash_of_setTenant]
    | split)

theorem kept_execResetEnable {a s : State} (p : Port) (h : Kept a s) : KeptOut a (execResetEnable p s) := by
  unfold execResetEnable
  repeat' (first
    | with_reducible assumption | with_reducible apply keptOut_next | with_reducible apply keptOut_fault
    | with_reducible apply keptOut_refused | with_reducible apply kept_beginCommand | with_reducible apply kept_modPort
    | simp only [↓kept_mk] | with_reducible apply kept_ite | simp only [↓kept_mk, flash_of_latch, flash_of_modTenant, flash_of_setTenant]
    | split)

theorem kept_execReset {a s : State} (p : Port) (h : Kept a s) : KeptOut a (execReset p s) := by
  unfold execReset
  repeat' (first
    | with_reducible assumption | with_reducible apply keptOut_next | with_reducible apply keptOut_fault
    | with_reducible apply keptOut_refused | with_reducible apply kept_beginCommand | with_reducible apply kept_modPort
    | simp only [↓kept_mk] | with_reducible apply kept_ite | simp only [↓kept_mk, flash_of_latch, flash_of_modTenant, flash_of_setTenant]
    | split)

theorem kept_execDeepPowerDown {a s : State} (p : Port) (h : Kept a s) : KeptOut a (execDeepPowerDown p s) := by
  unfold execDeepPowerDown
  repeat' (first
    | with_reducible assumption | with_reducible apply keptOut_next | with_reducible apply keptOut_fault
    | with_reducible apply keptOut_refused | with_reducible apply kept_filter | with_reducible apply kept_beginCommand
    | with_reducible apply kept_modPort | simp only [↓kept_mk] | with_reducible apply kept_ite
    | simp only [↓kept_mk, flash_of_latch, flash_of_modTenant, flash_of_setTenant] | split)

theorem kept_execReleasePowerDown {a s : State} (p : Port) (count : ℕ) (h : Kept a s) : KeptOut a (execReleasePowerDown p count s) := by
  unfold execReleasePowerDown
  repeat' (first
    | with_reducible assumption | with_reducible apply keptOut_next | with_reducible apply keptOut_fault
    | with_reducible apply keptOut_refused | with_reducible apply kept_filter | with_reducible apply kept_beginCommand
    | with_reducible apply kept_drive | with_reducible apply kept_modPort | with_reducible refine kept_freeBelow_of (by assumption) ?_
    | with_reducible apply kept_freeBelow | simp only [↓kept_mk] | with_reducible apply kept_ite
    | simp only [↓kept_mk, flash_of_latch, flash_of_modTenant, flash_of_setTenant] | split)

theorem kept_execFilteredOpcode {a s : State} (p : Port) (opcode : Byte) (addr : Option (BitVec 24)) (h : Kept a s) : KeptOut a (execFilteredOpcode p opcode addr s) := by
  unfold execFilteredOpcode
  repeat' (first
    | with_reducible assumption | with_reducible apply keptOut_next | with_reducible apply keptOut_fault
    | with_reducible apply keptOut_refused | with_reducible apply kept_filter | with_reducible apply kept_beginCommand
    | simp only [↓kept_mk] | with_reducible apply kept_ite | simp only [↓kept_mk, flash_of_latch, flash_of_modTenant, flash_of_setTenant]
    | split)

theorem kept_execChipSelectFall {a s : State} (p : Port) (h : Kept a s) : KeptOut a (execChipSelectFall p s) := by
  unfold execChipSelectFall
  repeat' (first
    | with_reducible assumption | with_reducible apply keptOut_next | with_reducible apply keptOut_fault
    | with_reducible apply keptOut_refused | with_reducible apply kept_hearFall | with_reducible apply kept_modPort
    | with_reducible apply kept_latch | simp only [↓kept_mk] | with_reducible apply kept_ite
    | simp only [↓kept_mk, flash_of_latch, flash_of_modTenant, flash_of_setTenant]
    | (with_reducible refine kept_foldl _ _ ?_ ?_; rotate_left; (intro st x hst)) | split | dsimp only | intro _)

theorem kept_bootB9 {a s : State} (h : Kept a s) : Kept a (State.bootB9 s) := by
  unfold State.bootB9
  repeat' (first
    | with_reducible assumption | with_reducible apply kept_trySources | with_reducible apply kept_enterRecovery | simp only [↓kept_mk]
    | with_reducible apply kept_ite)

theorem kept_beginReadout {a s : State} (h : Kept a s) : Kept a (State.beginReadout s) := by
  unfold State.beginReadout
  repeat' (first
    | with_reducible assumption | with_reducible apply kept_appendNow | with_reducible apply kept_putKey | simp only [↓kept_mk]
    | with_reducible apply kept_ite | simp only [↓kept_mk, flash_of_latch, flash_of_modTenant, flash_of_setTenant] | split)

theorem kept_endB8 {a s : State} (h : Kept a s) : Kept a (State.endB8 s) := by
  unfold State.endB8
  repeat' (first
    | with_reducible assumption | with_reducible apply kept_beginReadout | with_reducible apply kept_bootB9
    | with_reducible apply kept_drawChallenge | simp only [↓kept_mk] | with_reducible apply kept_ite)

theorem kept_romCycle {a s : State} (op : Byte) (h : Kept a s) : Kept a (State.romCycle s op) := by
  unfold State.romCycle
  have k : ∀ n, Kept a { s.spend n with flash := { s.flash with cycles := s.flash.cycles + 1 } } := fun n => kept_spend n h
  exact kept_ite (kept_order _ _ (kept_latch _ (kept_latch _ (k 655360)))) (kept_killChip _ _ h)

theorem kept_romFlash {a s : State} (t : FlashTask) (h : Kept a s) : Kept a (State.romFlash s t).1 := by
  unfold State.romFlash
  repeat' (first
    | with_reducible assumption | with_reducible apply kept_romCycle | with_reducible apply kept_flashFault
    | with_reducible apply kept_spoilTask | with_reducible apply kept_applyTask | with_reducible apply kept_order
    | with_reducible refine kept_freeBelow_of (by assumption) ?_ | with_reducible apply kept_freeBelow | simp only [↓kept_mk]
    | with_reducible apply kept_ite | simp only [↓kept_mk, flash_of_latch, flash_of_modTenant, flash_of_setTenant]
    | (with_reducible refine kept_foldl _ _ ?_ ?_; rotate_left; (intro st x hst)) | split | dsimp only | intro _)
theorem kept_romFlash_of {a s nx : State} {t : FlashTask} {y} (e : (State.romFlash s t) = (nx, y)) (h : Kept a s) : Kept a nx := by
  have := kept_romFlash t h
  rwa [e] at this

theorem kept_writeExchange {a s : State} (reason : Byte) (h : Kept a s) : Kept a (State.writeExchange s reason) := by
  unfold State.writeExchange
  repeat' (first
    | with_reducible assumption | with_reducible refine kept_romFlash_of (by assumption) ?_ | with_reducible apply kept_romFlash
    | simp only [↓kept_mk] | with_reducible apply kept_ite)

theorem kept_openingRecord {a s : State} (signed : Bool) (h : Kept a s) : Kept a (State.openingRecord s signed) := by
  unfold State.openingRecord
  repeat' (first | with_reducible assumption | with_reducible apply kept_appendNow)

theorem kept_dropSpill {a s : State} (h : Kept a s) : Kept a (State.dropSpill s) := by
  unfold State.dropSpill
  repeat' (first
    | with_reducible assumption | with_reducible apply kept_makeRoom | with_reducible apply kept_dropBatch
    | with_reducible apply kept_vaultPut | simp only [↓kept_mk] | with_reducible apply kept_ite
    | simp only [↓kept_mk, flash_of_latch, flash_of_modTenant, flash_of_setTenant] | split)

theorem kept_endReopen {a s : State} (completion : Bool) (h : Kept a s) : Kept a (State.endReopen s completion).1 := by
  unfold State.endReopen
  repeat' (first
    | with_reducible assumption | with_reducible apply kept_holdWith | with_reducible apply kept_ledgerInit
    | with_reducible apply kept_unlockKeys | with_reducible refine kept_pulseAll_of (by assumption) ?_
    | with_reducible apply kept_pulseAll | with_reducible apply kept_appendNow | with_reducible apply kept_vaultErase
    | simp only [↓kept_mk] | with_reducible apply kept_ite | simp only [↓kept_mk, flash_of_latch, flash_of_modTenant, flash_of_setTenant]
    | split)
theorem kept_endReopen_of {a s nx : State} {completion : Bool} {y} (e : (State.endReopen s completion) = (nx, y)) (h : Kept a s) : Kept a nx := by
  have := kept_endReopen completion h
  rwa [e] at this

theorem kept_beginD4 {a s : State} (completion : Bool) (acted : Bool) (next : State → State) (h_next : ∀ st, Kept a st → Kept a (next st)) (h : Kept a s) : Kept a (State.beginD4 s completion acted next) := by
  unfold State.beginD4
  repeat' (first
    | with_reducible assumption | with_reducible apply h_next | with_reducible refine kept_endReopen_of (by assumption) ?_
    | with_reducible apply kept_endReopen | with_reducible apply kept_discoverAll | with_reducible apply kept_eraseBlock
    | with_reducible apply kept_eraseReopen | with_reducible apply kept_zeroiseKeys | simp only [↓kept_mk] | with_reducible apply kept_ite
    | simp only [↓kept_mk, flash_of_latch, flash_of_modTenant, flash_of_setTenant] | split)

theorem kept_fullReopen {a s : State} (h : Kept a s) : Kept a (State.fullReopen s) := by
  unfold State.fullReopen
  repeat' (first
    | with_reducible assumption | with_reducible apply kept_beginD4 | with_reducible apply kept_dropSpill
    | with_reducible apply kept_openingRecord | with_reducible apply kept_endB8 | with_reducible apply kept_holdWith
    | with_reducible refine kept_pulseAll_of (by assumption) ?_ | with_reducible apply kept_pulseAll | simp only [↓kept_mk]
    | with_reducible apply kept_ite)

theorem kept_readResponse {a s : State} (h : Kept a s) : Kept a (State.readResponse s) := by
  unfold State.readResponse
  repeat' (first
    | with_reducible assumption | with_reducible apply kept_fullReopen | with_reducible apply kept_openingRecord
    | with_reducible apply kept_writeExchange | with_reducible apply kept_endB8 | with_reducible apply kept_spend
    | with_reducible apply kept_rejectRecord | with_reducible apply kept_drawChallenge | simp only [↓kept_mk]
    | with_reducible apply kept_ite | simp only [↓kept_mk, flash_of_latch, flash_of_modTenant, flash_of_setTenant] | split)

theorem kept_bootB8 {a s : State} (h : Kept a s) : Kept a (State.bootB8 s) := by
  unfold State.bootB8
  repeat' (first
    | with_reducible assumption | with_reducible apply kept_readResponse | with_reducible apply kept_openingRecord
    | with_reducible apply kept_endB8 | with_reducible apply kept_discoverAll | with_reducible apply kept_noteBit | simp only [↓kept_mk]
    | with_reducible apply kept_ite | simp only [↓kept_mk, flash_of_latch, flash_of_modTenant, flash_of_setTenant] | split)

theorem kept_bootB6 {a s : State} (h : Kept a s) : Kept a (State.bootB6 s) := by
  unfold State.bootB6
  repeat' (first
    | with_reducible assumption | with_reducible apply kept_bootB8 | with_reducible apply kept_spendUpTo
    | with_reducible apply kept_unlockKeys)

theorem kept_endReturned {a s : State} (signed : Bool) (completion : Bool) (ignored : Bool) (h : Kept a s) : Kept a (State.endReturned s signed completion ignored).1 := by
  unfold State.endReturned
  repeat' (first
    | with_reducible assumption | with_reducible refine kept_endTransition_of (by assumption) ?_ | with_reducible apply kept_endTransition
    | with_reducible apply kept_vaultErase)
theorem kept_endReturned_of {a s nx : State} {signed : Bool} {completion : Bool} {ignored : Bool} {y} (e : (State.endReturned s signed completion ignored) = (nx, y)) (h : Kept a s) : Kept a nx := by
  have := kept_endReturned signed completion ignored h
  rwa [e] at this

theorem kept_runWipe {a s : State} (old : LifeCycle) (new : LifeCycle) (signed : Bool) (completion : Bool) (ignored : Bool) (next : State → State) (h_next : ∀ st, Kept a st → Kept a (next st)) (h : Kept a s) : Kept a (State.runWipe s old new signed completion ignored next) := by
  unfold State.runWipe
  repeat' (first
    | with_reducible assumption | with_reducible apply h_next | with_reducible refine kept_endReturned_of (by assumption) ?_
    | with_reducible apply kept_endReturned | with_reducible apply kept_discoverAll | with_reducible apply kept_eraseBlock
    | with_reducible refine kept_endTransition_of (by assumption) ?_ | with_reducible apply kept_endTransition
    | with_reducible refine kept_wipe_of (by assumption) ?_ | with_reducible apply kept_wipe | with_reducible apply kept_holdWith
    | simp only [↓kept_mk] | with_reducible apply kept_ite | simp only [↓kept_mk, flash_of_latch, flash_of_modTenant, flash_of_setTenant]
    | split)

theorem kept_transition {a s : State} (new : LifeCycle) (signed : Bool) (next : State → State) (h_next : ∀ st, Kept a st → Kept a (next st)) (h : Kept a s) : Kept a (State.transition s new signed next) := by
  unfold State.transition
  repeat' (first
    | with_reducible assumption | with_reducible apply h_next | with_reducible apply kept_runWipe | with_reducible apply kept_lifeRecord
    | with_reducible apply kept_holdWith | with_reducible refine kept_pulseAll_of (by assumption) ?_ | with_reducible apply kept_pulseAll
    | simp only [↓kept_mk] | with_reducible apply kept_ite)

theorem kept_lifeRequest {a s : State} (r : Request) (h : Kept a s) : Kept a (State.lifeRequest s r) := by
  unfold State.lifeRequest
  repeat' (first
    | with_reducible assumption | with_reducible apply kept_transition | with_reducible apply kept_bootB6 | with_reducible apply kept_spend
    | with_reducible apply kept_rejectRecord | with_reducible apply kept_writeMark | with_reducible apply kept_takeRequest
    | simp only [↓kept_mk] | with_reducible apply kept_ite | simp only [↓kept_mk, flash_of_latch, flash_of_modTenant, flash_of_setTenant]
    | (with_reducible refine kept_foldl _ _ ?_ ?_; rotate_left; (intro st x hst)) | split | dsimp only | intro _)

theorem kept_provisionRequest {a s : State} (r : Request) (signed : Bool) (h : Kept a s) : Kept a (State.provisionRequest s r signed) := by
  unfold State.provisionRequest
  repeat' (first
    | with_reducible assumption | with_reducible apply kept_bootB6 | with_reducible apply kept_spend | with_reducible apply kept_provision
    | with_reducible apply kept_rejectRecord | with_reducible apply kept_writeMark | with_reducible apply kept_takeRequest
    | simp only [↓kept_mk] | with_reducible apply kept_ite | simp only [↓kept_mk, flash_of_latch, flash_of_modTenant, flash_of_setTenant]
    | (with_reducible refine kept_foldl _ _ ?_ ?_; rotate_left; (intro st x hst)) | split | dsimp only | intro _)

theorem kept_bootB5 {a s : State} (h : Kept a s) : Kept a (State.bootB5 s) := by
  unfold State.bootB5
  repeat' (first
    | with_reducible assumption | with_reducible apply kept_provisionRequest | with_reducible apply kept_lifeRequest
    | with_reducible apply kept_transition | with_reducible apply kept_bootB6 | with_reducible apply kept_armFault | simp only [↓kept_mk]
    | with_reducible apply kept_ite | simp only [↓kept_mk, flash_of_latch, flash_of_modTenant, flash_of_setTenant] | split)

theorem kept_bootB4 {a s : State} (acted : Bool) (h : Kept a s) : Kept a (State.bootB4 s acted) := by
  unfold State.bootB4
  repeat' (first
    | with_reducible assumption | with_reducible apply kept_bootB5 | with_reducible apply kept_bootB6
    | with_reducible apply kept_countUpTo | simp only [↓kept_mk] | with_reducible apply kept_ite)

theorem kept_bootReopen {a s : State} (acted : Bool) (h : Kept a s) : Kept a (State.bootReopen s acted) := by
  unfold State.bootReopen
  repeat' (first
    | with_reducible assumption | with_reducible apply kept_bootB4 | with_reducible apply kept_beginD4
    | with_reducible apply kept_holdWith | simp only [↓kept_mk] | with_reducible apply kept_ite
    | simp only [↓kept_mk, flash_of_latch, flash_of_modTenant, flash_of_setTenant] | split | dsimp only | intro _)

theorem kept_complete {a s : State} (old : LifeCycle) (new : LifeCycle) (h : Kept a s) : Kept a (State.complete s old new) := by
  unfold State.complete
  repeat' (first
    | with_reducible assumption | with_reducible apply kept_bootReopen | with_reducible apply kept_runWipe
    | with_reducible apply kept_lifeRecord | with_reducible apply kept_holdWith | simp only [↓kept_mk] | with_reducible apply kept_ite
    | simp only [↓kept_mk, flash_of_latch, flash_of_modTenant, flash_of_setTenant]
    | (with_reducible refine kept_foldl _ _ ?_ ?_; rotate_left; (intro st x hst)) | split | dsimp only | intro _)

theorem kept_bootB3 {a s : State} (h : Kept a s) : Kept a (State.bootB3 s) := by
  unfold State.bootB3
  repeat' (first
    | with_reducible assumption | with_reducible apply kept_complete | with_reducible apply kept_bootReopen
    | with_reducible apply kept_topUp | with_reducible apply kept_hold | with_reducible refine kept_generateKey_of (by assumption) ?_
    | with_reducible apply kept_generateKey | simp only [↓kept_mk] | with_reducible apply kept_ite
    | simp only [↓kept_mk, flash_of_latch, flash_of_modTenant, flash_of_setTenant] | split)

theorem kept_strapNotes {a s : State} (h : Kept a s) : Kept a (State.strapNotes s) := by
  unfold State.strapNotes
  repeat' (first | with_reducible assumption | with_reducible apply kept_noteBit | simp only [↓kept_mk] | with_reducible apply kept_ite)

theorem kept_bootB2 {a s : State} (h : Kept a s) : Kept a (State.bootB2 s) := by
  unfold State.bootB2
  repeat' (first
    | with_reducible assumption | with_reducible apply kept_strapNotes | with_reducible apply kept_bootB3
    | with_reducible apply kept_applyStraps | with_reducible apply kept_hold | with_reducible apply kept_appendNow | simp only [↓kept_mk]
    | with_reducible apply kept_ite | simp only [↓kept_mk, flash_of_latch, flash_of_modTenant, flash_of_setTenant] | split)

theorem kept_bootB1 {a s : State} (tripAfter : Option ℕ) (h : Kept a s) : Kept a (State.bootB1 s tripAfter) := by
  unfold State.bootB1
  repeat' (first | with_reducible assumption | with_reducible apply kept_bootB2 | with_reducible apply kept_spend | simp only [↓kept_mk])

theorem kept_wipeEnded {a s : State} (job : WipeJob) (completion : Bool) (ignored : Bool) (h : Kept a s) : Kept a (State.wipeEnded s job completion ignored) := by
  unfold State.wipeEnded
  repeat' (first
    | with_reducible assumption | with_reducible apply kept_bootReopen | with_reducible apply kept_bootB4
    | with_reducible refine kept_endReturned_of (by assumption) ?_ | with_reducible apply kept_endReturned
    | with_reducible apply kept_bootB6 | with_reducible refine kept_endReopen_of (by assumption) ?_ | with_reducible apply kept_endReopen
    | with_reducible apply kept_endB8 | with_reducible apply kept_writeMark | simp only [↓kept_mk] | with_reducible apply kept_ite
    | simp only [↓kept_mk, flash_of_latch, flash_of_modTenant, flash_of_setTenant]
    | (with_reducible refine kept_foldl _ _ ?_ ?_; rotate_left; (intro st x hst)) | split | dsimp only | intro _)

theorem kept_wipePast {a s : State} (chip : ℕ) (block : ℕ) (h : Kept a s) : Kept a (State.wipePast s chip block) := by
  unfold State.wipePast
  repeat' (first
    | with_reducible assumption | with_reducible apply kept_wipeEnded | with_reducible apply kept_eraseBlock
    | with_reducible apply kept_advanceCursor | simp only [↓kept_mk] | with_reducible apply kept_ite
    | simp only [↓kept_mk, flash_of_latch, flash_of_modTenant, flash_of_setTenant] | split)

theorem kept_wipeStep {a s : State} (o : FlashOp) (cause : Option Byte) (h : Kept a s) : Kept a (State.wipeStep s o cause) := by
  unfold State.wipeStep
  repeat' (first
    | with_reducible assumption | with_reducible apply kept_wipePast | with_reducible apply kept_flashFault | simp only [↓kept_mk]
    | with_reducible apply kept_ite | simp only [↓kept_mk, flash_of_latch, flash_of_modTenant, flash_of_setTenant] | split)

theorem kept_execKeeperGapEnd {a s : State} (tripAfter : Option ℕ) (h : Kept a s) : KeptOut a (execKeeperGapEnd tripAfter s) := by
  unfold execKeeperGapEnd
  repeat' (first
    | with_reducible assumption | with_reducible apply keptOut_next | with_reducible apply keptOut_fault
    | with_reducible apply keptOut_refused | with_reducible apply kept_bootB1 | simp only [↓kept_mk] | with_reducible apply kept_ite)

theorem kept_execSourceAttemptTimeout {a s : State} (h : Kept a s) : KeptOut a (execSourceAttemptTimeout s) := by
  unfold execSourceAttemptTimeout
  repeat' (first
    | with_reducible assumption | with_reducible apply keptOut_next | with_reducible apply keptOut_fault
    | with_reducible apply keptOut_refused | with_reducible apply kept_toRtc | with_reducible apply kept_attemptFailed
    | simp only [↓kept_mk] | with_reducible apply kept_ite | simp only [↓kept_mk, flash_of_latch, flash_of_modTenant, flash_of_setTenant]
    | split)

theorem kept_execRecoveryWaitTimeout {a s : State} (h : Kept a s) : KeptOut a (execRecoveryWaitTimeout s) := by
  unfold execRecoveryWaitTimeout
  repeat' (first
    | with_reducible assumption | with_reducible apply keptOut_next | with_reducible apply keptOut_fault
    | with_reducible apply keptOut_refused | with_reducible apply kept_toRtc | with_reducible apply kept_endAttempt
    | with_reducible apply kept_holdWith | simp only [↓kept_mk] | with_reducible apply kept_ite
    | simp only [↓kept_mk, flash_of_latch, flash_of_modTenant, flash_of_setTenant] | split)

theorem kept_execFlashOperationDone {a s : State} (chip : Fin 2) (error : Bool) (h : Kept a s) : KeptOut a (execFlashOperationDone chip error s) := by
  unfold execFlashOperationDone
  repeat' (first
    | with_reducible assumption | with_reducible apply keptOut_next | with_reducible apply keptOut_fault
    | with_reducible apply keptOut_refused | with_reducible apply kept_wipeStep | with_reducible apply kept_opLost
    | with_reducible apply kept_opEnded | with_reducible apply kept_pump | with_reducible apply kept_spoilTask
    | with_reducible apply kept_applyTask | with_reducible apply kept_endOp | with_reducible apply kept_order
    | with_reducible apply kept_latchIf | with_reducible apply kept_latch | simp only [↓kept_mk] | with_reducible apply kept_ite
    | simp only [↓kept_mk, flash_of_latch, flash_of_modTenant, flash_of_setTenant]
    | (with_reducible refine kept_foldl _ _ ?_ ?_; rotate_left; (intro st x hst)) | split | dsimp only | intro _)

theorem kept_wipeTimeout {a s : State} (chip : Fin 2) (o : FlashOp) (stillBusy : Bool) (h : Kept a s) : Kept a (State.wipeTimeout s chip o stillBusy) := by
  unfold State.wipeTimeout
  repeat' (first
    | with_reducible assumption | with_reducible apply kept_wipeStep | with_reducible apply kept_powerCycle
    | with_reducible apply kept_flashFault | with_reducible apply kept_spoilTask | with_reducible apply kept_endOp | simp only [↓kept_mk]
    | with_reducible apply kept_ite)

theorem kept_execFlashOperationTimeout {a s : State} (chip : Fin 2) (stillBusy : Bool) (h : Kept a s) : KeptOut a (execFlashOperationTimeout chip stillBusy s) := by
  unfold execFlashOperationTimeout
  repeat' (first
    | with_reducible assumption | with_reducible apply keptOut_next | with_reducible apply keptOut_fault
    | with_reducible apply keptOut_refused | with_reducible apply kept_wipeTimeout | with_reducible apply kept_powerCycle
    | with_reducible apply kept_opLost | with_reducible apply kept_pump | with_reducible apply kept_order | with_reducible apply kept_latch
    | simp only [↓kept_mk] | with_reducible apply kept_ite | simp only [↓kept_mk, flash_of_latch, flash_of_modTenant, flash_of_setTenant]
    | (with_reducible refine kept_foldl _ _ ?_ ?_; rotate_left; (intro st x hst)) | split | dsimp only | intro _)

theorem kept_restoreInRom {a s : State} (answers0 : Bool) (answers1 : Bool) (h : Kept a s) : Kept a (State.restoreInRom s answers0 answers1) := by
  unfold State.restoreInRom
  have k : ∀ n, Kept a { s.spend n with
      pads := s.pads.flashOn s.boot.fstrap (s.straps.keepers.getD 0 false), flash := { s.flash with cutAt := none } } :=
    fun n => kept_spend n h
  have q := kept_rediscover 1 answers1 (kept_rediscover 0 answers0 (kept_latch Ev.powerCycled (k 655360)))
  dsimp only
  split
  · exact kept_wipePast _ _ q
  · exact q

theorem kept_execFlashPowerRestore {a s : State} (answers0 : Bool) (answers1 : Bool) (h : Kept a s) : KeptOut a (execFlashPowerRestore answers0 answers1 s) := by
  unfold execFlashPowerRestore
  repeat' (first
    | with_reducible assumption | with_reducible apply keptOut_next | with_reducible apply keptOut_fault
    | with_reducible apply keptOut_refused | with_reducible apply kept_restoreInRom | with_reducible apply kept_restoreFlash
    | with_reducible apply kept_pump | simp only [↓kept_mk] | with_reducible apply kept_ite
    | simp only [↓kept_mk, flash_of_latch, flash_of_modTenant, flash_of_setTenant]
    | (with_reducible refine kept_foldl _ _ ?_ ?_; rotate_left; (intro st x hst)) | split | dsimp only | intro _)

theorem kept_mapWord {a s : State} (n : ℕ) (e' : MapEntry) (k : ℕ) (h : Kept a s) : Kept a (State.mapWord s n e' k) := by
  unfold State.mapWord
  repeat' (first | with_reducible assumption | with_reducible apply kept_sramWrite)

theorem kept_mapEntryApply {a s : State} (old : Schedule) (e' : MapEntry) (h : Kept a s) : Kept a (State.mapEntryApply s old e') := by
  unfold State.mapEntryApply
  repeat' (first
    | with_reducible assumption | with_reducible apply kept_mapWord | simp only [↓kept_mk] | with_reducible apply kept_ite
    | simp only [↓kept_mk, flash_of_latch, flash_of_modTenant, flash_of_setTenant]
    | (with_reducible refine kept_foldl _ _ ?_ ?_; rotate_left; (intro st x hst)))

theorem kept_applyMap {a s : State} (old : Schedule) (new : Schedule) (h : Kept a s) : Kept a (State.applyMap s old new) := by
  unfold State.applyMap
  repeat' (first
    | with_reducible assumption | with_reducible apply kept_mapEntryApply | simp only [↓kept_mk] | with_reducible apply kept_ite
    | simp only [↓kept_mk, flash_of_latch, flash_of_modTenant, flash_of_setTenant]
    | (with_reducible refine kept_foldl _ _ ?_ ?_; rotate_left; (intro st x hst)))

theorem kept_toFrame {a s : State} (h : Kept a s) : Kept a (State.toFrame s) := by
  unfold State.toFrame
  repeat' (first
    | with_reducible assumption | with_reducible apply kept_setClock | simp only [↓kept_mk] | with_reducible apply kept_ite
    | simp only [↓kept_mk, flash_of_latch, flash_of_modTenant, flash_of_setTenant]
    | (with_reducible refine kept_foldl _ _ ?_ ?_; rotate_left; (intro st x hst)) | split | dsimp only | intro _)

theorem kept_settlePermit {a s : State} (h : Kept a s) : Kept a (State.settlePermit s) := by
  unfold State.settlePermit
  repeat' (first
    | with_reducible assumption | with_reducible apply kept_drivePermit | with_reducible apply kept_latchIf | simp only [↓kept_mk]
    | with_reducible apply kept_ite)

theorem kept_takePair {a s : State} (encoded : Bytes) (image : Bytes) (new : Manifest) (old : Manifest) (h : Kept a s) : Kept a (State.takePair s encoded image new old) := by
  unfold State.takePair
  repeat' (first | with_reducible assumption | simp only [↓kept_mk])

theorem kept_handoverLap {a s : State} (encoded : Bytes) (image : Bytes) (new : Manifest) (old : Manifest) (run : Schedule) (h : Kept a s) : Kept a (State.handoverLap s encoded image new old run) := by
  unfold State.handoverLap
  repeat' (first
    | with_reducible assumption | with_reducible apply kept_takePair | with_reducible apply kept_settlePermit
    | with_reducible apply kept_toFrame | with_reducible apply kept_applyMap | with_reducible apply kept_scanSpill
    | with_reducible apply kept_endLanes | with_reducible apply kept_versionsPairOf | with_reducible apply kept_record
    | simp only [↓kept_mk] | with_reducible apply kept_ite | simp only [↓kept_mk, flash_of_latch, flash_of_modTenant, flash_of_setTenant]
    | (with_reducible refine kept_foldl _ _ ?_ ?_; rotate_left; (intro st x hst)) | split | dsimp only | intro _)

theorem kept_abortExportFree {a s : State} (h : Kept a s) : Kept a (State.abortExportFree s) := by
  unfold State.abortExportFree
  repeat' (first
    | with_reducible assumption | with_reducible apply kept_abortExport | with_reducible refine kept_freeReason_of (by assumption) ?_
    | with_reducible apply kept_freeReason | simp only [↓kept_mk] | with_reducible apply kept_ite
    | simp only [↓kept_mk, flash_of_latch, flash_of_modTenant, flash_of_setTenant]
    | (with_reducible refine kept_foldl _ _ ?_ ?_; rotate_left; (intro st x hst)) | split | dsimp only | intro _)

theorem kept_beginExport {a s : State} (t : TSlot) (target : Bytes) (order : Bytes) (h : Kept a s) : Kept a (State.beginExport s t target order) := by
  unfold State.beginExport
  repeat' (first
    | with_reducible assumption | with_reducible apply kept_writeParcel | with_reducible refine kept_newTransfer_of (by assumption) ?_
    | with_reducible apply kept_newTransfer | with_reducible apply kept_setClock | with_reducible apply kept_modTenant
    | simp only [↓kept_mk] | with_reducible apply kept_ite | simp only [↓kept_mk, flash_of_latch, flash_of_modTenant, flash_of_setTenant]
    | (with_reducible refine kept_foldl _ _ ?_ ?_; rotate_left; (intro st x hst)) | split | dsimp only | intro _)

theorem kept_sendParcel {a s : State} (m : Manifest) (d : TenantDecl) (e' : Export) (key : Bytes) (eph : Bytes) (boot : ℕ) (h : Kept a s) : Kept a (State.sendParcel s m d e' key eph boot) := by
  unfold State.sendParcel
  repeat' (first
    | with_reducible assumption | with_reducible apply kept_abortExport | with_reducible apply kept_sendFragment
    | with_reducible apply kept_writeParcel | with_reducible apply kept_setClock | simp only [↓kept_mk] | with_reducible apply kept_ite
    | simp only [↓kept_mk, flash_of_latch, flash_of_modTenant, flash_of_setTenant]
    | (with_reducible refine kept_foldl _ _ ?_ ?_; rotate_left; (intro st x hst)) | split | dsimp only | intro _)

theorem kept_sealExport {a s : State} (m : Manifest) (d : TenantDecl) (e' : Export) (h : Kept a s) : Kept a (State.sealExport s m d e') := by
  unfold State.sealExport
  repeat' (first
    | with_reducible assumption | with_reducible apply kept_sendParcel | with_reducible apply kept_abortExportFree
    | with_reducible apply kept_abortExport | with_reducible apply kept_writeParcel | with_reducible apply kept_setClock
    | with_reducible apply kept_putKey | with_reducible refine kept_random_of (by assumption) ?_ | with_reducible apply kept_random
    | simp only [↓kept_mk] | with_reducible apply kept_ite | simp only [↓kept_mk, flash_of_latch, flash_of_modTenant, flash_of_setTenant]
    | (with_reducible refine kept_foldl _ _ ?_ ?_; rotate_left; (intro st x hst)) | split | dsimp only | intro _)

theorem kept_exportOn {a s : State} (m : Manifest) (h : Kept a s) : Kept a (State.exportOn s m) := by
  unfold State.exportOn
  repeat' (first
    | with_reducible assumption | with_reducible apply kept_sealExport | with_reducible apply kept_beginExport | simp only [↓kept_mk]
    | with_reducible apply kept_ite | simp only [↓kept_mk, flash_of_latch, flash_of_modTenant, flash_of_setTenant] | split)

theorem kept_startWork {a s : State} (h : Kept a s) : Kept a (State.startWork s) := by
  unfold State.startWork
  repeat' (first
    | with_reducible assumption | with_reducible apply kept_workDone | with_reducible apply kept_pump | simp only [↓kept_mk]
    | with_reducible apply kept_ite)

theorem kept_importOn {a s : State} (m : Manifest) (x : Transfer) (h : Kept a s) : Kept a (State.importOn s m x) := by
  unfold State.importOn
  repeat' (first
    | with_reducible assumption | with_reducible apply kept_startWork | with_reducible apply kept_beginImport
    | with_reducible apply kept_abortImport | with_reducible apply kept_setClock | simp only [↓kept_mk] | with_reducible apply kept_ite
    | simp only [↓kept_mk, flash_of_latch, flash_of_modTenant, flash_of_setTenant]
    | (with_reducible refine kept_foldl _ _ ?_ ?_; rotate_left; (intro st x hst)) | split | dsimp only | intro _)

theorem kept_execInstallCheck {a s : State} (h : Kept a s) : KeptOut a (execInstallCheck s) := by
  unfold execInstallCheck
  repeat' (first
    | with_reducible assumption | with_reducible apply keptOut_next | with_reducible apply keptOut_fault
    | with_reducible apply keptOut_refused | with_reducible apply kept_checkInstall | simp only [↓kept_mk] | with_reducible apply kept_ite
    | simp only [↓kept_mk, flash_of_latch, flash_of_modTenant, flash_of_setTenant] | split)

theorem kept_execTenantImageInstall {a s : State} (h : Kept a s) : KeptOut a (execTenantImageInstall s) := by
  unfold execTenantImageInstall
  repeat' (first
    | with_reducible assumption | with_reducible apply keptOut_next | with_reducible apply keptOut_fault
    | with_reducible apply keptOut_refused | with_reducible apply kept_startWork | with_reducible apply kept_beginImage
    | simp only [↓kept_mk] | with_reducible apply kept_ite | simp only [↓kept_mk, flash_of_latch, flash_of_modTenant, flash_of_setTenant]
    | split)

theorem kept_execSchedulePairInstall {a s : State} (h : Kept a s) : KeptOut a (execSchedulePairInstall s) := by
  unfold execSchedulePairInstall
  repeat' (first
    | with_reducible assumption | with_reducible apply keptOut_next | with_reducible apply keptOut_fault
    | with_reducible apply keptOut_refused | with_reducible apply kept_startWork | with_reducible apply kept_beginReseal
    | with_reducible apply kept_beginPair | simp only [↓kept_mk] | with_reducible apply kept_ite
    | simp only [↓kept_mk, flash_of_latch, flash_of_modTenant, flash_of_setTenant] | split)

theorem kept_execTenantRestart {a s : State} (t : TSlot) (h : Kept a s) : KeptOut a (execTenantRestart t s) := by
  unfold execTenantRestart
  repeat' (first
    | with_reducible assumption | with_reducible apply keptOut_next | with_reducible apply keptOut_fault
    | with_reducible apply keptOut_refused | with_reducible apply kept_restart | simp only [↓kept_mk] | with_reducible apply kept_ite
    | simp only [↓kept_mk, flash_of_latch, flash_of_modTenant, flash_of_setTenant] | split)

theorem kept_execConfirmWindowExpiry {a s : State} (t : TSlot) (h : Kept a s) : KeptOut a (execConfirmWindowExpiry t s) := by
  unfold execConfirmWindowExpiry
  repeat' (first
    | with_reducible assumption | with_reducible apply keptOut_next | with_reducible apply keptOut_fault
    | with_reducible apply keptOut_refused | with_reducible apply kept_askWake | with_reducible apply kept_restart
    | with_reducible apply kept_setClock | with_reducible apply kept_modTenant | with_reducible apply kept_latch | simp only [↓kept_mk]
    | with_reducible apply kept_ite | simp only [↓kept_mk, flash_of_latch, flash_of_modTenant, flash_of_setTenant]
    | (with_reducible refine kept_foldl _ _ ?_ ?_; rotate_left; (intro st x hst)) | split | dsimp only | intro _)

theorem kept_execRevertRetry {a s : State} (t : TSlot) (h : Kept a s) : KeptOut a (execRevertRetry t s) := by
  unfold execRevertRetry
  repeat' (first
    | with_reducible assumption | with_reducible apply keptOut_next | with_reducible apply keptOut_fault
    | with_reducible apply keptOut_refused | with_reducible apply kept_askRevert | with_reducible apply kept_setClock | simp only [↓kept_mk]
    | with_reducible apply kept_ite | simp only [↓kept_mk, flash_of_latch, flash_of_modTenant, flash_of_setTenant]
    | (with_reducible refine kept_foldl _ _ ?_ ?_; rotate_left; (intro st x hst)) | split | dsimp only | intro _)

theorem kept_execHandoverLap {a s : State} (h : Kept a s) : KeptOut a (execHandoverLap s) := by
  unfold execHandoverLap
  repeat' (first
    | with_reducible assumption | with_reducible apply keptOut_next | with_reducible apply keptOut_fault
    | with_reducible apply keptOut_refused | with_reducible apply kept_handoverLap | simp only [↓kept_mk] | with_reducible apply kept_ite
    | simp only [↓kept_mk, flash_of_latch, flash_of_modTenant, flash_of_setTenant] | split)

theorem kept_execHandoverSelfCheck {a s : State} (h : Kept a s) : KeptOut a (execHandoverSelfCheck s) := by
  unfold execHandoverSelfCheck
  repeat' (first
    | with_reducible assumption | with_reducible apply keptOut_next | with_reducible apply keptOut_fault
    | with_reducible apply keptOut_refused | with_reducible apply kept_record | with_reducible apply kept_setClock | simp only [↓kept_mk]
    | with_reducible apply kept_ite | simp only [↓kept_mk, flash_of_latch, flash_of_modTenant, flash_of_setTenant]
    | (with_reducible refine kept_foldl _ _ ?_ ?_; rotate_left; (intro st x hst)) | split | dsimp only | intro _)

theorem kept_execHandoverDeadline {a s : State} (h : Kept a s) : KeptOut a (execHandoverDeadline s) := by
  unfold execHandoverDeadline
  repeat' (first
    | with_reducible assumption | with_reducible apply keptOut_next | with_reducible apply keptOut_fault
    | with_reducible apply keptOut_refused | with_reducible apply kept_brownOut | with_reducible apply kept_setClock | simp only [↓kept_mk]
    | with_reducible apply kept_ite | simp only [↓kept_mk, flash_of_latch, flash_of_modTenant, flash_of_setTenant]
    | (with_reducible refine kept_foldl _ _ ?_ ?_; rotate_left; (intro st x hst)) | split | dsimp only | intro _)

theorem kept_execParcelExport {a s : State} (h : Kept a s) : KeptOut a (execParcelExport s) := by
  unfold execParcelExport
  repeat' (first
    | with_reducible assumption | with_reducible apply keptOut_next | with_reducible apply keptOut_fault
    | with_reducible apply keptOut_refused | with_reducible apply kept_exportOn | simp only [↓kept_mk] | with_reducible apply kept_ite
    | simp only [↓kept_mk, flash_of_latch, flash_of_modTenant, flash_of_setTenant] | split)

theorem kept_execParcelImport {a s : State} (h : Kept a s) : KeptOut a (execParcelImport s) := by
  unfold execParcelImport
  repeat' (first
    | with_reducible assumption | with_reducible apply keptOut_next | with_reducible apply keptOut_fault
    | with_reducible apply keptOut_refused | with_reducible apply kept_importOn | simp only [↓kept_mk] | with_reducible apply kept_ite
    | simp only [↓kept_mk, flash_of_latch, flash_of_modTenant, flash_of_setTenant] | split)

theorem kept_execParcelResultTimeout {a s : State} (h : Kept a s) : KeptOut a (execParcelResultTimeout s) := by
  unfold execParcelResultTimeout
  repeat' (first
    | with_reducible assumption | with_reducible apply keptOut_next | with_reducible apply keptOut_fault
    | with_reducible apply keptOut_refused | with_reducible apply kept_abortExportFree | with_reducible apply kept_setClock
    | simp only [↓kept_mk] | with_reducible apply kept_ite | simp only [↓kept_mk, flash_of_latch, flash_of_modTenant, flash_of_setTenant]
    | (with_reducible refine kept_foldl _ _ ?_ ?_; rotate_left; (intro st x hst)) | split | dsimp only | intro _)

end Sys2Proof.Laws
end

