-- ==== Sys2Proof/Laws/KeptLink.lean ====
section
/-! SUPPORT. One lemma per shared operation of these model files, in the relation of Kept.lean: LinkOps, LinkSend, LinkCmd, JoinCmd, LinkTenant, GroupCmd, CrossCmd, ParcelCmd, DebugCmd, Idle. -/
namespace Sys2Proof.Laws
open Sys2Proof.Machine Sys2Proof.Safety

theorem kept_modSession {a s : State} (p : Peer) (g : Session → Session) (h : Kept a s) : Kept a (State.modSession s p g) := by
  unfold State.modSession
  repeat' (first | with_reducible assumption | simp only [↓kept_mk])

theorem kept_putSession {a s : State} (x : Session) (h : Kept a s) : Kept a (State.putSession s x) := by
  unfold State.putSession
  repeat' (first | with_reducible assumption | simp only [↓kept_mk])

theorem kept_breakParcel {a s : State} (p : Peer) (h : Kept a s) : Kept a (State.breakParcel s p) := by
  unfold State.breakParcel
  repeat' (first
    | with_reducible assumption | with_reducible apply kept_abortExportFree | with_reducible apply kept_abortImport
    | with_reducible refine kept_freeReason_of (by assumption) ?_ | with_reducible apply kept_freeReason | simp only [↓kept_mk]
    | with_reducible apply kept_ite | simp only [↓kept_mk, flash_of_latch, flash_of_modTenant, flash_of_setTenant]
    | (with_reducible refine kept_foldl _ _ ?_ ?_; rotate_left; (intro st x hst)) | split | dsimp only | intro _)

theorem kept_endSession {a s : State} (p : Peer) (h : Kept a s) : Kept a (State.endSession s p) := by
  unfold State.endSession
  repeat' (first
    | with_reducible assumption | with_reducible apply kept_breakParcel | with_reducible apply kept_modTenant | simp only [↓kept_mk]
    | with_reducible apply kept_ite | simp only [↓kept_mk, flash_of_latch, flash_of_modTenant, flash_of_setTenant]
    | (with_reducible refine kept_foldl _ _ ?_ ?_; rotate_left; (intro st x hst)) | split)

theorem kept_countDrop {a s : State} (i : Fin 5) (h : Kept a s) : Kept a (State.countDrop s i) := by
  unfold State.countDrop
  repeat' (first
    | with_reducible assumption | with_reducible apply kept_recordLimited | simp only [↓kept_mk] | with_reducible apply kept_ite
    | simp only [↓kept_mk, flash_of_latch, flash_of_modTenant, flash_of_setTenant]
    | (with_reducible refine kept_foldl _ _ ?_ ?_; rotate_left; (intro st x hst)) | split | dsimp only | intro _)

theorem kept_receiveError {a s : State} (h : Kept a s) : Kept a (State.receiveError s) := by
  unfold State.receiveError
  repeat' (first
    | with_reducible assumption | with_reducible apply kept_latch | simp only [↓kept_mk] | with_reducible apply kept_ite
    | simp only [↓kept_mk, flash_of_latch, flash_of_modTenant, flash_of_setTenant]
    | (with_reducible refine kept_foldl _ _ ?_ ?_; rotate_left; (intro st x hst)) | split | dsimp only | intro _)

theorem kept_drop {a s : State} (i : Fin 5) (h : Kept a s) : Kept a (State.drop s i) := by
  unfold State.drop
  repeat' (first
    | with_reducible assumption | with_reducible apply kept_receiveError | with_reducible apply kept_countDrop | simp only [↓kept_mk]
    | with_reducible apply kept_ite | simp only [↓kept_mk, flash_of_latch, flash_of_modTenant, flash_of_setTenant]
    | (with_reducible refine kept_foldl _ _ ?_ ?_; rotate_left; (intro st x hst)) | split | dsimp only | intro _)

theorem kept_tellNotAdmitted {a s : State} (f : Frame) (h : Kept a s) : Kept a (State.tellNotAdmitted s f) := by
  unfold State.tellNotAdmitted
  repeat' (first | with_reducible assumption | with_reducible apply kept_sendRefuse | simp only [↓kept_mk] | with_reducible apply kept_ite)

theorem kept_acceptSealed {a s : State} (f : Frame) (h : Kept a s) : Kept a (State.acceptSealed s f) := by
  unfold State.acceptSealed
  repeat' (first | with_reducible assumption | with_reducible apply kept_modSession)

theorem kept_openSealed {a s : State} (f : Frame) (h : Kept a s) : Kept a (State.openSealed s f).1 := by
  unfold State.openSealed
  repeat' (first
    | with_reducible assumption | with_reducible apply kept_acceptSealed | with_reducible apply kept_tellNotAdmitted
    | with_reducible apply kept_drop | simp only [↓kept_mk] | with_reducible apply kept_ite
    | simp only [↓kept_mk, flash_of_latch, flash_of_modTenant, flash_of_setTenant] | split)
theorem kept_openSealed_of {a s nx : State} {f : Frame} {y} (e : (State.openSealed s f) = (nx, y)) (h : Kept a s) : Kept a nx := by
  have := kept_openSealed f h
  rwa [e] at this

theorem kept_openPlain {a s : State} (f : Frame) (h : Kept a s) : Kept a (State.openPlain s f).1 := by
  unfold State.openPlain
  repeat' (first
    | with_reducible assumption | with_reducible apply kept_tellNotAdmitted | with_reducible apply kept_drop | simp only [↓kept_mk]
    | with_reducible apply kept_ite | simp only [↓kept_mk, flash_of_latch, flash_of_modTenant, flash_of_setTenant] | split)
theorem kept_openPlain_of {a s nx : State} {f : Frame} {y} (e : (State.openPlain s f) = (nx, y)) (h : Kept a s) : Kept a nx := by
  have := kept_openPlain f h
  rwa [e] at this

theorem kept_checkFrame {a s : State} (f : Frame) (h : Kept a s) : Kept a (State.checkFrame s f).1 := by
  unfold State.checkFrame
  repeat' (first
    | with_reducible assumption | with_reducible refine kept_openPlain_of (by assumption) ?_ | with_reducible apply kept_openPlain
    | with_reducible refine kept_openSealed_of (by assumption) ?_ | with_reducible apply kept_openSealed | with_reducible apply kept_drop
    | simp only [↓kept_mk] | with_reducible apply kept_ite | simp only [↓kept_mk, flash_of_latch, flash_of_modTenant, flash_of_setTenant]
    | split)
theorem kept_checkFrame_of {a s nx : State} {f : Frame} {y} (e : (State.checkFrame s f) = (nx, y)) (h : Kept a s) : Kept a nx := by
  have := kept_checkFrame f h
  rwa [e] at this

theorem kept_lnkEdge {a s : State} (h : Kept a s) : Kept a (State.lnkEdge s) := by
  unfold State.lnkEdge
  repeat' (first | with_reducible assumption | with_reducible apply kept_askWake | simp only [↓kept_mk] | with_reducible apply kept_ite)

theorem kept_noteFrame {a s : State} (f : Frame) (h : Kept a s) : Kept a (State.noteFrame s f) := by
  unfold State.noteFrame
  repeat' (first | with_reducible assumption | with_reducible apply kept_latch | simp only [↓kept_mk] | with_reducible apply kept_ite)

theorem kept_hear {a s : State} (f : Frame) (check : State → State × Option Bytes) (h_check : ∀ st, Kept a st → Kept a (check st).1) (h : Kept a s) : Kept a (State.hear s f check).1 := by
  unfold State.hear
  repeat' (first
    | with_reducible assumption | with_reducible apply h_check | with_reducible apply kept_noteFrame | with_reducible apply kept_lnkEdge
    | with_reducible apply kept_countDrop | simp only [↓kept_mk] | with_reducible apply kept_ite
    | simp only [↓kept_mk, flash_of_latch, flash_of_modTenant, flash_of_setTenant] | split)
theorem kept_hear_of {a s nx : State} {f : Frame} {check : State → State × Option Bytes} {y} (e : (State.hear s f check) = (nx, y)) (h_check : ∀ st, Kept a st → Kept a (check st).1) (h : Kept a s) : Kept a nx := by
  have := kept_hear f check h_check h
  rwa [e] at this

theorem kept_receive {a s : State} (f : Frame) (h : Kept a s) : Kept a (State.receive s f).1 := by
  unfold State.receive
  repeat' (first
    | with_reducible assumption | with_reducible refine kept_hear_of (by assumption) ?_ | with_reducible apply kept_hear
    | with_reducible refine kept_checkFrame_of (by assumption) ?_ | with_reducible apply kept_checkFrame | simp only [↓kept_mk]
    | with_reducible apply kept_ite | simp only [↓kept_mk, flash_of_latch, flash_of_modTenant, flash_of_setTenant] | split | dsimp only
    | intro _)
theorem kept_receive_of {a s nx : State} {f : Frame} {y} (e : (State.receive s f) = (nx, y)) (h : Kept a s) : Kept a nx := by
  have := kept_receive f h
  rwa [e] at this

theorem kept_frame {a s : State} (f : Frame) (kind : ℕ) (fits : Bytes → Bool) (act : State → Bytes → State) (h_act : ∀ st y0, Kept a st → Kept a (act st y0)) (h : Kept a s) : Kept a (State.frame s f kind fits act) := by
  unfold State.frame
  repeat' (first
    | with_reducible assumption | with_reducible apply h_act | with_reducible refine kept_receive_of (by assumption) ?_
    | with_reducible apply kept_receive | simp only [↓kept_mk] | with_reducible apply kept_ite
    | simp only [↓kept_mk, flash_of_latch, flash_of_modTenant, flash_of_setTenant] | split)

theorem kept_refuseFrame {a s : State} (f : Frame) (reason : Byte) (addr : ℕ) (retry : ℕ) (h : Kept a s) : Kept a (State.refuseFrame s f reason addr retry) := by
  unfold State.refuseFrame
  repeat' (first | with_reducible assumption | with_reducible apply kept_sendRefuse)

theorem kept_waitFrame {a s : State} (f : Frame) (retry : ℕ) (h : Kept a s) : Kept a (State.waitFrame s f retry) := by
  unfold State.waitFrame
  repeat' (first | with_reducible assumption | with_reducible apply kept_send)

theorem kept_reach {a s : State} (b : ℕ) (h : Kept a s) : Kept a (State.reach s b) := by
  unfold State.reach
  repeat' (first
    | with_reducible assumption | with_reducible apply kept_askWake | with_reducible apply kept_setClock | simp only [↓kept_mk]
    | with_reducible apply kept_ite | simp only [↓kept_mk, flash_of_latch, flash_of_modTenant, flash_of_setTenant]
    | (with_reducible refine kept_foldl _ _ ?_ ?_; rotate_left; (intro st x hst)) | split | dsimp only | intro _)

theorem kept_modHeard {a s : State} (u' : Bytes) (g : HeardUnit → HeardUnit) (h : Kept a s) : Kept a (State.modHeard s u' g) := by
  unfold State.modHeard
  repeat' (first | with_reducible assumption | simp only [↓kept_mk])

theorem kept_signBeacon {a s : State} (h : Kept a s) : Kept a (State.signBeacon s) := by
  unfold State.signBeacon
  repeat' (first
    | with_reducible assumption | with_reducible refine kept_signHash_of (by assumption) ?_ | with_reducible apply kept_signHash
    | simp only [↓kept_mk] | with_reducible apply kept_ite | simp only [↓kept_mk, flash_of_latch, flash_of_modTenant, flash_of_setTenant]
    | (with_reducible refine kept_foldl _ _ ?_ ?_; rotate_left; (intro st x hst)) | split | dsimp only | intro _)

theorem kept_resignBeacon {a s : State} (h : Kept a s) : Kept a (State.resignBeacon s) := by
  unfold State.resignBeacon
  repeat' (first
    | with_reducible assumption | with_reducible apply kept_signBeacon | simp only [↓kept_mk] | with_reducible apply kept_ite
    | simp only [↓kept_mk, flash_of_latch, flash_of_modTenant, flash_of_setTenant]
    | (with_reducible refine kept_foldl _ _ ?_ ?_; rotate_left; (intro st x hst)) | split | dsimp only | intro _)

theorem kept_sendBeacon {a s : State} (h : Kept a s) : Kept a (State.sendBeacon s) := by
  unfold State.sendBeacon
  repeat' (first
    | with_reducible assumption | with_reducible apply kept_resignBeacon | with_reducible apply kept_send | simp only [↓kept_mk]
    | with_reducible apply kept_ite | simp only [↓kept_mk, flash_of_latch, flash_of_modTenant, flash_of_setTenant]
    | (with_reducible refine kept_foldl _ _ ?_ ?_; rotate_left; (intro st x hst)) | split | dsimp only | intro _)

theorem kept_askBeacon {a s : State} (u' : Bytes) (h : Kept a s) : Kept a (State.askBeacon s u') := by
  unfold State.askBeacon
  repeat' (first | with_reducible assumption | with_reducible apply kept_send)

theorem kept_firstContact {a s : State} (h : Kept a s) : Kept a (State.firstContact s) := by
  unfold State.firstContact
  repeat' (first
    | with_reducible assumption | with_reducible apply kept_send | simp only [↓kept_mk] | with_reducible apply kept_ite
    | simp only [↓kept_mk, flash_of_latch, flash_of_modTenant, flash_of_setTenant]
    | (with_reducible refine kept_foldl _ _ ?_ ?_; rotate_left; (intro st x hst)) | split | dsimp only | intro _)

theorem kept_answerAsLead {a s : State} (h : Kept a s) : Kept a (State.answerAsLead s) := by
  unfold State.answerAsLead
  repeat' (first | with_reducible assumption | with_reducible apply kept_sendBeacon)

theorem kept_noteCurve {a s : State} (r : CryptoResult) (h : Kept a s) : Kept a (State.noteCurve s r) := by
  unfold State.noteCurve
  repeat' (first | with_reducible assumption | with_reducible apply kept_latchIf)

theorem kept_joinUnit {a s : State} (h' : HeardUnit) (h : Kept a s) : Kept a (State.joinUnit s h') := by
  unfold State.joinUnit
  repeat' (first
    | with_reducible assumption | with_reducible apply kept_noteCurve | with_reducible apply kept_ask
    | with_reducible refine kept_random_of (by assumption) ?_ | with_reducible apply kept_random | simp only [↓kept_mk]
    | with_reducible apply kept_ite)

theorem kept_joinLead {a s : State} (u' : Bytes) (h : Kept a s) : Kept a (State.joinLead s u') := by
  unfold State.joinLead
  repeat' (first
    | with_reducible assumption | with_reducible apply kept_joinUnit | simp only [↓kept_mk] | with_reducible apply kept_ite
    | simp only [↓kept_mk, flash_of_latch, flash_of_modTenant, flash_of_setTenant] | split)

theorem kept_recordLinkOpen {a s : State} (h : Kept a s) : Kept a (State.recordLinkOpen s) := by
  unfold State.recordLinkOpen
  repeat' (first | with_reducible assumption | with_reducible apply kept_record | simp only [↓kept_mk] | with_reducible apply kept_ite)

theorem kept_execLinkOpen {a s : State} (h : Kept a s) : KeptOut a (execLinkOpen s) := by
  unfold execLinkOpen
  repeat' (first
    | with_reducible assumption | with_reducible apply keptOut_next | with_reducible apply keptOut_fault
    | with_reducible apply keptOut_refused | with_reducible apply kept_signBeacon | with_reducible apply kept_setClock
    | with_reducible apply kept_putKey | with_reducible refine kept_random_of (by assumption) ?_ | with_reducible apply kept_random
    | simp only [↓kept_mk] | with_reducible apply kept_ite | simp only [↓kept_mk, flash_of_latch, flash_of_modTenant, flash_of_setTenant]
    | (with_reducible refine kept_foldl _ _ ?_ ?_; rotate_left; (intro st x hst)) | split | dsimp only | intro _)

theorem kept_openCold {a s : State} (b : ℕ) (h : Kept a s) : Kept a (State.openCold s b) := by
  unfold State.openCold
  repeat' (first | with_reducible assumption | simp only [↓kept_mk])

theorem kept_execFirstBeacon {a s : State} (h : Kept a s) : KeptOut a (execFirstBeacon s) := by
  unfold execFirstBeacon
  repeat' (first
    | with_reducible assumption | with_reducible apply keptOut_next | with_reducible apply keptOut_fault
    | with_reducible apply keptOut_refused | with_reducible apply kept_openCold | with_reducible apply kept_joinUnit
    | with_reducible apply kept_firstContact | with_reducible apply kept_sendBeacon | with_reducible apply kept_setClock
    | simp only [↓kept_mk] | with_reducible apply kept_ite | simp only [↓kept_mk, flash_of_latch, flash_of_modTenant, flash_of_setTenant]
    | (with_reducible refine kept_foldl _ _ ?_ ?_; rotate_left; (intro st x hst)) | split | dsimp only | intro _)

theorem kept_execBeaconPeriod {a s : State} (h : Kept a s) : KeptOut a (execBeaconPeriod s) := by
  unfold execBeaconPeriod
  repeat' (first
    | with_reducible assumption | with_reducible apply keptOut_next | with_reducible apply keptOut_fault
    | with_reducible apply keptOut_refused | with_reducible apply kept_firstContact | with_reducible apply kept_sendBeacon
    | with_reducible apply kept_reach | simp only [↓kept_mk] | with_reducible apply kept_ite
    | simp only [↓kept_mk, flash_of_latch, flash_of_modTenant, flash_of_setTenant]
    | (with_reducible refine kept_foldl _ _ ?_ ?_; rotate_left; (intro st x hst)) | split | dsimp only | intro _)

theorem kept_execLinkOpenRecordDeadline {a s : State} (h : Kept a s) : KeptOut a (execLinkOpenRecordDeadline s) := by
  unfold execLinkOpenRecordDeadline
  repeat' (first
    | with_reducible assumption | with_reducible apply keptOut_next | with_reducible apply keptOut_fault
    | with_reducible apply keptOut_refused | with_reducible apply kept_recordLinkOpen | with_reducible apply kept_setClock
    | simp only [↓kept_mk] | with_reducible apply kept_ite | simp only [↓kept_mk, flash_of_latch, flash_of_modTenant, flash_of_setTenant]
    | (with_reducible refine kept_foldl _ _ ?_ ?_; rotate_left; (intro st x hst)) | split | dsimp only | intro _)

theorem kept_setOutbox {a s : State} (q : List OutFrame) (h : Kept a s) : Kept a (State.setOutbox s q) := by
  unfold State.setOutbox
  repeat' (first | with_reducible assumption | simp only [↓kept_mk])

theorem kept_useCounter {a s : State} (o : OutFrame) (x : Option Session) (n : ℕ) (h : Kept a s) : Kept a (State.useCounter s o x n) := by
  unfold State.useCounter
  repeat' (first
    | with_reducible assumption | with_reducible apply kept_modSession | simp only [↓kept_mk] | with_reducible apply kept_ite
    | simp only [↓kept_mk, flash_of_latch, flash_of_modTenant, flash_of_setTenant] | split)

theorem kept_noteSent {a s : State} (o : OutFrame) (f : Frame) (h : Kept a s) : Kept a (State.noteSent s o f) := by
  unfold State.noteSent
  repeat' (first
    | with_reducible assumption | with_reducible apply kept_latch | simp only [↓kept_mk] | with_reducible apply kept_ite
    | simp only [↓kept_mk, flash_of_latch, flash_of_modTenant, flash_of_setTenant]
    | (with_reducible refine kept_foldl _ _ ?_ ?_; rotate_left; (intro st x hst)) | split | dsimp only | intro _)

theorem kept_frameOut {a s : State} (o : OutFrame) (x : Option Session) (n : ℕ) (h : Kept a s) : Kept a (State.frameOut s o x n) := by
  unfold State.frameOut
  repeat' (first
    | with_reducible assumption | with_reducible apply kept_noteSent | with_reducible apply kept_useCounter
    | with_reducible apply kept_endSession | simp only [↓kept_mk] | with_reducible apply kept_ite
    | simp only [↓kept_mk, flash_of_latch, flash_of_modTenant, flash_of_setTenant]
    | (with_reducible refine kept_foldl _ _ ?_ ?_; rotate_left; (intro st x hst)) | split | dsimp only | intro _)

theorem kept_counterSpent {a s : State} (y' : Session) (h : Kept a s) : Kept a (State.counterSpent s y') := by
  unfold State.counterSpent
  repeat' (first
    | with_reducible assumption | with_reducible apply kept_noteSent | with_reducible apply kept_endSession
    | with_reducible refine kept_freeBytes_of (by assumption) ?_ | with_reducible apply kept_freeBytes | simp only [↓kept_mk]
    | with_reducible apply kept_ite | simp only [↓kept_mk, flash_of_latch, flash_of_modTenant, flash_of_setTenant]
    | (with_reducible refine kept_foldl _ _ ?_ ?_; rotate_left; (intro st x hst)) | split | dsimp only | intro _)

theorem kept_frameFailed {a s : State} (o : OutFrame) (rest : List OutFrame) (h : Kept a s) : Kept a (State.frameFailed s o rest) := by
  unfold State.frameFailed
  repeat' (first
    | with_reducible assumption | with_reducible apply kept_setOutbox | with_reducible apply kept_latch | simp only [↓kept_mk]
    | with_reducible apply kept_ite)

theorem kept_transmit {a s : State} (o : OutFrame) (rest : List OutFrame) (outcome : TxOutcome) (h : Kept a s) : Kept a (State.transmit s o rest outcome) := by
  unfold State.transmit
  repeat' (first
    | with_reducible assumption | with_reducible apply kept_frameFailed | with_reducible apply kept_counterSpent
    | with_reducible apply kept_frameOut | with_reducible apply kept_useCounter | with_reducible apply kept_setOutbox
    | with_reducible apply kept_latch | simp only [↓kept_mk] | with_reducible apply kept_ite
    | simp only [↓kept_mk, flash_of_latch, flash_of_modTenant, flash_of_setTenant] | split)

theorem kept_execFrameTransmit {a s : State} (outcome : TxOutcome) (h : Kept a s) : KeptOut a (execFrameTransmit outcome s) := by
  unfold execFrameTransmit
  repeat' (first
    | with_reducible assumption | with_reducible apply keptOut_next | with_reducible apply keptOut_fault
    | with_reducible apply keptOut_refused | with_reducible apply kept_transmit | with_reducible apply kept_setOutbox
    | with_reducible apply kept_toStart | simp only [↓kept_mk] | with_reducible apply kept_ite
    | simp only [↓kept_mk, flash_of_latch, flash_of_modTenant, flash_of_setTenant]
    | (with_reducible refine kept_foldl _ _ ?_ ?_; rotate_left; (intro st x hst)) | split | dsimp only | intro _)

theorem kept_execLinkReceiveError {a s : State} (h : Kept a s) : KeptOut a (execLinkReceiveError s) := by
  unfold execLinkReceiveError
  repeat' (first
    | with_reducible assumption | with_reducible apply keptOut_next | with_reducible apply keptOut_fault
    | with_reducible apply keptOut_refused | with_reducible apply kept_lnkEdge | with_reducible apply kept_drop | simp only [↓kept_mk]
    | with_reducible apply kept_ite | simp only [↓kept_mk, flash_of_latch, flash_of_modTenant, flash_of_setTenant]
    | (with_reducible refine kept_foldl _ _ ?_ ?_; rotate_left; (intro st x hst)) | split | dsimp only | intro _)

theorem kept_execBusIdle {a s : State} (h : Kept a s) : KeptOut a (execBusIdle s) := by
  unfold execBusIdle
  repeat' (first
    | with_reducible assumption | with_reducible apply keptOut_next | with_reducible apply keptOut_fault
    | with_reducible apply keptOut_refused | with_reducible apply kept_latch | simp only [↓kept_mk] | with_reducible apply kept_ite)

theorem kept_setRequest {a s : State} (r : Option OutRequest) (h : Kept a s) : Kept a (State.setRequest s r) := by
  unfold State.setRequest
  repeat' (first | with_reducible assumption | simp only [↓kept_mk])

theorem kept_requestRefused {a s : State} (r : OutRequest) (reason : Byte) (h : Kept a s) : Kept a (State.requestRefused s r reason) := by
  unfold State.requestRefused
  repeat' (first
    | with_reducible assumption | with_reducible apply kept_setRequest | with_reducible apply kept_abortExport | simp only [↓kept_mk]
    | with_reducible apply kept_ite)

theorem kept_execWaitFrame {a s : State} (f : Frame) (h : Kept a s) : KeptOut a (execWaitFrame f s) := by
  unfold execWaitFrame
  repeat' (first
    | with_reducible assumption | with_reducible apply keptOut_next | with_reducible apply keptOut_fault
    | with_reducible apply keptOut_refused | with_reducible apply kept_setRequest | with_reducible apply kept_frame | simp only [↓kept_mk]
    | with_reducible apply kept_ite | simp only [↓kept_mk, flash_of_latch, flash_of_modTenant, flash_of_setTenant] | split | dsimp only
    | intro _)

theorem kept_execRefuseFrame {a s : State} (f : Frame) (h : Kept a s) : KeptOut a (execRefuseFrame f s) := by
  unfold execRefuseFrame
  repeat' (first
    | with_reducible assumption | with_reducible apply keptOut_next | with_reducible apply keptOut_fault
    | with_reducible apply keptOut_refused | with_reducible apply kept_requestRefused | with_reducible apply kept_setRequest
    | with_reducible apply kept_frame | simp only [↓kept_mk] | with_reducible apply kept_ite
    | simp only [↓kept_mk, flash_of_latch, flash_of_modTenant, flash_of_setTenant] | split | dsimp only | intro _)

theorem kept_repeatRequest {a s : State} (r : OutRequest) (n : ℕ) (h : Kept a s) : Kept a (State.repeatRequest s r n) := by
  unfold State.repeatRequest
  repeat' (first | with_reducible assumption | with_reducible apply kept_setRequest | with_reducible apply kept_send)

theorem kept_afterReply {a s : State} (sent : ℕ × ℕ) (h : Kept a s) : Kept a (State.afterReply s sent) := by
  unfold State.afterReply
  repeat' (first
    | with_reducible assumption | with_reducible apply kept_reach | with_reducible apply kept_setClock | simp only [↓kept_mk]
    | with_reducible apply kept_ite | simp only [↓kept_mk, flash_of_latch, flash_of_modTenant, flash_of_setTenant]
    | (with_reducible refine kept_foldl _ _ ?_ ?_; rotate_left; (intro st x hst)) | split | dsimp only | intro _)

theorem kept_repeatOrGiveUp {a s : State} (r : OutRequest) (h : Kept a s) : Kept a (State.repeatOrGiveUp s r) := by
  unfold State.repeatOrGiveUp
  repeat' (first
    | with_reducible assumption | with_reducible apply kept_repeatRequest | with_reducible apply kept_setRequest
    | with_reducible apply kept_abortExportFree | simp only [↓kept_mk] | with_reducible apply kept_ite
    | simp only [↓kept_mk, flash_of_latch, flash_of_modTenant, flash_of_setTenant]
    | (with_reducible refine kept_foldl _ _ ?_ ?_; rotate_left; (intro st x hst)) | split | dsimp only | intro _)

theorem kept_execRequestRepeatTimeout {a s : State} (h : Kept a s) : KeptOut a (execRequestRepeatTimeout s) := by
  unfold execRequestRepeatTimeout
  repeat' (first
    | with_reducible assumption | with_reducible apply keptOut_next | with_reducible apply keptOut_fault
    | with_reducible apply keptOut_refused | with_reducible apply kept_repeatOrGiveUp | with_reducible apply kept_afterReply
    | simp only [↓kept_mk] | with_reducible apply kept_ite | simp only [↓kept_mk, flash_of_latch, flash_of_modTenant, flash_of_setTenant]
    | (with_reducible refine kept_foldl _ _ ?_ ?_; rotate_left; (intro st x hst)) | split | dsimp only | intro _)

theorem kept_execRetryAfterExpiry {a s : State} (h : Kept a s) : KeptOut a (execRetryAfterExpiry s) := by
  unfold execRetryAfterExpiry
  repeat' (first
    | with_reducible assumption | with_reducible apply keptOut_next | with_reducible apply keptOut_fault
    | with_reducible apply keptOut_refused | with_reducible apply kept_repeatRequest | with_reducible apply kept_reach
    | simp only [↓kept_mk] | with_reducible apply kept_ite | simp only [↓kept_mk, flash_of_latch, flash_of_modTenant, flash_of_setTenant]
    | split)

theorem kept_execBeaconRequest {a s : State} (f : Frame) (h : Kept a s) : KeptOut a (execBeaconRequest f s) := by
  unfold execBeaconRequest
  repeat' (first
    | with_reducible assumption | with_reducible apply keptOut_next | with_reducible apply keptOut_fault
    | with_reducible apply keptOut_refused | with_reducible apply kept_sendBeacon | with_reducible apply kept_frame
    | with_reducible apply kept_latch | simp only [↓kept_mk] | with_reducible apply kept_ite
    | simp only [↓kept_mk, flash_of_latch, flash_of_modTenant, flash_of_setTenant] | split | dsimp only | intro _)

theorem kept_execNoticeFrame {a s : State} (f : Frame) (h : Kept a s) : KeptOut a (execNoticeFrame f s) := by
  unfold execNoticeFrame
  repeat' (first
    | with_reducible assumption | with_reducible apply keptOut_next | with_reducible apply keptOut_fault
    | with_reducible apply keptOut_refused | with_reducible apply kept_refuseFrame | with_reducible apply kept_frame
    | simp only [↓kept_mk] | with_reducible apply kept_ite | simp only [↓kept_mk, flash_of_latch, flash_of_modTenant, flash_of_setTenant]
    | split | dsimp only | intro _)

theorem kept_execDataFrame {a s : State} (f : Frame) (h : Kept a s) : KeptOut a (execDataFrame f s) := by
  unfold execDataFrame
  repeat' (first
    | with_reducible assumption | with_reducible apply keptOut_next | with_reducible apply keptOut_fault
    | with_reducible apply keptOut_refused | with_reducible apply kept_frame | simp only [↓kept_mk] | with_reducible apply kept_ite
    | simp only [↓kept_mk, flash_of_latch, flash_of_modTenant, flash_of_setTenant] | split | dsimp only | intro _)

theorem kept_takeJoin {a s : State} (f : Frame) (p : Bytes) (h : Kept a s) : Kept a (State.takeJoin s f p) := by
  unfold State.takeJoin
  repeat' (first
    | with_reducible assumption | with_reducible apply kept_waitFrame | with_reducible apply kept_refuseFrame
    | with_reducible apply kept_latch | simp only [↓kept_mk] | with_reducible apply kept_ite
    | simp only [↓kept_mk, flash_of_latch, flash_of_modTenant, flash_of_setTenant] | split)

theorem kept_execJoin {a s : State} (f : Frame) (h : Kept a s) : KeptOut a (execJoin f s) := by
  unfold execJoin
  repeat' (first
    | with_reducible assumption | with_reducible apply keptOut_next | with_reducible apply keptOut_fault
    | with_reducible apply keptOut_refused | with_reducible apply kept_takeJoin | with_reducible apply kept_frame | simp only [↓kept_mk]
    | with_reducible apply kept_ite | simp only [↓kept_mk, flash_of_latch, flash_of_modTenant, flash_of_setTenant] | split | dsimp only
    | intro _)

theorem kept_admitJoin {a s : State} (j : PendingJoin) (keys : Bytes) (h : Kept a s) : Kept a (State.admitJoin s j keys) := by
  unfold State.admitJoin
  repeat' (first
    | with_reducible assumption | with_reducible apply kept_endSession | with_reducible apply kept_putSession
    | with_reducible apply kept_send | with_reducible refine kept_random_of (by assumption) ?_ | with_reducible apply kept_random
    | simp only [↓kept_mk] | with_reducible apply kept_ite | simp only [↓kept_mk, flash_of_latch, flash_of_modTenant, flash_of_setTenant]
    | (with_reducible refine kept_foldl _ _ ?_ ?_; rotate_left; (intro st x hst)) | split | dsimp only | intro _)

theorem kept_decideJoin {a s : State} (j : PendingJoin) (h : Kept a s) : Kept a (State.decideJoin s j) := by
  unfold State.decideJoin
  repeat' (first
    | with_reducible assumption | with_reducible apply kept_admitJoin | with_reducible apply kept_noteCurve
    | with_reducible apply kept_sendRefuse | with_reducible apply kept_latch | simp only [↓kept_mk] | with_reducible apply kept_ite
    | simp only [↓kept_mk, flash_of_latch, flash_of_modTenant, flash_of_setTenant]
    | (with_reducible refine kept_foldl _ _ ?_ ?_; rotate_left; (intro st x hst)) | split | dsimp only | intro _)

theorem kept_execJoinAdmit {a s : State} (h : Kept a s) : KeptOut a (execJoinAdmit s) := by
  unfold execJoinAdmit
  repeat' (first
    | with_reducible assumption | with_reducible apply keptOut_next | with_reducible apply keptOut_fault
    | with_reducible apply keptOut_refused | with_reducible apply kept_decideJoin | with_reducible apply kept_reach | simp only [↓kept_mk]
    | with_reducible apply kept_ite | simp only [↓kept_mk, flash_of_latch, flash_of_modTenant, flash_of_setTenant] | split)

theorem kept_joined {a s : State} (x : Session) (h' : HeardUnit) (h : Kept a s) : Kept a (State.joined s x h') := by
  unfold State.joined
  repeat' (first
    | with_reducible assumption | with_reducible apply kept_setRequest | with_reducible apply kept_recordLinkOpen
    | with_reducible apply kept_putSession | simp only [↓kept_mk])

theorem kept_checkAdmit {a s : State} (f : Frame) (ident : Word32) (h : Kept a s) : Kept a (State.checkAdmit s f ident) := by
  unfold State.checkAdmit
  repeat' (first
    | with_reducible assumption | with_reducible apply kept_joined | with_reducible refine kept_checkFrame_of (by assumption) ?_
    | with_reducible apply kept_checkFrame | with_reducible apply kept_drop | simp only [↓kept_mk] | with_reducible apply kept_ite
    | simp only [↓kept_mk, flash_of_latch, flash_of_modTenant, flash_of_setTenant] | split)

theorem kept_execAdmitFrame {a s : State} (f : Frame) (session : Word32) (h : Kept a s) : KeptOut a (execAdmitFrame f session s) := by
  unfold execAdmitFrame
  repeat' (first
    | with_reducible assumption | with_reducible apply keptOut_next | with_reducible apply keptOut_fault
    | with_reducible apply keptOut_refused | with_reducible apply kept_checkAdmit | with_reducible refine kept_hear_of (by assumption) ?_
    | with_reducible apply kept_hear | simp only [↓kept_mk] | with_reducible apply kept_ite
    | simp only [↓kept_mk, flash_of_latch, flash_of_modTenant, flash_of_setTenant] | split | dsimp only | intro _)

theorem kept_noteClient {a s : State} (f : Frame) (h : Kept a s) : Kept a (State.noteClient s f) := by
  unfold State.noteClient
  repeat' (first
    | with_reducible assumption | with_reducible apply kept_latch | simp only [↓kept_mk] | with_reducible apply kept_ite
    | simp only [↓kept_mk, flash_of_latch, flash_of_modTenant, flash_of_setTenant] | split)

theorem kept_serveClient {a s : State} (f : Frame) (addr : ℕ) (serve : State → TSlot → TenantDecl → State) (h_serve : ∀ st y0 y1, Kept a st → Kept a (serve st y0 y1)) (h : Kept a s) : Kept a (State.serveClient s f addr serve) := by
  unfold State.serveClient
  repeat' (first
    | with_reducible assumption | with_reducible apply h_serve | with_reducible apply kept_noteClient
    | with_reducible apply kept_refuseFrame | simp only [↓kept_mk] | with_reducible apply kept_ite
    | simp only [↓kept_mk, flash_of_latch, flash_of_modTenant, flash_of_setTenant] | split)

theorem kept_refuseClient {a s : State} (t : TSlot) (f : Frame) (reason : Byte) (addr : ℕ) (attempt : ℕ) (h : Kept a s) : Kept a (State.refuseClient s t f reason addr attempt) := by
  unfold State.refuseClient
  repeat' (first
    | with_reducible assumption | with_reducible apply kept_keepRequest | with_reducible apply kept_refuseFrame
    | with_reducible apply kept_refuse)

theorem kept_readClient {a s : State} (t : TSlot) (d : TenantDecl) (f : Frame) (addr : ℕ) (n : ℕ) (h : Kept a s) : Kept a (State.readClient s t d f addr n) := by
  unfold State.readClient
  repeat' (first
    | with_reducible assumption | with_reducible apply kept_refuseClient | with_reducible apply kept_waitFrame
    | with_reducible apply kept_refuseFrame | with_reducible apply kept_report | with_reducible apply kept_replyData
    | with_reducible apply kept_keepRequest | with_reducible apply kept_modTenant | simp only [↓kept_mk] | with_reducible apply kept_ite
    | simp only [↓kept_mk, flash_of_latch, flash_of_modTenant, flash_of_setTenant]
    | (with_reducible refine kept_foldl _ _ ?_ ?_; rotate_left; (intro st x hst)) | split | dsimp only | intro _)

theorem kept_execReadFrame {a s : State} (f : Frame) (h : Kept a s) : KeptOut a (execReadFrame f s) := by
  unfold execReadFrame
  repeat' (first
    | with_reducible assumption | with_reducible apply keptOut_next | with_reducible apply keptOut_fault
    | with_reducible apply keptOut_refused | with_reducible apply kept_readClient | with_reducible apply kept_serveClient
    | with_reducible apply kept_frame | simp only [↓kept_mk] | with_reducible apply kept_ite
    | simp only [↓kept_mk, flash_of_latch, flash_of_modTenant, flash_of_setTenant] | split | dsimp only | intro _)

theorem kept_writePage {a s : State} (t : TSlot) (d : TenantDecl) (f : Frame) (addr : ℕ) (data : Bytes) (h : Kept a s) : Kept a (State.writePage s t d f addr data) := by
  unfold State.writePage
  repeat' (first
    | with_reducible assumption | with_reducible apply kept_report | with_reducible apply kept_keepRequest | simp only [↓kept_mk]
    | with_reducible apply kept_ite | simp only [↓kept_mk, flash_of_latch, flash_of_modTenant, flash_of_setTenant]
    | (with_reducible refine kept_foldl _ _ ?_ ?_; rotate_left; (intro st x hst)) | split | dsimp only | intro _)

theorem kept_queueWrite {a s : State} (t : TSlot) (d : TenantDecl) (f : Frame) (op : WriteOp) (h : Kept a s) : Kept a (State.queueWrite s t d f op) := by
  unfold State.queueWrite
  repeat' (first
    | with_reducible assumption | with_reducible apply kept_waitFrame | with_reducible apply kept_keepRequest
    | with_reducible apply kept_setTenant | with_reducible apply kept_latch | simp only [↓kept_mk] | with_reducible apply kept_ite
    | simp only [↓kept_mk, flash_of_latch, flash_of_modTenant, flash_of_setTenant]
    | (with_reducible refine kept_foldl _ _ ?_ ?_; rotate_left; (intro st x hst)) | split | dsimp only | intro _)

theorem kept_writeClient {a s : State} (t : TSlot) (d : TenantDecl) (f : Frame) (op : WriteOp) (h : Kept a s) : Kept a (State.writeClient s t d f op) := by
  unfold State.writeClient
  repeat' (first
    | with_reducible assumption | with_reducible apply kept_queueWrite | with_reducible apply kept_writePage
    | with_reducible apply kept_refuseClient | with_reducible apply kept_waitFrame | with_reducible apply kept_refuseFrame
    | with_reducible apply kept_send | simp only [↓kept_mk] | with_reducible apply kept_ite
    | simp only [↓kept_mk, flash_of_latch, flash_of_modTenant, flash_of_setTenant] | split)

theorem kept_writeFrame {a s : State} (f : Frame) (code : Byte) (op : Bytes → WriteOp) (h : Kept a s) : Kept a (State.writeFrame s f code op) := by
  unfold State.writeFrame
  repeat' (first
    | with_reducible assumption | with_reducible apply kept_writeClient | with_reducible apply kept_serveClient
    | with_reducible apply kept_frame | simp only [↓kept_mk] | with_reducible apply kept_ite
    | simp only [↓kept_mk, flash_of_latch, flash_of_modTenant, flash_of_setTenant] | split | dsimp only | intro _)

theorem kept_execWriteProgram {a s : State} (f : Frame) (h : Kept a s) : KeptOut a (execWriteProgram f s) := by
  unfold execWriteProgram
  repeat' (first
    | with_reducible assumption | with_reducible apply keptOut_next | with_reducible apply keptOut_fault
    | with_reducible apply keptOut_refused | with_reducible apply kept_writeFrame)

theorem kept_execWriteErase4k {a s : State} (f : Frame) (h : Kept a s) : KeptOut a (execWriteErase4k f s) := by
  unfold execWriteErase4k
  repeat' (first
    | with_reducible assumption | with_reducible apply keptOut_next | with_reducible apply keptOut_fault
    | with_reducible apply keptOut_refused | with_reducible apply kept_writeFrame)

theorem kept_execWriteErase64k {a s : State} (f : Frame) (h : Kept a s) : KeptOut a (execWriteErase64k f s) := by
  unfold execWriteErase64k
  repeat' (first
    | with_reducible assumption | with_reducible apply keptOut_next | with_reducible apply keptOut_fault
    | with_reducible apply keptOut_refused | with_reducible apply kept_writeFrame)

theorem kept_statementForUnit {a s : State} (f : Frame) (u' : Bytes) (nonce : Bytes) (h : Kept a s) : Kept a (State.statementForUnit s f u' nonce) := by
  unfold State.statementForUnit
  repeat' (first
    | with_reducible assumption | with_reducible apply kept_waitFrame | with_reducible apply kept_refuseFrame
    | with_reducible refine kept_askStatement_of (by assumption) ?_ | with_reducible apply kept_askStatement | simp only [↓kept_mk]
    | with_reducible apply kept_ite)

theorem kept_statementForClient {a s : State} (t : TSlot) (f : Frame) (nonce : Bytes) (h : Kept a s) : Kept a (State.statementForClient s t f nonce) := by
  unfold State.statementForClient
  repeat' (first
    | with_reducible assumption | with_reducible apply kept_refuseClient | with_reducible apply kept_waitFrame
    | with_reducible apply kept_refuseFrame | with_reducible apply kept_report | with_reducible apply kept_keepRequest
    | simp only [↓kept_mk] | with_reducible apply kept_ite | simp only [↓kept_mk, flash_of_latch, flash_of_modTenant, flash_of_setTenant]
    | (with_reducible refine kept_foldl _ _ ?_ ?_; rotate_left; (intro st x hst)) | split | dsimp only | intro _)

theorem kept_execStatementRequest {a s : State} (f : Frame) (h : Kept a s) : KeptOut a (execStatementRequest f s) := by
  unfold execStatementRequest
  repeat' (first
    | with_reducible assumption | with_reducible apply keptOut_next | with_reducible apply keptOut_fault
    | with_reducible apply keptOut_refused | with_reducible apply kept_statementForClient | with_reducible apply kept_statementForUnit
    | with_reducible apply kept_serveClient | with_reducible apply kept_frame | simp only [↓kept_mk] | with_reducible apply kept_ite
    | simp only [↓kept_mk, flash_of_latch, flash_of_modTenant, flash_of_setTenant] | split | dsimp only | intro _)

theorem kept_execStatementFragment {a s : State} (f : Frame) (h : Kept a s) : KeptOut a (execStatementFragment f s) := by
  unfold execStatementFragment
  repeat' (first
    | with_reducible assumption | with_reducible apply keptOut_next | with_reducible apply keptOut_fault
    | with_reducible apply keptOut_refused | with_reducible apply kept_noteClient | with_reducible apply kept_frame | simp only [↓kept_mk]
    | with_reducible apply kept_ite | simp only [↓kept_mk, flash_of_latch, flash_of_modTenant, flash_of_setTenant] | split | dsimp only
    | intro _)

theorem kept_fragmentAcked {a s : State} (r : OutRequest) (h : Kept a s) : Kept a (State.fragmentAcked s r) := by
  unfold State.fragmentAcked
  repeat' (first
    | with_reducible assumption | with_reducible apply kept_setRequest | with_reducible apply kept_sendFragment | simp only [↓kept_mk]
    | with_reducible apply kept_ite | simp only [↓kept_mk, flash_of_latch, flash_of_modTenant, flash_of_setTenant] | split)

theorem kept_execAckFrame {a s : State} (f : Frame) (h : Kept a s) : KeptOut a (execAckFrame f s) := by
  unfold execAckFrame
  repeat' (first
    | with_reducible assumption | with_reducible apply keptOut_next | with_reducible apply keptOut_fault
    | with_reducible apply keptOut_refused | with_reducible apply kept_fragmentAcked | with_reducible apply kept_refuseClient
    | with_reducible apply kept_noteClient | with_reducible apply kept_frame | with_reducible apply kept_modTenant | simp only [↓kept_mk]
    | with_reducible apply kept_ite | simp only [↓kept_mk, flash_of_latch, flash_of_modTenant, flash_of_setTenant]
    | (with_reducible refine kept_foldl _ _ ?_ ?_; rotate_left; (intro st x hst)) | split | dsimp only | intro _)

theorem kept_execNoticeRepeat {a s : State} (t : TSlot) (h : Kept a s) : KeptOut a (execNoticeRepeat t s) := by
  unfold execNoticeRepeat
  repeat' (first
    | with_reducible assumption | with_reducible apply keptOut_next | with_reducible apply keptOut_fault
    | with_reducible apply keptOut_refused | with_reducible apply kept_reach | with_reducible apply kept_queueNotice
    | with_reducible apply kept_modTenant | with_reducible apply kept_latch | simp only [↓kept_mk] | with_reducible apply kept_ite
    | simp only [↓kept_mk, flash_of_latch, flash_of_modTenant, flash_of_setTenant]
    | (with_reducible refine kept_foldl _ _ ?_ ?_; rotate_left; (intro st x hst)) | split | dsimp only | intro _)

theorem kept_forgetRequest {a s : State} (u' : Bytes) (h : Kept a s) : Kept a (State.forgetRequest s u') := by
  unfold State.forgetRequest
  repeat' (first
    | with_reducible assumption | with_reducible apply kept_setRequest | simp only [↓kept_mk] | with_reducible apply kept_ite
    | simp only [↓kept_mk, flash_of_latch, flash_of_modTenant, flash_of_setTenant] | split)

theorem kept_loseLead {a s : State} (l : Bytes) (cause : Byte) (window : Bool) (h : Kept a s) : Kept a (State.loseLead s l cause window) := by
  unfold State.loseLead
  repeat' (first
    | with_reducible assumption | with_reducible apply kept_forgetRequest | with_reducible apply kept_openCold
    | with_reducible apply kept_endSession | with_reducible apply kept_record | simp only [↓kept_mk] | with_reducible apply kept_ite)

theorem kept_loseMember {a s : State} (u' : Bytes) (cause : Byte) (h : Kept a s) : Kept a (State.loseMember s u' cause) := by
  unfold State.loseMember
  repeat' (first
    | with_reducible assumption | with_reducible apply kept_endSession | with_reducible apply kept_record | simp only [↓kept_mk])

theorem kept_hearUnit {a s : State} (h' : HeardUnit) (h : Kept a s) : Kept a (State.hearUnit s h') := by
  unfold State.hearUnit
  repeat' (first
    | with_reducible assumption | with_reducible apply kept_forgetRequest | with_reducible apply kept_modHeard | simp only [↓kept_mk]
    | with_reducible apply kept_ite)

theorem kept_touchSession {a s : State} (h' : HeardUnit) (h : Kept a s) : Kept a (State.touchSession s h') := by
  unfold State.touchSession
  repeat' (first
    | with_reducible assumption | with_reducible apply kept_loseLead | with_reducible apply kept_endSession
    | with_reducible apply kept_modSession | simp only [↓kept_mk] | with_reducible apply kept_ite
    | simp only [↓kept_mk, flash_of_latch, flash_of_modTenant, flash_of_setTenant] | split)

theorem kept_stepDown {a s : State} (u' : Bytes) (h : Kept a s) : Kept a (State.stepDown s u') := by
  unfold State.stepDown
  repeat' (first
    | with_reducible assumption | with_reducible apply kept_joinLead | with_reducible apply kept_send | with_reducible apply kept_record
    | simp only [↓kept_mk] | with_reducible apply kept_ite | simp only [↓kept_mk, flash_of_latch, flash_of_modTenant, flash_of_setTenant]
    | (with_reducible refine kept_foldl _ _ ?_ ?_; rotate_left; (intro st x hst)))

theorem kept_hearLead {a s : State} (h' : HeardUnit) (h : Kept a s) : Kept a (State.hearLead s h') := by
  unfold State.hearLead
  repeat' (first
    | with_reducible assumption | with_reducible apply kept_stepDown | with_reducible apply kept_joinLead
    | with_reducible apply kept_answerAsLead | with_reducible apply kept_askBeacon | simp only [↓kept_mk] | with_reducible apply kept_ite
    | simp only [↓kept_mk, flash_of_latch, flash_of_modTenant, flash_of_setTenant] | split)

theorem kept_execBeacon {a s : State} (f : Frame) (h : Kept a s) : KeptOut a (execBeacon f s) := by
  unfold execBeacon
  repeat' (first
    | with_reducible assumption | with_reducible apply keptOut_next | with_reducible apply keptOut_fault
    | with_reducible apply keptOut_refused | with_reducible apply kept_hearLead | with_reducible apply kept_touchSession
    | with_reducible apply kept_hearUnit | with_reducible apply kept_frame | with_reducible apply kept_latch | simp only [↓kept_mk]
    | with_reducible apply kept_ite | simp only [↓kept_mk, flash_of_latch, flash_of_modTenant, flash_of_setTenant] | split | dsimp only
    | intro _)

theorem kept_execBeaconVerify {a s : State} (unit : Bytes) (h : Kept a s) : KeptOut a (execBeaconVerify unit s) := by
  unfold execBeaconVerify
  repeat' (first
    | with_reducible assumption | with_reducible apply keptOut_next | with_reducible apply keptOut_fault
    | with_reducible apply keptOut_refused | with_reducible apply kept_joinLead | with_reducible apply kept_noteCurve
    | with_reducible apply kept_modHeard | with_reducible apply kept_toStart | with_reducible apply kept_setClock | simp only [↓kept_mk]
    | with_reducible apply kept_ite | simp only [↓kept_mk, flash_of_latch, flash_of_modTenant, flash_of_setTenant]
    | (with_reducible refine kept_foldl _ _ ?_ ?_; rotate_left; (intro st x hst)) | split | dsimp only | intro _)

theorem kept_execElect {a s : State} (f : Frame) (h : Kept a s) : KeptOut a (execElect f s) := by
  unfold execElect
  repeat' (first
    | with_reducible assumption | with_reducible apply keptOut_next | with_reducible apply keptOut_fault
    | with_reducible apply keptOut_refused | with_reducible apply kept_answerAsLead | with_reducible apply kept_frame
    | with_reducible apply kept_latch | simp only [↓kept_mk] | with_reducible apply kept_ite
    | simp only [↓kept_mk, flash_of_latch, flash_of_modTenant, flash_of_setTenant] | split | dsimp only | intro _)

theorem kept_execElectSend {a s : State} (h : Kept a s) : KeptOut a (execElectSend s) := by
  unfold execElectSend
  repeat' (first
    | with_reducible assumption | with_reducible apply keptOut_next | with_reducible apply keptOut_fault
    | with_reducible apply keptOut_refused | with_reducible apply kept_reach | with_reducible apply kept_send | simp only [↓kept_mk]
    | with_reducible apply kept_ite | simp only [↓kept_mk, flash_of_latch, flash_of_modTenant, flash_of_setTenant] | split)

theorem kept_becomeLead {a s : State} (h : Kept a s) : Kept a (State.becomeLead s) := by
  unfold State.becomeLead
  repeat' (first
    | with_reducible assumption | with_reducible apply kept_loseMember | with_reducible apply kept_recordLinkOpen
    | with_reducible apply kept_sendBeacon | simp only [↓kept_mk] | with_reducible apply kept_ite
    | simp only [↓kept_mk, flash_of_latch, flash_of_modTenant, flash_of_setTenant] | split)

theorem kept_execLeadElection {a s : State} (h : Kept a s) : KeptOut a (execLeadElection s) := by
  unfold execLeadElection
  repeat' (first
    | with_reducible assumption | with_reducible apply keptOut_next | with_reducible apply keptOut_fault
    | with_reducible apply keptOut_refused | with_reducible apply kept_becomeLead | with_reducible apply kept_reach | simp only [↓kept_mk]
    | with_reducible apply kept_ite | simp only [↓kept_mk, flash_of_latch, flash_of_modTenant, flash_of_setTenant] | split)

theorem kept_execColdWindowRenew {a s : State} (h : Kept a s) : KeptOut a (execColdWindowRenew s) := by
  unfold execColdWindowRenew
  repeat' (first
    | with_reducible assumption | with_reducible apply keptOut_next | with_reducible apply keptOut_fault
    | with_reducible apply keptOut_refused | with_reducible apply kept_openCold | with_reducible apply kept_reach | simp only [↓kept_mk]
    | with_reducible apply kept_ite)

theorem kept_execLeadLossTimeout {a s : State} (h : Kept a s) : KeptOut a (execLeadLossTimeout s) := by
  unfold execLeadLossTimeout
  repeat' (first
    | with_reducible assumption | with_reducible apply keptOut_next | with_reducible apply keptOut_fault
    | with_reducible apply keptOut_refused | with_reducible apply kept_loseLead | with_reducible apply kept_reach | simp only [↓kept_mk]
    | with_reducible apply kept_ite | simp only [↓kept_mk, flash_of_latch, flash_of_modTenant, flash_of_setTenant] | split)

theorem kept_execLeadConfirmTimeout {a s : State} (h : Kept a s) : KeptOut a (execLeadConfirmTimeout s) := by
  unfold execLeadConfirmTimeout
  repeat' (first
    | with_reducible assumption | with_reducible apply keptOut_next | with_reducible apply keptOut_fault
    | with_reducible apply keptOut_refused | with_reducible apply kept_loseLead | with_reducible apply kept_joinLead
    | with_reducible apply kept_reach | with_reducible refine kept_freeBelow_of (by assumption) ?_ | with_reducible apply kept_freeBelow
    | simp only [↓kept_mk] | with_reducible apply kept_ite | simp only [↓kept_mk, flash_of_latch, flash_of_modTenant, flash_of_setTenant]
    | (with_reducible refine kept_foldl _ _ ?_ ?_; rotate_left; (intro st x hst)) | split | dsimp only | intro _)

theorem kept_execMemberLossTimeout {a s : State} (unit : Bytes) (h : Kept a s) : KeptOut a (execMemberLossTimeout unit s) := by
  unfold execMemberLossTimeout
  repeat' (first
    | with_reducible assumption | with_reducible apply keptOut_next | with_reducible apply keptOut_fault
    | with_reducible apply keptOut_refused | with_reducible apply kept_loseMember | with_reducible apply kept_reach | simp only [↓kept_mk]
    | with_reducible apply kept_ite | simp only [↓kept_mk, flash_of_latch, flash_of_modTenant, flash_of_setTenant] | split)

theorem kept_leaveModule {a s : State} (f : Frame) (n : Byte) (h : Kept a s) : Kept a (State.leaveModule s f n) := by
  unfold State.leaveModule
  repeat' (first
    | with_reducible assumption | with_reducible apply kept_refuseClient | with_reducible apply kept_noteClient
    | with_reducible apply kept_endSession | simp only [↓kept_mk] | with_reducible apply kept_ite
    | simp only [↓kept_mk, flash_of_latch, flash_of_modTenant, flash_of_setTenant]
    | (with_reducible refine kept_foldl _ _ ?_ ?_; rotate_left; (intro st x hst)) | split | dsimp only | intro _)

theorem kept_execLeave {a s : State} (f : Frame) (h : Kept a s) : KeptOut a (execLeave f s) := by
  unfold execLeave
  repeat' (first
    | with_reducible assumption | with_reducible apply keptOut_next | with_reducible apply keptOut_fault
    | with_reducible apply keptOut_refused | with_reducible apply kept_leaveModule | with_reducible apply kept_loseMember
    | with_reducible apply kept_loseLead | with_reducible apply kept_frame | with_reducible apply kept_endSession
    | with_reducible apply kept_latch | simp only [↓kept_mk] | with_reducible apply kept_ite
    | simp only [↓kept_mk, flash_of_latch, flash_of_modTenant, flash_of_setTenant]
    | (with_reducible refine kept_foldl _ _ ?_ ?_; rotate_left; (intro st x hst)) | split | dsimp only | intro _)

theorem kept_setTime {a s : State} (leadCount : ℕ) (captured : ℕ) (approx : Bool) (h : Kept a s) : Kept a (State.setTime s leadCount captured approx) := by
  unfold State.setTime
  repeat' (first | with_reducible assumption | with_reducible apply kept_record | simp only [↓kept_mk] | with_reducible apply kept_ite)

theorem kept_execTimeFrame {a s : State} (f : Frame) (h : Kept a s) : KeptOut a (execTimeFrame f s) := by
  unfold execTimeFrame
  repeat' (first
    | with_reducible assumption | with_reducible apply keptOut_next | with_reducible apply keptOut_fault
    | with_reducible apply keptOut_refused | with_reducible apply kept_setTime | with_reducible apply kept_frame
    | with_reducible apply kept_drop | with_reducible apply kept_latch | simp only [↓kept_mk] | with_reducible apply kept_ite
    | simp only [↓kept_mk, flash_of_latch, flash_of_modTenant, flash_of_setTenant]
    | (with_reducible refine kept_foldl _ _ ?_ ?_; rotate_left; (intro st x hst)) | split | dsimp only | intro _)

theorem kept_execTimeSend {a s : State} (h : Kept a s) : KeptOut a (execTimeSend s) := by
  unfold execTimeSend
  repeat' (first
    | with_reducible assumption | with_reducible apply keptOut_next | with_reducible apply keptOut_fault
    | with_reducible apply keptOut_refused | with_reducible apply kept_reach | with_reducible apply kept_send
    | with_reducible apply kept_setClock | simp only [↓kept_mk] | with_reducible apply kept_ite
    | simp only [↓kept_mk, flash_of_latch, flash_of_modTenant, flash_of_setTenant]
    | (with_reducible refine kept_foldl _ _ ?_ ?_; rotate_left; (intro st x hst)) | split | dsimp only | intro _)

theorem kept_makeCross {a s : State} (h : Kept a s) : Kept a (State.makeCross s).2 := by
  unfold State.makeCross
  repeat' (first
    | with_reducible assumption | with_reducible refine kept_signHash_of (by assumption) ?_ | with_reducible apply kept_signHash
    | with_reducible apply kept_toStart | with_reducible apply kept_setClock | simp only [↓kept_mk] | with_reducible apply kept_ite
    | simp only [↓kept_mk, flash_of_latch, flash_of_modTenant, flash_of_setTenant]
    | (with_reducible refine kept_foldl _ _ ?_ ?_; rotate_left; (intro st x hst)) | split | dsimp only | intro _)
theorem kept_makeCross_of {a s nx : State} {y} (e : (State.makeCross s) = (y, nx)) (h : Kept a s) : Kept a nx := by
  have := kept_makeCross h
  rwa [e] at this

theorem kept_checkCross {a s : State} (u' : Bytes) (payload : Bytes) (h : Kept a s) : Kept a (State.checkCross s u' payload).2 := by
  unfold State.checkCross
  repeat' (first
    | with_reducible assumption | with_reducible apply kept_noteCurve | with_reducible apply kept_toStart | with_reducible apply kept_setClock | simp only [↓kept_mk]
    | with_reducible apply kept_ite | simp only [↓kept_mk, flash_of_latch, flash_of_modTenant, flash_of_setTenant]
    | (with_reducible refine kept_foldl _ _ ?_ ?_; rotate_left; (intro st x hst)) | split | dsimp only | intro _)
theorem kept_checkCross_of {a s nx : State} {u' : Bytes} {payload : Bytes} {y} (e : (State.checkCross s u' payload) = (y, nx)) (h : Kept a s) : Kept a nx := by
  have := kept_checkCross u' payload h
  rwa [e] at this

theorem kept_recordCrossIn {a s : State} (u' : Bytes) (payload : Bytes) (h : Kept a s) : Kept a (State.recordCrossIn s u' payload) := by
  unfold State.recordCrossIn
  repeat' (first | with_reducible assumption | with_reducible apply kept_record)

theorem kept_recordCrossBad {a s : State} (u' : Bytes) (payload : Bytes) (r : CryptoResult) (h : Kept a s) : Kept a (State.recordCrossBad s u' payload r) := by
  unfold State.recordCrossBad
  repeat' (first | with_reducible assumption | with_reducible apply kept_record)

theorem kept_keepCross {a s : State} (u' : Bytes) (payload : Bytes) (h : Kept a s) : Kept a (State.keepCross s u' payload) := by
  unfold State.keepCross
  repeat' (first | with_reducible assumption | simp only [↓kept_mk])

theorem kept_crossDone {a s : State} (h : Kept a s) : Kept a (State.crossDone s) := by
  unfold State.crossDone
  repeat' (first | with_reducible assumption | simp only [↓kept_mk])

theorem kept_sendCross {a s : State} (u' : Bytes) (payload : Bytes) (h : Kept a s) : Kept a (State.sendCross s u' payload) := by
  unfold State.sendCross
  repeat' (first
    | with_reducible assumption | with_reducible refine kept_newRequest_of (by assumption) ?_ | with_reducible apply kept_newRequest
    | with_reducible apply kept_send | simp only [↓kept_mk] | with_reducible apply kept_ite
    | simp only [↓kept_mk, flash_of_latch, flash_of_modTenant, flash_of_setTenant]
    | (with_reducible refine kept_foldl _ _ ?_ ?_; rotate_left; (intro st x hst)) | split | dsimp only | intro _)

theorem kept_execCrossInitiate {a s : State} (h : Kept a s) : KeptOut a (execCrossInitiate s) := by
  unfold execCrossInitiate
  repeat' (first
    | with_reducible assumption | with_reducible apply keptOut_next | with_reducible apply keptOut_fault
    | with_reducible apply keptOut_refused | with_reducible apply kept_sendCross
    | with_reducible refine kept_makeCross_of (by assumption) ?_ | with_reducible apply kept_makeCross | with_reducible apply kept_reach
    | simp only [↓kept_mk] | with_reducible apply kept_ite | simp only [↓kept_mk, flash_of_latch, flash_of_modTenant, flash_of_setTenant]
    | (with_reducible refine kept_foldl _ _ ?_ ?_; rotate_left; (intro st x hst)) | split | dsimp only | intro _)

theorem kept_crossLater {a s : State} (h : Kept a s) : Kept a (State.crossLater s) := by
  unfold State.crossLater
  repeat' (first | with_reducible assumption | simp only [↓kept_mk])

theorem kept_crossReply {a s : State} (u' : Bytes) (payload : Bytes) (h : Kept a s) : Kept a (State.crossReply s u' payload) := by
  unfold State.crossReply
  repeat' (first
    | with_reducible assumption | with_reducible apply kept_crossLater | with_reducible apply kept_crossDone
    | with_reducible apply kept_keepCross | with_reducible apply kept_recordCrossBad | with_reducible apply kept_recordCrossIn
    | with_reducible refine kept_checkCross_of (by assumption) ?_ | with_reducible apply kept_checkCross | simp only [↓kept_mk]
    | with_reducible apply kept_ite)

theorem kept_execCrossReplyTimeout {a s : State} (h : Kept a s) : KeptOut a (execCrossReplyTimeout s) := by
  unfold execCrossReplyTimeout
  repeat' (first
    | with_reducible assumption | with_reducible apply keptOut_next | with_reducible apply keptOut_fault
    | with_reducible apply keptOut_refused | with_reducible apply kept_crossLater | with_reducible apply kept_reach
    | with_reducible apply kept_record | simp only [↓kept_mk] | with_reducible apply kept_ite
    | simp only [↓kept_mk, flash_of_latch, flash_of_modTenant, flash_of_setTenant] | split)

theorem kept_execCross {a s : State} (f : Frame) (h : Kept a s) : KeptOut a (execCross f s) := by
  unfold execCross
  repeat' (first
    | with_reducible assumption | with_reducible apply keptOut_next | with_reducible apply keptOut_fault
    | with_reducible apply keptOut_refused | with_reducible apply kept_crossReply | with_reducible apply kept_frame
    | with_reducible apply kept_latch | simp only [↓kept_mk] | with_reducible apply kept_ite
    | simp only [↓kept_mk, flash_of_latch, flash_of_modTenant, flash_of_setTenant] | split | dsimp only | intro _)

theorem kept_crossAnswer {a s : State} (u' : Bytes) (request : Byte) (payload : Bytes) (h : Kept a s) : Kept a (State.crossAnswer s u' request payload) := by
  unfold State.crossAnswer
  repeat' (first
    | with_reducible assumption | with_reducible apply kept_crossDone | with_reducible apply kept_keepCross
    | with_reducible apply kept_recordCrossIn | with_reducible refine kept_makeCross_of (by assumption) ?_
    | with_reducible apply kept_makeCross | with_reducible apply kept_appendAll | with_reducible apply kept_send | simp only [↓kept_mk]
    | with_reducible apply kept_ite | simp only [↓kept_mk, flash_of_latch, flash_of_modTenant, flash_of_setTenant]
    | (with_reducible refine kept_foldl _ _ ?_ ?_; rotate_left; (intro st x hst)) | split | dsimp only | intro _)

theorem kept_execCrossResponderTurn {a s : State} (h : Kept a s) : KeptOut a (execCrossResponderTurn s) := by
  unfold execCrossResponderTurn
  repeat' (first
    | with_reducible assumption | with_reducible apply keptOut_next | with_reducible apply keptOut_fault
    | with_reducible apply keptOut_refused | with_reducible apply kept_crossAnswer | with_reducible apply kept_recordCrossBad
    | with_reducible refine kept_checkCross_of (by assumption) ?_ | with_reducible apply kept_checkCross
    | with_reducible apply kept_sendRefuse | with_reducible apply kept_setClock | simp only [↓kept_mk] | with_reducible apply kept_ite
    | simp only [↓kept_mk, flash_of_latch, flash_of_modTenant, flash_of_setTenant]
    | (with_reducible refine kept_foldl _ _ ?_ ?_; rotate_left; (intro st x hst)) | split | dsimp only | intro _)

theorem kept_ackFragment {a s : State} (f : Frame) (h : Kept a s) : Kept a (State.ackFragment s f) := by
  unfold State.ackFragment
  repeat' (first
    | with_reducible assumption | with_reducible apply kept_send | with_reducible refine kept_freeBytes_of (by assumption) ?_
    | with_reducible apply kept_freeBytes)

theorem kept_importFragment {a s : State} (f : Frame) (x : Transfer) (p : Bytes) (h : Kept a s) : Kept a (State.importFragment s f x p) := by
  unfold State.importFragment
  repeat' (first | with_reducible assumption | with_reducible apply kept_ackFragment | simp only [↓kept_mk])

theorem kept_importStarts {a s : State} (f : Frame) (u' : Bytes) (p : Bytes) (h : Kept a s) : Kept a (State.importStarts s f u' p) := by
  unfold State.importStarts
  repeat' (first
    | with_reducible assumption | with_reducible apply kept_importFragment | with_reducible apply kept_refuseFrame
    | with_reducible apply kept_writeParcel | simp only [↓kept_mk] | with_reducible apply kept_ite)

theorem kept_takeParcel {a s : State} (f : Frame) (u' : Bytes) (p : Bytes) (h : Kept a s) : Kept a (State.takeParcel s f u' p) := by
  unfold State.takeParcel
  repeat' (first
    | with_reducible assumption | with_reducible apply kept_importStarts | with_reducible apply kept_importFragment
    | with_reducible apply kept_refuseFrame | with_reducible apply kept_abortImport
    | with_reducible refine kept_freeReason_of (by assumption) ?_ | with_reducible apply kept_freeReason | simp only [↓kept_mk]
    | with_reducible apply kept_ite | simp only [↓kept_mk, flash_of_latch, flash_of_modTenant, flash_of_setTenant]
    | (with_reducible refine kept_foldl _ _ ?_ ?_; rotate_left; (intro st x hst)) | split | dsimp only | intro _)

theorem kept_execParcelTenantFragment {a s : State} (f : Frame) (h : Kept a s) : KeptOut a (execParcelTenantFragment f s) := by
  unfold execParcelTenantFragment
  repeat' (first
    | with_reducible assumption | with_reducible apply keptOut_next | with_reducible apply keptOut_fault
    | with_reducible apply keptOut_refused | with_reducible apply kept_takeParcel | with_reducible apply kept_frame
    | with_reducible apply kept_latch | simp only [↓kept_mk] | with_reducible apply kept_ite
    | simp only [↓kept_mk, flash_of_latch, flash_of_modTenant, flash_of_setTenant] | split | dsimp only | intro _)

theorem kept_execParcelResult {a s : State} (f : Frame) (h : Kept a s) : KeptOut a (execParcelResult f s) := by
  unfold execParcelResult
  repeat' (first
    | with_reducible assumption | with_reducible apply keptOut_next | with_reducible apply keptOut_fault
    | with_reducible apply keptOut_refused | with_reducible apply kept_forgetRequest | with_reducible apply kept_frame
    | with_reducible apply kept_askExported | with_reducible apply kept_abortExport | with_reducible apply kept_latch
    | simp only [↓kept_mk] | with_reducible apply kept_ite | simp only [↓kept_mk, flash_of_latch, flash_of_modTenant, flash_of_setTenant]
    | split | dsimp only | intro _)

theorem kept_romFragment {a s : State} (u' : Bytes) (p : Bytes) (h : Kept a s) : Kept a (State.romFragment s u' p) := by
  unfold State.romFragment
  repeat' (first
    | with_reducible assumption | with_reducible apply kept_objectArrived | simp only [↓kept_mk] | with_reducible apply kept_ite)

theorem kept_execParcelRecoveryPair {a s : State} (f : Frame) (h : Kept a s) : KeptOut a (execParcelRecoveryPair f s) := by
  unfold execParcelRecoveryPair
  repeat' (first
    | with_reducible assumption | with_reducible apply keptOut_next | with_reducible apply keptOut_fault
    | with_reducible apply keptOut_refused | with_reducible apply kept_romFragment | with_reducible apply kept_refuseFrame
    | with_reducible apply kept_frame | with_reducible apply kept_latch | simp only [↓kept_mk] | with_reducible apply kept_ite
    | simp only [↓kept_mk, flash_of_latch, flash_of_modTenant, flash_of_setTenant] | split | dsimp only | intro _)

theorem kept_sendTransfer {a s : State} (u' : Bytes) (content : Byte) (request : Byte) (object : Bytes) (h : Kept a s) : Kept a (State.sendTransfer s u' content request object) := by
  unfold State.sendTransfer
  repeat' (first
    | with_reducible assumption | with_reducible refine kept_newTransfer_of (by assumption) ?_ | with_reducible apply kept_newTransfer
    | with_reducible apply kept_send | simp only [↓kept_mk] | with_reducible apply kept_ite
    | simp only [↓kept_mk, flash_of_latch, flash_of_modTenant, flash_of_setTenant]
    | (with_reducible refine kept_foldl _ _ ?_ ?_; rotate_left; (intro st x hst)))

theorem kept_execRecoveryPairCycle {a s : State} (unit : Bytes) (h : Kept a s) : KeptOut a (execRecoveryPairCycle unit s) := by
  unfold execRecoveryPairCycle
  repeat' (first
    | with_reducible assumption | with_reducible apply keptOut_next | with_reducible apply keptOut_fault
    | with_reducible apply keptOut_refused | with_reducible apply kept_sendTransfer | simp only [↓kept_mk] | with_reducible apply kept_ite
    | simp only [↓kept_mk, flash_of_latch, flash_of_modTenant, flash_of_setTenant] | split)

theorem kept_imageFragment {a s : State} (f : Frame) (u' : Bytes) (p : Bytes) (h : Kept a s) : Kept a (State.imageFragment s f u' p) := by
  unfold State.imageFragment
  repeat' (first
    | with_reducible assumption | with_reducible apply kept_takeWhole | with_reducible apply kept_setRequest
    | with_reducible apply kept_refuseFrame | simp only [↓kept_mk] | with_reducible apply kept_ite
    | simp only [↓kept_mk, flash_of_latch, flash_of_modTenant, flash_of_setTenant] | split)

theorem kept_execParcelImageFragment {a s : State} (f : Frame) (h : Kept a s) : KeptOut a (execParcelImageFragment f s) := by
  unfold execParcelImageFragment
  repeat' (first
    | with_reducible assumption | with_reducible apply keptOut_next | with_reducible apply keptOut_fault
    | with_reducible apply keptOut_refused | with_reducible apply kept_imageFragment | with_reducible apply kept_refuseFrame
    | with_reducible apply kept_frame | with_reducible apply kept_latch | simp only [↓kept_mk] | with_reducible apply kept_ite
    | simp only [↓kept_mk, flash_of_latch, flash_of_modTenant, flash_of_setTenant] | split | dsimp only | intro _)

theorem kept_recoveryAsked {a s : State} (f : Frame) (u' : Bytes) (p : Bytes) (h : Kept a s) : Kept a (State.recoveryAsked s f u' p) := by
  unfold State.recoveryAsked
  repeat' (first
    | with_reducible assumption | with_reducible apply kept_sendTransfer | with_reducible apply kept_waitFrame
    | with_reducible apply kept_refuseFrame | simp only [↓kept_mk] | with_reducible apply kept_ite
    | simp only [↓kept_mk, flash_of_latch, flash_of_modTenant, flash_of_setTenant] | split)

theorem kept_execParcelRecoveryRequest {a s : State} (f : Frame) (h : Kept a s) : KeptOut a (execParcelRecoveryRequest f s) := by
  unfold execParcelRecoveryRequest
  repeat' (first
    | with_reducible assumption | with_reducible apply keptOut_next | with_reducible apply keptOut_fault
    | with_reducible apply keptOut_refused | with_reducible apply kept_recoveryAsked | with_reducible apply kept_refuseFrame
    | with_reducible apply kept_frame | with_reducible apply kept_latch | simp only [↓kept_mk] | with_reducible apply kept_ite
    | simp only [↓kept_mk, flash_of_latch, flash_of_modTenant, flash_of_setTenant] | split | dsimp only | intro _)

theorem kept_execRecoveryRequestSend {a s : State} (t : TSlot) (h : Kept a s) : KeptOut a (execRecoveryRequestSend t s) := by
  unfold execRecoveryRequestSend
  repeat' (first
    | with_reducible assumption | with_reducible apply keptOut_next | with_reducible apply keptOut_fault
    | with_reducible apply keptOut_refused | with_reducible apply kept_reach
    | with_reducible refine kept_newTransfer_of (by assumption) ?_ | with_reducible apply kept_newTransfer | with_reducible apply kept_ask
    | simp only [↓kept_mk] | with_reducible apply kept_ite | simp only [↓kept_mk, flash_of_latch, flash_of_modTenant, flash_of_setTenant]
    | split)

theorem kept_execProbeHaltRequest {a s : State} (h : Kept a s) : KeptOut a (execProbeHaltRequest s) := by
  unfold execProbeHaltRequest
  repeat' (first
    | with_reducible assumption | with_reducible apply keptOut_next | with_reducible apply keptOut_fault
    | with_reducible apply keptOut_refused | with_reducible apply kept_latch | simp only [↓kept_mk] | with_reducible apply kept_ite)

theorem kept_execHaltEntry {a s : State} (h : Kept a s) : KeptOut a (execHaltEntry s) := by
  unfold execHaltEntry
  repeat' (first
    | with_reducible assumption | with_reducible apply keptOut_next | with_reducible apply keptOut_fault
    | with_reducible apply keptOut_refused | with_reducible apply kept_endLanes | with_reducible apply kept_setClock | simp only [↓kept_mk]
    | with_reducible apply kept_ite | simp only [↓kept_mk, flash_of_latch, flash_of_modTenant, flash_of_setTenant]
    | (with_reducible refine kept_foldl _ _ ?_ ?_; rotate_left; (intro st x hst)) | split | dsimp only | intro _)

theorem kept_execProbeResumeRequest {a s : State} (h : Kept a s) : KeptOut a (execProbeResumeRequest s) := by
  unfold execProbeResumeRequest
  repeat' (first
    | with_reducible assumption | with_reducible apply keptOut_next | with_reducible apply keptOut_fault
    | with_reducible apply keptOut_refused | with_reducible apply kept_setClock | with_reducible apply kept_latch | simp only [↓kept_mk]
    | with_reducible apply kept_ite | simp only [↓kept_mk, flash_of_latch, flash_of_modTenant, flash_of_setTenant]
    | (with_reducible refine kept_foldl _ _ ?_ ?_; rotate_left; (intro st x hst)) | split | dsimp only | intro _)

theorem kept_debugPut {a s : State} (sp : DebugSpace) (a' : ℕ) (v : Word32) (h : Kept a s) : Kept a (State.debugPut s sp a' v) := by
  unfold State.debugPut
  repeat' (first
    | with_reducible assumption | with_reducible apply kept_testWord | with_reducible refine kept_pulseAll_of (by assumption) ?_
    | with_reducible apply kept_pulseAll | with_reducible apply kept_modTenant | with_reducible apply kept_denWrite
    | with_reducible apply kept_sramWrite | simp only [↓kept_mk] | with_reducible apply kept_ite
    | simp only [↓kept_mk, flash_of_latch, flash_of_modTenant, flash_of_setTenant]
    | (with_reducible refine kept_foldl _ _ ?_ ?_; rotate_left; (intro st x hst)) | split | dsimp only | intro _)

theorem kept_debugFlash {a s : State} (t : FlashTask) (h : Kept a s) : Kept a (State.debugFlash s t) := by
  unfold State.debugFlash
  repeat' (first | with_reducible assumption | with_reducible apply kept_startTask | simp only [↓kept_mk] | with_reducible apply kept_ite)

theorem kept_debugOut {a s : State} (bs : Bytes) (h : Kept a s) : Kept a (State.debugOut s bs) := by
  unfold State.debugOut
  repeat' (first | with_reducible assumption | simp only [↓kept_mk])

theorem kept_accessWord {a s : State} (op : DebugOp) (h : Kept a s) : KeptOut a (State.accessWord s op) := by
  unfold State.accessWord
  repeat' (first
    | with_reducible assumption | with_reducible apply keptOut_next | with_reducible apply keptOut_fault
    | with_reducible apply keptOut_refused | with_reducible apply kept_debugOut | with_reducible apply kept_debugFlash
    | with_reducible apply kept_debugPut | with_reducible apply kept_setClock | simp only [↓kept_mk] | with_reducible apply kept_ite
    | simp only [↓kept_mk, flash_of_latch, flash_of_modTenant, flash_of_setTenant]
    | (with_reducible refine kept_foldl _ _ ?_ ?_; rotate_left; (intro st x hst)) | split | dsimp only | intro _)

theorem kept_execDebugAccessWord {a s : State} (op : DebugOp) (h : Kept a s) : KeptOut a (execDebugAccessWord op s) := by
  unfold execDebugAccessWord
  repeat' (first
    | with_reducible assumption | with_reducible apply keptOut_next | with_reducible apply keptOut_fault
    | with_reducible apply keptOut_refused | with_reducible apply kept_accessWord | with_reducible apply kept_latch | simp only [↓kept_mk]
    | with_reducible apply kept_ite | simp only [↓kept_mk, flash_of_latch, flash_of_modTenant, flash_of_setTenant] | split)

theorem kept_ownReads {a s : State} (rtc : ℕ) (h : Kept a s) : Kept a (State.ownReads s rtc) := by
  unfold State.ownReads
  repeat' (first
    | with_reducible assumption | with_reducible apply kept_badgerReads | with_reducible apply kept_pmuReads | simp only [↓kept_mk]
    | with_reducible apply kept_ite | simp only [↓kept_mk, flash_of_latch, flash_of_modTenant, flash_of_setTenant]
    | (with_reducible refine kept_foldl _ _ ?_ ?_; rotate_left; (intro st x hst)) | split | dsimp only | intro _)

theorem kept_idle {a s : State} (h : Kept a s) : Kept a (State.idle s) := by
  unfold State.idle
  repeat' (first
    | with_reducible assumption | with_reducible apply kept_ownReads | with_reducible apply kept_setClock | simp only [↓kept_mk]
    | with_reducible apply kept_ite | simp only [↓kept_mk, flash_of_latch, flash_of_modTenant, flash_of_setTenant]
    | (with_reducible refine kept_foldl _ _ ?_ ?_; rotate_left; (intro st x hst)) | split | dsimp only | intro _)

end Sys2Proof.Laws
end

