-- ==== Sys2Proof/Laws/PerInstr.lean ====
section
/-!
SUPPORT. One fact for each command, as syntax: a command that brings a frame is well formed exactly when its frame is, and no command both
brings a frame and clocks a port.
-/
namespace Sys2Proof.Laws.Shape
open Sys2Proof Sys2Proof.Machine Sys2Proof.Safety

/-- A command that brings a frame (R348, R350) is well formed exactly when the frame is, of a kind below 16, and clocks no port (R275). -/
def Statement (i : Instr) : Prop := ∀ f k, frameOf i = some (f, k) → i.wf = f.wf ∧ k < 16 ∧ portOf i = none

/-- A command that brings no frame. -/
theorem of_none {i : Instr} (h : frameOf i = none) : Statement i := fun f k e => by rw [h] at e; cases e

/-- A command that brings a frame. -/
theorem of_some {i : Instr} {f : Frame} {k : Nat} (h : frameOf i = some (f, k)) (w : i.wf = f.wf) (b : k < 16) (p : portOf i = none) : Statement i :=
  fun f' k' e => by rw [h] at e; cases e; exact ⟨w, b, p⟩

theorem powerOnReset (vbat vddioH vddioF : Nat) : Statement (Instr.powerOnReset vbat vddioH vddioF) := of_none rfl
theorem brownOut (cause : TripCause) (vbat : Nat) : Statement (Instr.brownOut cause vbat) := of_none rfl
theorem commitMonitorTrip : Statement (Instr.commitMonitorTrip) := of_none rfl
theorem commitMonitorRelease : Statement (Instr.commitMonitorRelease) := of_none rfl
theorem strapWindowOpen (inputs : StrapInputs) : Statement (Instr.strapWindowOpen inputs) := of_none rfl
theorem strapKeeperLatch (fstrap astrap alertb : Option Nat) : Statement (Instr.strapKeeperLatch fstrap astrap alertb) := of_none rfl
theorem strapWindowEnd : Statement (Instr.strapWindowEnd) := of_none rfl
theorem keeperGapEnd (tripAfter : Option Nat) : Statement (Instr.keeperGapEnd tripAfter) := of_none rfl
theorem sourceAttemptTimeout : Statement (Instr.sourceAttemptTimeout) := of_none rfl
theorem recoveryWaitTimeout : Statement (Instr.recoveryWaitTimeout) := of_none rfl
theorem readoutStatementRequest (nonce : Bytes) : Statement (Instr.readoutStatementRequest nonce) := of_none rfl
theorem stagingDecision (t : TSlot) : Statement (Instr.stagingDecision t) := of_none rfl
theorem freePoolRebuild : Statement (Instr.freePoolRebuild) := of_none rfl
theorem ticketWindow (w : Fin 30) : Statement (Instr.ticketWindow w) := of_none rfl
theorem leafVerifyDone (lane : Fin 2) : Statement (Instr.leafVerifyDone lane) := of_none rfl
theorem cachePublication (t : TSlot) : Statement (Instr.cachePublication t) := of_none rfl
theorem lanePoll (t : TSlot) : Statement (Instr.lanePoll t) := of_none rfl
theorem deferralLimitExpiry (t : TSlot) : Statement (Instr.deferralLimitExpiry t) := of_none rfl
theorem readData (p : Port) (addr : BitVec 24) (count : Nat) : Statement (Instr.readData p addr count) := of_none rfl
theorem fastRead (p : Port) (addr : BitVec 24) (count : Nat) : Statement (Instr.fastRead p addr count) := of_none rfl
theorem dualOutputRead (p : Port) (addr : BitVec 24) (count : Nat) : Statement (Instr.dualOutputRead p addr count) := of_none rfl
theorem dualIoRead (p : Port) (addr : BitVec 24) (mode : Byte) (count : Nat) : Statement (Instr.dualIoRead p addr mode count) := of_none rfl
theorem quadOutputRead (p : Port) (addr : BitVec 24) (count : Nat) : Statement (Instr.quadOutputRead p addr count) := of_none rfl
theorem quadIoRead (p : Port) (addr : BitVec 24) (mode : Byte) (count : Nat) : Statement (Instr.quadIoRead p addr mode count) := of_none rfl
theorem writeEnable (p : Port) : Statement (Instr.writeEnable p) := of_none rfl
theorem writeDisable (p : Port) : Statement (Instr.writeDisable p) := of_none rfl
theorem pageProgram (p : Port) (addr : BitVec 24) (data : Bytes) (onByte : Bool) : Statement (Instr.pageProgram p addr data onByte) := of_none rfl
theorem sectorErase4k (p : Port) (addr : BitVec 24) (onByte : Bool) : Statement (Instr.sectorErase4k p addr onByte) := of_none rfl
theorem blockErase64k (p : Port) (addr : BitVec 24) (onByte : Bool) : Statement (Instr.blockErase64k p addr onByte) := of_none rfl
theorem readStatus (p : Port) (count : Nat) : Statement (Instr.readStatus p count) := of_none rfl
theorem readFlagStatus (p : Port) (count : Nat) : Statement (Instr.readFlagStatus p count) := of_none rfl
theorem clearFlags (p : Port) : Statement (Instr.clearFlags p) := of_none rfl
theorem readSfdp (p : Port) (addr : BitVec 24) (count : Nat) : Statement (Instr.readSfdp p addr count) := of_none rfl
theorem readId (p : Port) (count : Nat) : Statement (Instr.readId p count) := of_none rfl
theorem resetEnable (p : Port) : Statement (Instr.resetEnable p) := of_none rfl
theorem reset (p : Port) : Statement (Instr.reset p) := of_none rfl
theorem deepPowerDown (p : Port) : Statement (Instr.deepPowerDown p) := of_none rfl
theorem releasePowerDown (p : Port) (count : Nat) : Statement (Instr.releasePowerDown p count) := of_none rfl
theorem filteredOpcode (p : Port) (opcode : Byte) (addr : Option (BitVec 24)) : Statement (Instr.filteredOpcode p opcode addr) := of_none rfl
theorem chipSelectFall (p : Port) : Statement (Instr.chipSelectFall p) := of_none rfl
theorem intakePageProgram (addr : BitVec 24) (data : Bytes) : Statement (Instr.intakePageProgram addr data) := of_none rfl
theorem writeAcceptance (t : TSlot) : Statement (Instr.writeAcceptance t) := of_none rfl
theorem bounceBufferIdleClose (t : TSlot) : Statement (Instr.bounceBufferIdleClose t) := of_none rfl
theorem commitStart : Statement (Instr.commitStart) := of_none rfl
theorem flashOperationDone (chip : Fin 2) (error : Bool) : Statement (Instr.flashOperationDone chip error) := of_none rfl
theorem flashOperationTimeout (chip : Fin 2) (stillBusy : Bool) : Statement (Instr.flashOperationTimeout chip stillBusy) := of_none rfl
theorem flashPowerRestore (answers0 answers1 : Bool) : Statement (Instr.flashPowerRestore answers0 answers1) := of_none rfl
theorem eraseQueueErase : Statement (Instr.eraseQueueErase) := of_none rfl
theorem flashDirectoryUpdate : Statement (Instr.flashDirectoryUpdate) := of_none rfl
theorem vaultWriteComplete : Statement (Instr.vaultWriteComplete) := of_none rfl
theorem ledgerUpdate (tripIn : Option (Fin 4)) : Statement (Instr.ledgerUpdate tripIn) := of_none rfl
theorem ledgerInitialise : Statement (Instr.ledgerInitialise) := of_none rfl
theorem auditAppend : Statement (Instr.auditAppend) := of_none rfl
theorem spillBatchWrite : Statement (Instr.spillBatchWrite) := of_none rfl
theorem makeStatement (t : TSlot) : Statement (Instr.makeStatement t) := of_none rfl
theorem statementSigning : Statement (Instr.statementSigning) := of_none rfl
theorem appendNote (t : TSlot) : Statement (Instr.appendNote t) := of_none rfl
theorem newNonce (t : TSlot) : Statement (Instr.newNonce t) := of_none rfl
theorem advanceCounter (t : TSlot) : Statement (Instr.advanceCounter t) := of_none rfl
theorem nonceAndAdvance (t : TSlot) : Statement (Instr.nonceAndAdvance t) := of_none rfl
theorem confirmGeneration (t : TSlot) : Statement (Instr.confirmGeneration t) := of_none rfl
theorem sleepEntry (wakeCount : Option Nat) : Statement (Instr.sleepEntry wakeCount) := of_none rfl
theorem wakeRequest (src : WakeSource) : Statement (Instr.wakeRequest src) := of_none rfl
theorem sleepTimerWake : Statement (Instr.sleepTimerWake) := of_none rfl
theorem fabricResume : Statement (Instr.fabricResume) := of_none rfl
theorem watchdogExpiry : Statement (Instr.watchdogExpiry) := of_none rfl
theorem glitchMonitorAlarm : Statement (Instr.glitchMonitorAlarm) := of_none rfl
theorem lfxoQualified : Statement (Instr.lfxoQualified) := of_none rfl
theorem lfxoLost : Statement (Instr.lfxoLost) := of_none rfl
theorem lfxoDeadline : Statement (Instr.lfxoDeadline) := of_none rfl
theorem noticeSend (ch : Fin 12) (req : NoticeReq) (other : Option NoticeReq) : Statement (Instr.noticeSend ch req other) := of_none rfl
theorem noticeReceive (ch : Fin 12) (reader : Fin 16) : Statement (Instr.noticeReceive ch reader) := of_none rfl
theorem eventPoll (e : Fin 256) (relatch : Bool) : Statement (Instr.eventPoll e relatch) := of_none rfl
theorem trngHealthFailure (src : Fin 2) (test : TrngTest) : Statement (Instr.trngHealthFailure src test) := of_none rfl
theorem drbgReseed : Statement (Instr.drbgReseed) := of_none rfl
theorem badgerTick (sense0 sense1 sense2 sense3 : Nat) : Statement (Instr.badgerTick sense0 sense1 sense2 sense3) := of_none rfl
theorem badgerTimerExpiry (i : Fin 8) : Statement (Instr.badgerTimerExpiry i) := of_none rfl
theorem egressHoldExpiry : Statement (Instr.egressHoldExpiry) := of_none rfl
theorem tamperHoldExpiry : Statement (Instr.tamperHoldExpiry) := of_none rfl
theorem guardWordWrite : Statement (Instr.guardWordWrite) := of_none rfl
theorem badgerProgramSwitch : Statement (Instr.badgerProgramSwitch) := of_none rfl
theorem linkOpen : Statement (Instr.linkOpen) := of_none rfl
theorem firstBeacon : Statement (Instr.firstBeacon) := of_none rfl
theorem beaconPeriod : Statement (Instr.beaconPeriod) := of_none rfl
theorem linkOpenRecordDeadline : Statement (Instr.linkOpenRecordDeadline) := of_none rfl
theorem frameTransmit (outcome : TxOutcome) : Statement (Instr.frameTransmit outcome) := of_none rfl
theorem beacon (f : Frame) : Statement (Instr.beacon f) := of_some rfl rfl (by decide) rfl
theorem beaconRequest (f : Frame) : Statement (Instr.beaconRequest f) := of_some rfl rfl (by decide) rfl
theorem beaconVerify (unit : Bytes) : Statement (Instr.beaconVerify unit) := of_none rfl
theorem join (f : Frame) : Statement (Instr.join f) := of_some rfl rfl (by decide) rfl
theorem joinAdmit : Statement (Instr.joinAdmit) := of_none rfl
theorem admitFrame (f : Frame) (session : Word32) : Statement (Instr.admitFrame f session) := of_none rfl
theorem waitFrame (f : Frame) : Statement (Instr.waitFrame f) := of_some rfl rfl (by decide) rfl
theorem refuseFrame (f : Frame) : Statement (Instr.refuseFrame f) := of_some rfl rfl (by decide) rfl
theorem readFrame (f : Frame) : Statement (Instr.readFrame f) := of_some rfl rfl (by decide) rfl
theorem writeProgram (f : Frame) : Statement (Instr.writeProgram f) := of_some rfl rfl (by decide) rfl
theorem writeErase4k (f : Frame) : Statement (Instr.writeErase4k f) := of_some rfl rfl (by decide) rfl
theorem writeErase64k (f : Frame) : Statement (Instr.writeErase64k f) := of_some rfl rfl (by decide) rfl
theorem ackFrame (f : Frame) : Statement (Instr.ackFrame f) := of_some rfl rfl (by decide) rfl
theorem noticeRepeat (t : TSlot) : Statement (Instr.noticeRepeat t) := of_none rfl
theorem statementRequest (f : Frame) : Statement (Instr.statementRequest f) := of_some rfl rfl (by decide) rfl
theorem statementFragment (f : Frame) : Statement (Instr.statementFragment f) := of_some rfl rfl (by decide) rfl
theorem parcelTenantFragment (f : Frame) : Statement (Instr.parcelTenantFragment f) := of_some rfl rfl (by decide) rfl
theorem parcelImport : Statement (Instr.parcelImport) := of_none rfl
theorem parcelResult (f : Frame) : Statement (Instr.parcelResult f) := of_some rfl rfl (by decide) rfl
theorem parcelRecoveryPair (f : Frame) : Statement (Instr.parcelRecoveryPair f) := of_some rfl rfl (by decide) rfl
theorem parcelImageFragment (f : Frame) : Statement (Instr.parcelImageFragment f) := of_some rfl rfl (by decide) rfl
theorem parcelRecoveryRequest (f : Frame) : Statement (Instr.parcelRecoveryRequest f) := of_some rfl rfl (by decide) rfl
theorem cross (f : Frame) : Statement (Instr.cross f) := of_some rfl rfl (by decide) rfl
theorem timeFrame (f : Frame) : Statement (Instr.timeFrame f) := of_some rfl rfl (by decide) rfl
theorem elect (f : Frame) : Statement (Instr.elect f) := of_some rfl rfl (by decide) rfl
theorem leave (f : Frame) : Statement (Instr.leave f) := of_some rfl rfl (by decide) rfl
theorem electSend : Statement (Instr.electSend) := of_none rfl
theorem leadElection : Statement (Instr.leadElection) := of_none rfl
theorem coldWindowRenew : Statement (Instr.coldWindowRenew) := of_none rfl
theorem leadLossTimeout : Statement (Instr.leadLossTimeout) := of_none rfl
theorem leadConfirmTimeout : Statement (Instr.leadConfirmTimeout) := of_none rfl
theorem memberLossTimeout (unit : Bytes) : Statement (Instr.memberLossTimeout unit) := of_none rfl
theorem timeSend : Statement (Instr.timeSend) := of_none rfl
theorem crossInitiate : Statement (Instr.crossInitiate) := of_none rfl
theorem crossResponderTurn : Statement (Instr.crossResponderTurn) := of_none rfl
theorem crossReplyTimeout : Statement (Instr.crossReplyTimeout) := of_none rfl
theorem recoveryPairCycle (unit : Bytes) : Statement (Instr.recoveryPairCycle unit) := of_none rfl
theorem recoveryRequestSend (t : TSlot) : Statement (Instr.recoveryRequestSend t) := of_none rfl
theorem installCheck : Statement (Instr.installCheck) := of_none rfl
theorem tenantImageInstall : Statement (Instr.tenantImageInstall) := of_none rfl
theorem schedulePairInstall : Statement (Instr.schedulePairInstall) := of_none rfl
theorem tenantRestart (t : TSlot) : Statement (Instr.tenantRestart t) := of_none rfl
theorem confirmWindowExpiry (t : TSlot) : Statement (Instr.confirmWindowExpiry t) := of_none rfl
theorem revertRetry (t : TSlot) : Statement (Instr.revertRetry t) := of_none rfl
theorem handoverLap : Statement (Instr.handoverLap) := of_none rfl
theorem handoverSelfCheck : Statement (Instr.handoverSelfCheck) := of_none rfl
theorem handoverDeadline : Statement (Instr.handoverDeadline) := of_none rfl
theorem parcelExport : Statement (Instr.parcelExport) := of_none rfl
theorem parcelResultTimeout : Statement (Instr.parcelResultTimeout) := of_none rfl
theorem probeHaltRequest : Statement (Instr.probeHaltRequest) := of_none rfl
theorem haltEntry : Statement (Instr.haltEntry) := of_none rfl
theorem probeResumeRequest : Statement (Instr.probeResumeRequest) := of_none rfl
theorem debugAccessWord (op : DebugOp) : Statement (Instr.debugAccessWord op) := of_none rfl
theorem confirmationPulseEdge (slot sense3 : Nat) : Statement (Instr.confirmationPulseEdge slot sense3) := of_none rfl
theorem bankSupplyInRange (vddioH : Nat) : Statement (Instr.bankSupplyInRange vddioH) := of_none rfl
theorem linkReceiveError : Statement (Instr.linkReceiveError) := of_none rfl
theorem busIdle : Statement (Instr.busIdle) := of_none rfl
theorem requestRepeatTimeout : Statement (Instr.requestRepeatTimeout) := of_none rfl
theorem retryAfterExpiry : Statement (Instr.retryAfterExpiry) := of_none rfl
theorem noticeFrame (f : Frame) : Statement (Instr.noticeFrame f) := of_some rfl rfl (by decide) rfl
theorem dataFrame (f : Frame) : Statement (Instr.dataFrame f) := of_some rfl rfl (by decide) rfl

end Sys2Proof.Laws.Shape
end

