-- ==== Sys2Proof/Laws/Seal.lean ====
section
/-!
SUPPORT. A sealed text opens to what was sealed (R359, R392), for keys whose expansion is of sixteen-byte round keys.
-/
namespace Sys2Proof.Laws
open Sys2Proof.Machine

theorem xorBytes_length (a b : Bytes) : (xorBytes a b).length = min a.length b.length := by simp [xorBytes]

theorem be_length (w n : Nat) : (be w n).length = w := by
  induction w with
  | zero => rfl
  | succ w ih => simp [be, ih]

/-- Exclusive or twice with the same bytes, no shorter than the text. -/
theorem xorBytes_twice (a k : Bytes) (h : a.length ≤ k.length) : xorBytes (xorBytes a k) k = a := by
  induction a generalizing k with
  | nil => simp [xorBytes]
  | cons x a ih =>
    cases k with
    | nil => simp at h
    | cons y k =>
      have := ih k (by simpa using h)
      simp only [xorBytes, List.zipWith_cons_cons, List.cons.injEq] at this ⊢
      refine ⟨?_, this⟩
      rw [BitVec.xor_assoc, BitVec.xor_self, BitVec.xor_zero]

theorem shiftRows_length (s : Bytes) : (shiftRows s).length = 16 := by simp [shiftRows]

theorem mixColumn_length (c : Bytes) : (mixColumn c).length = c.length := by
  unfold mixColumn; split <;> simp_all

theorem mixColumns_length (t : Bytes) (h : t.length = 16) : (((pieces 4 t).map mixColumn).flatten).length = 16 := by
  match t, h with
  | [a, b, c, d, e, f, g, i, j, k, l, m, n, o, p, q], _ => simp [pieces, piecesAux, mixColumn_length]

/-- A block encrypts to a block under sixteen-byte round keys. -/
theorem aesBlock_length (rks : List Bytes) (block : Bytes) (h : ∀ k ∈ rks, k.length = 16) (n : rks ≠ []) (b : block.length = 16) :
    (aesBlock rks block).length = 16 := by
  cases rks with
  | nil => exact absurd rfl n
  | cons k0 rest =>
    unfold aesBlock
    simp only []
    have step : ∀ (rest : List Bytes) (s : Bytes × Nat), (∀ k ∈ rest, k.length = 16) → s.1.length = 16 →
        (rest.foldl (fun (s : Bytes × Nat) (rk : Bytes) =>
          let t := shiftRows (s.1.map sbox)
          let t := if s.2 = 14 then t else ((pieces 4 t).map mixColumn).flatten
          (xorBytes t rk, s.2 + 1)) s).1.length = 16 := by
      intro rest
      induction rest with
      | nil => intro s _ hs; exact hs
      | cons rk rest ih =>
        intro s hr hs
        rw [List.foldl_cons]
        apply ih
        · intro k hk; exact hr k (List.mem_cons_of_mem _ hk)
        · simp only [xorBytes_length]
          rw [hr rk List.mem_cons_self]
          split
          · rw [shiftRows_length]; rfl
          · rw [mixColumns_length _ (shiftRows_length _)]; rfl
    apply step
    · intro k hk; exact h k (List.mem_cons_of_mem _ hk)
    · rw [xorBytes_length, b, h k0 List.mem_cons_self]; rfl

/-- The pieces of a text exclusive-ored with a key stream, piece by piece. -/
def streamAux (f : Nat → Bytes) (fuel i : Nat) (d : Bytes) : Bytes :=
  (((piecesAux fuel 16 d).zipIdx i).map (fun (p : Bytes × Nat) => xorBytes p.1 (f p.2))).flatten

theorem streamAux_nil (f : Nat → Bytes) (fuel i : Nat) : streamAux f fuel i [] = [] := by
  cases fuel <;> simp [streamAux, piecesAux]

theorem streamAux_succ (f : Nat → Bytes) (fuel i : Nat) (d : Bytes) (h : d ≠ []) :
    streamAux f (fuel + 1) i d = xorBytes (d.take 16) (f i) ++ streamAux f fuel (i + 1) (d.drop 16) := by
  cases d with
  | nil => exact absurd rfl h
  | cons x d => simp [streamAux, piecesAux, List.zipIdx_cons]

theorem streamAux_length (f : Nat → Bytes) (hf : ∀ i, (f i).length = 16) (fuel i : Nat) (d : Bytes) (h : d.length ≤ fuel) :
    (streamAux f fuel i d).length = d.length := by
  induction fuel generalizing i d with
  | zero => have : d = [] := List.length_eq_zero_iff.mp (by omega); subst this; simp [streamAux_nil]
  | succ fuel ih =>
    by_cases e : d = []
    · subst e; simp [streamAux_nil]
    · have pos : 0 < d.length := List.length_pos_iff.mpr e
      rw [streamAux_succ f _ _ _ e, List.length_append, ih (i + 1) (d.drop 16) (by simp; omega), xorBytes_length, hf, List.length_take, List.length_drop]
      omega

theorem streamAux_twice (f : Nat → Bytes) (hf : ∀ i, (f i).length = 16) (fuel i : Nat) (d : Bytes) (h : d.length ≤ fuel) :
    streamAux f fuel i (streamAux f fuel i d) = d := by
  induction fuel generalizing i d with
  | zero => have : d = [] := List.length_eq_zero_iff.mp (by omega); subst this; simp [streamAux_nil]
  | succ fuel ih =>
    by_cases e : d = []
    · subst e; simp [streamAux_nil]
    · have pos : 0 < d.length := List.length_pos_iff.mpr e
      have hl : (xorBytes (d.take 16) (f i)).length = min 16 d.length := by rw [xorBytes_length, hf, List.length_take]; omega
      have hx : xorBytes (xorBytes (d.take 16) (f i)) (f i) = d.take 16 := xorBytes_twice _ _ (by rw [hf, List.length_take]; omega)
      rw [streamAux_succ f fuel i d e]
      have ne : xorBytes (d.take 16) (f i) ++ streamAux f fuel (i + 1) (d.drop 16) ≠ [] := by
        intro z; have := congrArg List.length z; rw [List.length_append, hl, List.length_nil] at this; omega
      rw [streamAux_succ f fuel i _ ne]
      by_cases s : 16 ≤ d.length
      · have h16 : (xorBytes (d.take 16) (f i)).length = 16 := by omega
        have t1 : ∀ y : Bytes, (xorBytes (d.take 16) (f i) ++ y).take 16 = xorBytes (d.take 16) (f i) := fun y => by
          rw [List.take_append_of_le_length (Nat.le_of_eq h16.symm), List.take_of_length_le (Nat.le_of_eq h16)]
        have t2 : ∀ y : Bytes, (xorBytes (d.take 16) (f i) ++ y).drop 16 = y := fun y => by
          rw [List.drop_append_of_le_length (Nat.le_of_eq h16.symm), List.drop_of_length_le (Nat.le_of_eq h16), List.nil_append]
        rw [t1, t2, hx, ih (i + 1) (d.drop 16) (by simp; omega), List.take_append_drop]
      · have hd : d.drop 16 = [] := List.drop_of_length_le (by omega)
        rw [hd, streamAux_nil, List.append_nil, List.take_of_length_le (by omega), hx, List.drop_of_length_le (by omega), streamAux_nil, List.append_nil,
          List.take_of_length_le (by omega)]

/-- The round keys of a key, sixteen bytes each. -/
def GoodKey (key : Bytes) : Prop := aesRoundKeys key ≠ [] ∧ ∀ k ∈ aesRoundKeys key, k.length = 16

theorem ctrStream_eq (rks : List Bytes) (w st : Nat) (d : Bytes) :
    ctrStream rks w st d = streamAux (fun i => aesBlock rks (be 16 ((st >>> w) <<< w + (st % 2 ^ w + i) % 2 ^ w))) d.length 0 d := rfl

theorem ctrStream_length {key : Bytes} (g : GoodKey key) (w st : Nat) (d : Bytes) : (ctrStream (aesRoundKeys key) w st d).length = d.length := by
  rw [ctrStream_eq]
  exact streamAux_length _ (fun i => aesBlock_length _ _ g.2 g.1 (be_length _ _)) _ _ _ le_rfl

theorem ctrStream_twice {key : Bytes} (g : GoodKey key) (w st : Nat) (d : Bytes) :
    ctrStream (aesRoundKeys key) w st (ctrStream (aesRoundKeys key) w st d) = d := by
  rw [ctrStream_eq _ _ _ (ctrStream _ _ _ _), ctrStream_length g, ctrStream_eq _ _ _ d]
  exact streamAux_twice _ (fun i => aesBlock_length _ _ g.2 g.1 (be_length _ _)) _ _ _ le_rfl

theorem gcmTag_length {key : Bytes} (g : GoodKey key) (nonce aad cipher : Bytes) (n : nonce.length = 12) :
    (gcmTag (aesRoundKeys key) nonce aad cipher).length = 16 := by
  unfold gcmTag
  simp only []
  rw [xorBytes_length, be_length, aesBlock_length _ _ g.2 g.1 (by simp [n])]
  rfl

theorem gcmSeal_lengths {key : Bytes} (g : GoodKey key) (nonce aad plain : Bytes) (n : nonce.length = 12) :
    (gcmSeal key nonce aad plain).1.length = plain.length ∧ (gcmSeal key nonce aad plain).2.length = 16 := by
  unfold gcmSeal
  simp only []
  generalize beNat (nonce ++ [0, 0, 0, 2]) = st
  exact ⟨ctrStream_length g 32 st plain, gcmTag_length g nonce aad _ n⟩

/-- What was sealed opens, under a tag cut to a length of at least one byte. -/
theorem gcmOpen_gcmSeal {key : Bytes} (g : GoodKey key) (nonce aad plain : Bytes) (n : nonce.length = 12) (k : Nat) (hk : 0 < k) :
    gcmOpen key nonce aad (gcmSeal key nonce aad plain).1 ((gcmSeal key nonce aad plain).2.take k) = some plain := by
  unfold gcmOpen gcmSeal
  simp only []
  generalize ec : ctrStream (aesRoundKeys key) 32 (beNat (nonce ++ [0, 0, 0, 2])) plain = c
  have hl := gcmTag_length g nonce aad c n
  generalize gcmTag (aesRoundKeys key) nonce aad c = tag at hl
  have eq : tag.take (tag.take k).length = tag.take k := by rw [List.length_take, hl, ← hl, ← List.take_eq_take_min]
  have ne : tag.take k ≠ [] := by
    intro z; have := congrArg List.length z; rw [List.length_take, hl] at this; simp at this; omega
  rw [if_pos ⟨eq, ne⟩, ← ec, ctrStream_twice g]

/-- The all-zero key. -/
theorem goodKey_zero : GoodKey (zeros 32) := ⟨by decide +kernel, by decide +kernel⟩

/-! ### The lengths of digests and tags -/

theorem keccakRound_size (a : Array (BitVec 64)) (rc : BitVec 64) : (keccakRound a rc).size = 25 := by simp [keccakRound]

theorem keccakAbsorb_size (a : Array (BitVec 64)) (b : Bytes) : (keccakAbsorb a b).size = 25 := by
  unfold keccakAbsorb keccakF keccakRc
  simp only [List.cons_append, List.nil_append, List.foldl_cons, List.foldl_nil]
  exact keccakRound_size _ _

theorem le_length (w n : Nat) : (le w n).length = w := by simp [le, be_length]

theorem keccak136_length (domain : Byte) (data : Bytes) (n : Nat) (h : n ≤ 136) : (keccak136 domain data n).length = n := by
  unfold keccak136
  simp only []
  rw [List.length_take]
  have f : ∀ (l : List Bytes) (a : Array (BitVec 64)), a.size = 25 → (l.foldl keccakAbsorb a).size = 25 := by
    intro l
    induction l with
    | nil => intro a h; exact h
    | cons b l ih => intro a _; exact ih _ (keccakAbsorb_size _ _)
  have e : ∀ a : Array (BitVec 64), a.size = 25 → ((a.toList.map (fun w => le 8 w.toNat)).flatten).length = 200 := by
    intro a h
    rw [List.length_flatten, List.map_map, List.map_congr_left (g := fun _ => 8) (fun x _ => le_length 8 x.toNat), List.map_const', List.sum_replicate]
    simp [h]
  rw [e _ (f _ _ (by simp))]
  omega

theorem sha3_length (b : Bytes) : (sha3 b).length = 32 := by
  unfold sha3
  exact keccak136_length _ _ _ (by omega)

theorem kmac_length (key : Bytes) (custom : String) (data : Bytes) (n : Nat) (h : n ≤ 136) : (kmac key custom data n).length = n := by
  unfold kmac
  exact keccak136_length _ _ _ h

end Sys2Proof.Laws
end

