-- ==== Sys2Proof/Tests/Slice0.lean ====
section
/-!
SUPPORT. The model's own tests: the checks of WellFormed, for each statement a state and operands that meet its hypotheses (`witness_…`),
and small steps whose results the spec gives (`test_…`).
-/
namespace Sys2Proof.Tests.Slice0
open Sys2Proof Sys2Proof.Machine Sys2Proof.Safety Sys2Proof.Laws

set_option Elab.async false

/-! ### States -/

/-- A state of a phase, its start finished. -/
def inPhase (ph : Phase) : State := { State.reset with power := { Power.reset with phase := ph, buckOn := true, portOn := true, fabricOn := true, vaultOn := true }, boot := { Boot.reset with stage := .running, life := .fielded } }

/-- Phase N with the fabric running. -/
def up : State := inPhase .n

/-- A port-A tenant: 256 KB, two image sectors, all groups. -/
def declA : TenantDecl := ⟨0, .portA, 0, [], 4, 2, 8, 4, .synchronous, 0x7F, .hold, some 0, [0xEF, 0x40, 0x16], true⟩

/-- A tenant whose module is on the link at node 5. -/
def declL : TenantDecl := ⟨1, .link, 5, [], 4, 2, 8, 4, .synchronous, 0x7F, .hold, none, [0, 0, 0], false⟩

/-- A manifest of tenants. -/
def manifestOfTenants (ts : List TenantDecl) : Manifest := ⟨.any, [], ts, none, none, 0, 0, 0, none, ts.map (·.slot), [], []⟩

/-- A running manifest and a tenant slot in a state of its own. -/
def withTenant (s : State) (d : TenantDecl) (x : Tenant) : State :=
  { s with running := { s.running with manifest := some (manifestOfTenants [d]) }, tenants := s.tenants.set d.slot x }

/-- A released tenant with every group. -/
def released : Tenant := { Tenant.reset with life := .released, groups := 0x7F }

/-- The tenant of `declA` served at port A, its slot in a state of its own. -/
def servedAs (x : Tenant) : State := { withTenant up declA x with portA := { PortSt.reset with mode := .tenant 0 } }

/-- The tenant of `declA` released and served at port A. -/
def served : State := servedAs released

/-! ### WellFormed refuses -/

/-- Inputs of the strap window with eight conversions and reads each. -/
def window : StrapInputs :=
  ⟨List.replicate 8 0, List.replicate 8 0, List.replicate 8 0, List.replicate 8 none, List.replicate 8 none, List.replicate 8 none, 3300, 3300⟩

/-- A BEACON request from the unit 0…0 to all. -/
def frame0 : Frame := ⟨2, 0, 0, zeros 16, 0, 0xFF, [], 0, 0, [], [0, 0]⟩

theorem test_wf_accepts : (Instr.strapWindowOpen window).wf = true ∧ (Instr.beaconRequest frame0).wf = true ∧
    (Instr.pageProgram .a 0 [0] true).wf = true ∧ (Instr.confirmationPulseEdge 64512 1200).wf = true := by decide +kernel

theorem test_wf_strap_window : (Instr.strapWindowOpen { window with cfg1 := [] }).wf = false ∧
    (Instr.strapWindowOpen { window with astrap := List.replicate 9 none }).wf = false := by decide +kernel

theorem test_wf_programs : (Instr.pageProgram .a 0 [] true).wf = false ∧ (Instr.intakePageProgram 0 []).wf = false ∧
    (Instr.intakePageProgram 0 (zeros 257)).wf = false ∧ (Instr.readoutStatementRequest (zeros 15)).wf = false := by decide +kernel

theorem test_wf_edges_and_units : (Instr.confirmationPulseEdge 64513 1200).wf = false ∧ (Instr.beaconVerify (zeros 15)).wf = false ∧
    (Instr.memberLossTimeout (zeros 17)).wf = false ∧ (Instr.recoveryPairCycle []).wf = false := by decide +kernel

theorem test_wf_frames : ({ frame0 with priority := 16 } : Frame).wf = false ∧ ({ frame0 with kind := 16 } : Frame).wf = false ∧
    ({ frame0 with srcUnit := [] } : Frame).wf = false ∧ ({ frame0 with dstNode := 0 } : Frame).wf = false ∧
    ({ frame0 with payload := zeros 256 } : Frame).wf = false ∧ ({ frame0 with flags := 1 } : Frame).wf = false := by decide +kernel

theorem test_wf_debug : (DebugOp.flashProgram 0 0 []).wf = false ∧ (DebugOp.flashProgram 0 0 (zeros 257)).wf = false ∧
    (DebugOp.flashRead 0 0 0).wf = false ∧ (DebugOp.stepLap).wf = true := by decide +kernel

/-! ### Hypotheses of the statements can be met -/


/-- An erase that a trip has suspended on chip 0. -/
def erasing (suspended : Bool) : State :=
  { up with flash := { up.flash with op := up.flash.op.set 0 (some ⟨⟨.erase4k, 0, 0, []⟩, .eraseQueue, suspended⟩) } }

theorem witness_StepRunsTheFrontCommand : ({ up with pending := [.writeEnable .a] } : State).pending = [.writeEnable .a] := rfl

theorem witness_AnIdleStepPassesOneSlot : up.pending = [] ∧ up.power.phase = .n ∧ up.clock.slot + 1 < 65536 ∧
    ({ up with clock := { up.clock with slot := 65535 } } : State).clock.slot + 1 = 65536 ∧ State.reset.pending = [] ∧ State.reset.power.phase = .r ∧
    (inPhase .s).power.phase = .s ∧ ({ up with probe := { up.probe with halted := true } } : State).probe.halted = true ∧
    (let d : ChannelDecl := ⟨0, false, 2, ⟨5, 0, 8, false, none⟩, ⟨6, 0, 0, false, none⟩⟩
     (Mailbox.reset.channels.set 0 ⟨some d, [(0, true)], true, false, 0, 0⟩)[(0 : Fin 12)].decl = some d ∧ d.shared = false ∧ d.sideB.identity = 6) := by decide +kernel

theorem witness_EveryStepKeepsTheStoresCanonical : StoresCanonical State.reset ∧ step State.reset = .next State.reset :=
  ⟨⟨rfl, rfl, rfl, by decide⟩, rfl⟩

theorem witness_NoStepClearsAnOtpBit : ∃ t, step { up with pending := [.writeEnable .a] } = .next t := ⟨_, rfl⟩

theorem witness_CommitLowStartsNoFlashWrite :
    let s := { erasing true with power := { up.power with commitLow := true } };
    s.power.phase = .n ∧ s.power.commitLow = true ∧ Instr.eraseQueueErase ≠ .commitMonitorRelease ∧
    (∀ (k : Fin 2) (o : FlashOp), s.flash.op[k] = some o → o.owner ≠ .wipe) ∧ exec .eraseQueueErase s = .next s := by
  refine ⟨rfl, rfl, by decide, fun k o h => ?_, rfl⟩
  fin_cases k <;> cases h
  decide

theorem witness_NoCommandMovesTheQueue : ∃ t, exec (.writeEnable .a) { up with pending := [.dataFrame frame0] } = .next t := ⟨_, rfl⟩

theorem witness_FramesChangeNoOtpAndNoChip : frameOf (.beaconRequest frame0) = some (frame0, Code.fBeacon) ∧ up.power.phase ≠ .b ∧
    ∃ t, exec (.beaconRequest frame0) up = .next t := ⟨rfl, by decide, _, rfl⟩

/-- Phase R after a brown-out. -/
def afterTrip : State := { State.reset with power := { Power.reset with afterBrownOut := true } }

theorem witness_PowerOnResetWaitsAndStartsPhaseP : State.reset.inReset = true ∧ State.reset.power.afterBrownOut = false ∧ 1950 < 1951 ∧ 1951 < 2100 ∧ (inPhase .u).inReset = true ∧
    afterTrip.inReset = true ∧ afterTrip.power.afterBrownOut = true ∧ 2150 < 2151 ∧ 2100 ≤ 2151 := by decide +kernel

theorem witness_BrownOutResetsEveryDomain : up.inReset = false ∧ State.reset.inReset = true ∧ 1000 ≤ 1000 ∧ 999 < 1000 ∧ up.power.phase = .n ∧ ({ up with power := { up.power with wdtOn := true } } : State).power.wdtOn = true ∧
    ({ up with running := { up.running with selfCheckDue := true } } : State).running.selfCheckDue = true ∧ up.probe.halted = false ∧
    (inPhase .w).power.phase = .w ∧ (inPhase .k).power.phase = .k ∧ (inPhase .b).power.phase = .b := by decide +kernel

/-- A wipe that has begun. -/
def wiping : State := { inPhase .b with boot := { Boot.reset with stage := .wiping .reopen false false } }

/-- The commit monitor tripped in a phase. -/
def tripped (ph : Phase) : State := { inPhase ph with power := { (inPhase ph).power with commitLow := true } }

theorem witness_CommitMonitorHoldsAndResumesErases : (erasing false).inReset = false ∧ State.reset.inReset = true ∧ (erasing false).power.commitLow = false ∧
    (∀ j a b, (erasing false).boot.stage ≠ .wiping j a b) ∧ (inPhase .s).power.phase = .s ∧ (inPhase .s).power.commitLow = false ∧
    wiping.inReset = false ∧ (tripped .n).inReset = false ∧ wiping.boot.stage = .wiping .reopen false false ∧ wiping.power.commitLow = false ∧
    (tripped .s).power.commitLow = true ∧ (tripped .n).power.commitLow = true ∧ (tripped .n).power.phase ≠ .s := by
  refine ⟨by decide, by decide, rfl, fun j a b => by simp [erasing, up, inPhase], ?_⟩
  decide

theorem witness_StrapWindowOpensAndRuns :
    (∀ h ∈ [1700, 3600], ∀ f ∈ [1700, 2000, 2700, 3600], let i := { window with vddioH := h, vddioF := f };
      (inPhase .p).power.phase = .p ∧ (1700 ≤ i.vddioH ∧ i.vddioH ≤ 3600) ∧
      ((1700 ≤ i.vddioF ∧ i.vddioF ≤ 2000) ∨ (2700 ≤ i.vddioF ∧ i.vddioF ≤ 3600)) ∧ i.wf = true) ∧
    (∀ f ∈ [1699, 2001, 2699, 3601], ¬((1700 ≤ f ∧ f ≤ 2000) ∨ (2700 ≤ f ∧ f ≤ 3600))) ∧
    (let s := { inPhase .w with straps := { Straps.reset with watching := true } };
      s.power.phase = .w ∧ s.straps.watching = true ∧ s.clock.windowSlot ≤ 0 ∧ s.straps.train = false ∧ 840 < 841 ∧ 840 ≤ 840 ∧ 63487 ≤ 63487) ∧
    (let s := { inPhase .w with straps := { Straps.reset with watching := true, train := true } }; s.straps.train = true ∧ 359 < 360 ∧ 360 ≤ 360) ∧
    (inPhase .p).power.phase = .p ∧ 1700 ≤ 1700 ∧ 3600 ≤ 3600 ∧
    (inPhase .w).power.phase = .w ∧ (inPhase .w).straps.watching = false := by decide +kernel

theorem witness_ClocksAndRandomness : up.inReset = false ∧ up.power.phase ≠ .s ∧ (inPhase .s).power.phase = .s ∧ up.awake = true ∧ up.clock.skipReseed = false ∧
    ({ up with clock := { up.clock with skipReseed := true } } : State).clock.skipReseed = true ∧ (inPhase .b).awake = false ∧ up.power.lfxoQualified = false ∧ up.power.lfxoLate = false ∧
    ({ up with power := { up.power with lfxoQualified := true } } : State).power.lfxoQualified = true ∧ up.probe.halted = false ∧
    up.boot.stage = .running ∧ up.clock.slot = 0 ∧ up.clock.reseeded = false ∧
    ({ up with clock := { up.clock with reseeded := true } } : State).clock.reseeded = true := by decide +kernel

/-- Phase K with every CFG pad at code 0 and every digital strap low; `n` is the count of CFG1's last conversion. -/
def strapped (n : Nat) : State :=
  { inPhase .k with straps := { Straps.reset with
      samples := [List.replicate 8 (0, false, false), List.replicate 7 (0, false, false) ++ [(n, false, false)], List.replicate 8 (0, false, false)]
      digital := List.replicate 3 (List.replicate 8 false) } }

theorem witness_StartsAfterTheStrapWindow : (strapped 0).power.phase = .k ∧ (strapped 6).strapFault = none ∧
    (∃ x, (strapped 7).strapFault = some x) ∧
    (let s := { strapped 0 with otp := { Otp.blank with groups := Otp.blank.groups.set 3 0xFFFF } };
      s.power.phase = .k ∧ s.strapFault = none ∧ decodeLife s.otp = .whole .scrapped) := by
  refine ⟨rfl, by decide +kernel, ⟨_, rfl⟩, rfl, by decide +kernel, by decide +kernel⟩

theorem witness_SourceAttemptsAndRecoveryWaits :
    let stage := fun (x : BootStage) => ({ inPhase .b with boot := { Boot.reset with stage := x } } : State).boot.stage;
    stage (.recovery .pa false) = .recovery .pa false ∧ stage (.recovery .peer true) = .recovery .peer true ∧
    stage (.attempt .pa []) = .attempt .pa [] ∧ stage (.attempt .peer [.fa]) = .attempt .peer [.fa] := ⟨rfl, rfl, rfl, rfl⟩

/-- A tenant being staged in generation 1, nothing verified yet. -/
def staging (d : TenantDecl) : State := withTenant up d { released with life := .created, staging := some ⟨3, 4, 0, 0, 1, [], false, false⟩ }

theorem witness_StagingDecisionReleasesOrHolds : (staging declA).awake = true ∧ (staging declA).isRunning = true ∧ (staging declA).decl? 0 = some declA ∧
    (staging declA).running.manifest = some (manifestOfTenants [declA]) ∧ ((staging declA).tenant 0).staging = some ⟨3, 4, 0, 0, 1, [], false, false⟩ ∧
    declA.failPolicy = .hold ∧ ({ declA with failPolicy := .degrade } : TenantDecl).failPolicy = .degrade ∧ ((staging declA).trial 0).onTrial = false := by
  decide +kernel

/-- A schedule with one ticket window, at slot 1,000, of a class. -/
def scheduleOf1 (cls : Nat) : Schedule := ⟨1, 1, false, false, 16, 2, 4, [], [], [], [(1000, cls)], [], [], [], []⟩

/-- Chip 0 discovered, so that it serves. -/
def withChip (s : State) : State := { s with flash := { s.flash with found := s.flash.found.set 0 ⟨true, 0, false, false⟩ } }

/-- The served tenant in a schedule with one window, chip 0 serving, its slot in a state of its own. -/
def windowed (cls : Nat) (x : Tenant) : State := { withChip (servedAs x) with running := { (servedAs x).running with schedule := some (scheduleOf1 cls) } }

/-- A chain to data leaf 4, whose descriptor is held. -/
def chained : Tenant := { released with chains := [⟨4, 0x03, 12288, 0, false, [], false, false⟩], descriptors := [⟨4, 200, 1, zeros 16⟩] }

/-- What a window finds: the clock at its slot, the lane of its parity free. -/
def atWindow (s : State) : State :=
  let a := s.setClock (s.clock.toTicket 0 1000)
  a.endDue.verifyLane (a.endDue.cipherLane 1000)

/-- A staging with tag-table leaf 0 next. -/
def stagingNow : Staging := ⟨0, 4, 0, 0, 1, [], false, false⟩

theorem windowOf (cls : Nat) (x : Tenant) : (windowed cls x).window? 0 = some (1000, cls) := by
  simp [State.window?, windowed, scheduleOf1]

/-- A full spill with its last leaf unread, met by Ledger's window. -/
def spillFull : State :=
  let s := windowed 2 released
  { s with running := { s.running with manifest := some { manifestOfTenants [declA] with spillRecords := 64 } }, audit := { s.audit with spilled := [(0, 200)] } }

theorem witness_TicketWindows : (windowed 3 chained).awake = true ∧ (windowed 3 chained).running.manifest = some (manifestOfTenants [declA]) ∧ 1000 < lapSlots ∧
    (atWindow (windowed 3 chained)).flash.cutAt = none ∧ (atWindow (windowed 3 chained)).tenantWindow 0 = 0 ∧ (atWindow (windowed 3 chained)).ownerNow 0 = some 0 ∧
    (atWindow (windowed 3 chained)).decl? 0 = some declA ∧ ((atWindow (windowed 3 chained)).tenant 0).staging = none ∧
    ((atWindow (windowed 3 chained)).tenant 0).life = .released ∧ (atWindow (windowed 3 chained)).commit = none ∧
    ((atWindow (windowed 3 released)).tenant 0).nextChain? declA = none ∧
    (∀ c ∈ ((atWindow (windowed 3 chained)).tenant 0).chains, (atWindow (windowed 3 chained)).needsDead (manifestOfTenants [declA]) 0 declA c = false) ∧
    ((atWindow (windowed 3 chained)).tenant 0).nextChain? declA = some (⟨4, 0x03, 12288, 0, false, [], false, false⟩, .data, 4) ∧
    (atWindow (windowed 3 chained)).leafPlace? (manifestOfTenants [declA]) 0 declA .data 4 = some (200, 0, 1, zeros 16) ∧
    ((atWindow (windowed 3 chained)).windowFetch? 200 0).isSome = true ∧ (2 ≠ 1 ∧ 2 ≠ 3) := by
  decide +kernel

/-- The window again after it has begun at its slot, or when the clock has passed it. -/
theorem witness_TicketWindowsWait :
    (let s := { windowed 3 released with clock := { up.clock with slot := 1000, windows := (1000, [0]) } }; s.clock.slot = 1000 ∧ s.clock.windows.1 = s.clock.now ∧ (0 : Fin 30).val ∈ s.clock.windows.2) ∧
    (0 : Fin 30).val ∉ up.clock.windows.2 := by decide +kernel

theorem witness_TicketWindowsLoseAndRead :
    (let s := atWindow { windowed 3 released with flash := { (windowed 3 released).flash with cutAt := some 0 } }; s.flash.cutAt ≠ none) ∧
    (let s := atWindow { windowed 3 chained with flash := { (windowed 3 chained).flash with dead := (Vector.replicate 2 false).set 0 true } };
      s.flash.cutAt = none ∧ (s.tenant 0).chains = [⟨4, 0x03, 12288, 0, false, [], false, false⟩] ∧
      s.needsDead (manifestOfTenants [declA]) 0 declA ⟨4, 0x03, 12288, 0, false, [], false, false⟩ = true) ∧
    (let b := atWindow spillFull; b.flash.cutAt = none ∧ b.audit.spilled = [(0, 200)] ∧ b.spillRecords / 64 ≤ b.audit.spilled.length ∧ b.audit.oldest = none ∧
      (b.windowFetch? 200 3072).isSome = true) := by decide +kernel

theorem witness_TicketWindowsStage : let b := atWindow (windowed 3 { released with life := .created, staging := some stagingNow })
    (b.tenant 0).staging = some stagingNow ∧ stagingNow.next < stagingLeaves declA.denShare ∧
    b.programHolds (refChip (b.stagingAt (manifestOfTenants [declA]) declA 1 0).1) = false := by decide +kernel

/-- A data leaf sealed under the key of zeros, in lane 0 for the chain to leaf 4; `tag` is the tag that the descriptor holds. -/
def inLane (tag : Bytes) : State :=
  { servedAs chained with
      keys := [(.dataLeaf 0, zeros 32)]
      lanes := (Vector.replicate 2 none).set 0 (some ⟨.chain 0 4, .data, 4, 200, (gcmSeal (zeros 32) (dataNonce 4 1) (dataAad 0 4) (zeros 1024)).1, tag, 1, 5096⟩) }

theorem sealedLeafOpens : (inLane []).openData 0 4 1 (gcmSeal (zeros 32) (dataNonce 4 1) (dataAad 0 4) (zeros 1024)).1
    (gcmSeal (zeros 32) (dataNonce 4 1) (dataAad 0 4) (zeros 1024)).2 = some (zeros 1024) := by
  have h := gcmOpen_gcmSeal goodKey_zero (dataNonce 4 1) (dataAad 0 4) (zeros 1024) (by decide) 16 (by decide)
  rw [List.take_of_length_le (by rw [(gcmSeal_lengths goodKey_zero _ _ _ (by decide)).2])] at h
  exact h

theorem witness_LeafChecks (tag : Bytes) : (inLane tag).awake = true ∧ (∃ j, (inLane tag).lanes[(0 : Fin 2)] = some j ∧ j.purpose = .chain 0 4 ∧ j.kind = .data) ∧
    (inLane tag).lanes[(1 : Fin 2)] = none ∧ (inLane tag).decl? 0 = some declA ∧ (∃ c ∈ ((inLane tag).tenant 0).chains, c.leaf = 4) :=
  ⟨rfl, ⟨_, rfl, rfl, rfl⟩, rfl, rfl, ⟨_, List.mem_cons_self, rfl⟩⟩

/-- A lane job without a key opens to nothing. -/
theorem witness_LeafFails : (served).openData 0 4 1 [] [] = none := rfl

theorem witness_PublicationsAndLanePolls :
    let x := { released with cache := [⟨.porch, 0, [], true⟩, ⟨.data, 1, [], false⟩], cacheSize := 2, spare := 1, inserts := [⟨.data, 2, [], false⟩] };
    (servedAs x).awake = true ∧ ((servedAs x).tenant 0).inserts = [⟨.data, 2, [], false⟩] ∧ ((servedAs x).tenant 0).cacheSize = ((servedAs x).tenant 0).cache.length ∧
    2 ≤ ((servedAs x).tenant 0).cacheSize ∧ ((servedAs x).tenant 0).spare < ((servedAs x).tenant 0).cacheSize ∧ (served.tenant 0).inserts = [] ∧
    (served.tenant 0).served = true ∧ served.decl? 0 = some declA ∧
    (((servedAs { released with events := [.clearFlags] }).tenant 0).events = [.clearFlags] ∧ (served.tenant 0).outcomes = [] ∧ (served.tenant 0).wipDone = false ∧
      (served.tenant 0).chains = [] ∧ (served.tenant 0).write = none ∧ (served.tenant 0).writes = [] ∧ (served.tenant 0).awaited = [] ∧
      (served.tenant 0).flightMiss = [] ∧ (served.tenant 0).linkReq = [] ∧ (served.tenant 0).waitingReads = [] ∧ served.lanes = Vector.replicate 2 none) := by decide +kernel

theorem witness_DeferralLimitRefuses : (servedAs chained).awake = true ∧ ((servedAs chained).tenant 0).served = true ∧ (servedAs chained).decl? 0 = some declA ∧
    ((servedAs chained).tenant 0).limitAt declA.deferral = some (declA.deferral + 1) ∧ (served.tenant 0).limitAt declA.deferral = none := by decide +kernel

theorem witness_SequencerWaitsAndFindsTheFreeSectors : (∃ s : State, s.awake = true ∧ s.staged = true ∧ s.flash.poolReady = false ∧
    s.running.manifest = some (manifestOfTenants [declA])) ∧ (tripped .n).power.commitLow = true ∧ (erasing false).flash.op[(0 : Fin 2)] ≠ none ∧
    (inPhase .s).awake = false := by
  refine ⟨⟨{ served with boot := { served.boot with startDone := true } }, rfl, rfl, rfl, rfl⟩, rfl, by decide, rfl⟩

theorem witness_PortCommandsTouchOnlyTheFrontEnd : portOf (.writeEnable .a) = some .a ∧ served.view .a = .tenant 0 declA ∧ served.view .a ≠ .intake ∧
    served.view .a ≠ .readout ∧ served.view .b = .silent := by decide +kernel

/-- A read of the data region at port A, with leaf 8 of the address space (data leaf 0) cached under a content. -/
def cachedLeaf (k : LeafKind) (no : Nat) : State := servedAs { released with cache := [⟨k, no, List.replicate 1024 0xA7, true⟩], cacheSize := 1 }

theorem witness_PortReadsServeOnlyPublishedLeaves :
    served.view .a = .tenant 0 declA ∧ (served.tenant 0).hasGroup .fast = true ∧ (served.tenant 0).hasGroup .dual = true ∧ (served.tenant 0).hasGroup .quad = true ∧ (served.port .a).takes = true ∧
    0 < 1024 ∧ 1024 ≤ 1024 - (8192 : BitVec 24).toNat % 1024 ∧ 1 ≤ 1024 - (9215 : BitVec 24).toNat % 1024 ∧
    served.leafAnswer 0 declA false 8192 = .miss ∧ served.leafAnswer 0 declA false 0 = .failed ∧
    (servedAs { released with life := .degraded }).leafAnswer 0 declA false 8192 = .denied ∧ served.leafAnswer 0 declA false 0x50000 = .spoof ∧
    (∃ content, (cachedLeaf .data 0).leafAnswer 0 declA false 8192 = .bytes content ∧ content.length = 1024) := by
  refine ⟨by decide +kernel, by decide +kernel, by decide +kernel, by decide +kernel, by decide +kernel, by decide, by decide, by decide, by decide +kernel, by decide +kernel, by decide +kernel, by decide +kernel, ⟨_, rfl, by decide +kernel⟩⟩

theorem witness_FilteredOpcodesHaveNoEffect : served.view .a = .tenant 0 declA ∧ (served.tenant 0).honours 0x9B = false ∧ (served.port .a).takes = true ∧
    ((servedAs { released with groups := 0 }).tenant 0).hasGroup .dual = false ∧ (servedAs { released with groups := 0 }).view .a = .tenant 0 declA ∧
    (Instr.writeEnable .a, (0x06 : Byte), Group.program, some none) ∈ groupForms .a 0 0 1 [0] true := by
  refine ⟨by decide +kernel, by decide +kernel, by decide +kernel, by decide +kernel, by decide +kernel, by simp [groupForms]⟩

/-- Port A with WIP set, or in deep power-down. -/
def portIn (wip deep wel armed : Bool) : State := { served with portA := { served.portA with wip := wip, deepDown := deep, wel := wel, resetArmed := armed } }

theorem witness_BusyOrSleepingPortIgnoresCommands : portOf (.writeEnable .a) = some .a ∧ (portIn true false false false).view .a = .tenant 0 declA ∧
    ((portIn true false false false).port .a).wip = true ∧ ((portIn false true false false).port .a).deepDown = true ∧
    (∀ n, Instr.writeEnable .a ≠ .readStatus .a n) ∧ Instr.writeEnable .a ≠ .reset .a := by
  refine ⟨rfl, by decide +kernel, rfl, rfl, fun n => by simp, by simp⟩

theorem witness_PortWritesAreTaken : served.view .a = .tenant 0 declA ∧ (served.tenant 0).hasGroup .program = true ∧ (served.port .a).takes = true ∧
    (served.port .a).wel = false ∧ ((portIn false false true false).port .a).wel = true ∧ (portIn false false true false).view .a = .tenant 0 declA ∧
    ((portIn false false true false).port .a).takes = true ∧ (declA.region 8192).isPage = false ∧ (declA.region 241664).isPage = true ∧
    (declA.region 258047).isPage = true ∧ (served.tenant 0).life = .released ∧ ((servedAs { released with life := .degraded }).tenant 0).life ≠ .released ∧
    (served.tenant 0).hasGroup .erase4k = true ∧ (served.tenant 0).hasGroup .erase64k = true ∧ ([0xAA] : Bytes) ≠ [] := by decide +kernel

theorem witness_PortStatusResetAndPowerDown : served.view .a = .tenant 0 declA ∧ (served.port .a).deepDown = false ∧ (served.port .a).wip = false ∧
    (served.tenant 0).missReported = false ∧ ((portIn false false false true).port .a).resetArmed = true ∧ (served.tenant 0).hasGroup .powerDown = true ∧
    (served.port .a).resetArmed = false := by decide +kernel

/-- A held tenant whose recovery source is port A, its intake open. -/
def intakeA (wel : Bool) : State :=
  { withTenant up declA { released with life := .held } with
      running := { up.running with manifest := some { manifestOfTenants [declA] with recovery := [⟨0, some .portA, 0⟩] } }
      portA := { PortSt.reset with wel := wel } }

/-- The readout start with WEL set. -/
def readout : State := { inPhase .b with boot := { Boot.reset with stage := .readout }, portA := { PortSt.reset with mode := .readout, wel := true } }

theorem witness_ChipSelectIntakeAndReadout :
    (let s := withTenant up declA { released with life := .created };
      s.portTenant .a = some 0 ∧ s.servesIntake .a = false ∧ s.power.phase = .n ∧ s.power.portOn = true ∧ (s.tenant 0).life = .created ∧ s.portTenant .b = none) ∧
    (served.portTenant .a = some 0 ∧ (served.tenant 0).restarting = false ∧ (served.tenant 0).life = .released ∧ served.view .a ≠ .intake) ∧
    (let s := { served with power := { served.power with portOn := false } }; s.portTenant .a = some 0 ∧ s.power.portOn = false) ∧
    (let s := { inPhase .b with portA := { PortSt.reset with mode := .intake } }; s.portTenant .a = none ∧ s.portA.mode = .intake ∧ up.portA.mode ≠ .intake) ∧
    ((intakeA true).view .a = .intake ∧ (intakeA true).portA.mode ≠ .intake ∧ (intakeA true).portA.wel = true ∧ (intakeA true).portA.wip = false ∧ (intakeA true).portA.deepDown = false ∧ (zeros 10 ++ [0x10] ++ zeros 245).length = 256 ∧
      256 < 64 + field (zeros 10 ++ [0x10] ++ zeros 245) 8 4) ∧
    (readout.view .a = .readout ∧ readout.boot.stage = .readout ∧ readout.portA.wip = false ∧ readout.portA.deepDown = false ∧ readout.portA.wel = true ∧ readout.statements.queue = []) := by
  decide +kernel

/-- The served tenant with a write waiting. -/
def writing (op : WriteOp) (x : Tenant) : State := servedAs { x with write := some ⟨op, 0, false, 0x02, none⟩ }

theorem witness_WriteAcceptanceRefuses :
    let w := WriteOp.program 8192 [0];
    ((writing w { released with life := .degraded }).tenant 0).life = .degraded ∧ (writing w released).decl? 0 = some declA ∧
    ((writing w released).tenant 0).write = some ⟨w, 0, false, 0x02, none⟩ ∧ declA.region 0x50000 = .none ∧ (declA.region 0 ≠ .none ∧ declA.region 0 ≠ .data) ∧
    declA.writable w = true ∧ declA.writable (.program 241663 [0]) = true ∧ declA.writable (.erase4k 237568) = true ∧
    ((writing w { released with frozen := true }).tenant 0).frozen = true ∧ ((writing w released).tenant 0).frozen = false ∧
    (let s := writing w released; s.power.commitLow = false ∧ ({ s with flash := { s.flash with poolReady := true } } : State).poolEmpty = true) := by
  decide +kernel

theorem witness_WriteAcceptanceAccepts :
    let x := { released with bounce := { Bounce.none with state := .opened, sector := 5 } };
    let w := WriteOp.program 8192 [0];
    (writing w released).awake = true ∧ declA.writeMode ≠ .readOnly ∧ (writing w released).poolEmpty = false ∧ (writing w released).headerTaken 0 = false ∧
    (writing w x).writeBlocked 0 declA w = true ∧ (writing w released).writeBlocked 0 declA w = false ∧
    released.bounce.written.Pairwise (fun p q => p.1 < q.1) ∧ (WriteOp.erase4k 8192).isProgram = false ∧
    (writing (.erase4k 8192) released).writeBlocked 0 declA (.erase4k 8192) = false := by decide +kernel

theorem someOf {α : Type} {x : Option α} (h : x.isSome = true) : ∃ a, x = some a := Option.isSome_iff_exists.mp h

theorem consOf {α : Type} (l : List α) (f : α → Bool) (h : l.head?.any f = true) : ∃ a rest, l = a :: rest ∧ f a = true := by
  cases l with
  | nil => cases h
  | cons a rest => exact ⟨a, rest, rfl, h⟩

/-- A tenant with a closed buffer for a sector and leaves in its share. -/
def closing (sector : Nat) (leaves : List (LeafKind × Nat × Bytes)) : Tenant :=
  { released with bounce := { Bounce.none with state := .closed, sector := sector }, cache := leaves.map (fun l => ⟨l.1, l.2.1, l.2.2, true⟩) }

/-- The metadata leaves that the commit of an unwritten sector needs. -/
def metaLeaves : List (LeafKind × Nat × Bytes) :=
  [(.index, 0, List.replicate 1024 0xFF), (.map, 0, List.replicate 1024 0xFF), (.tagTable, 0, List.replicate 1024 0xFF)]

/-- The metadata leaves as the commit finds them in the cache, an erase whose leaves are missing, one that a failed chip or a power cycle keeps. -/
theorem witness_CommitsCloseServeAndTakeSectors :
    ((servedAs { released with bounce := { Bounce.none with state := .opened } }).tenant 0).bounce.state = .opened ∧ (served.tenant 0).bounce.state ≠ .opened ∧
    (let s := servedAs (closing 0 []); s.awake = true ∧ s.commit = none ∧ s.power.commitLow = false ∧ s.running.manifest = some (manifestOfTenants [declA]) ∧
      s.decl? 0 = some declA ∧ (s.tenant 0).commitKind? = some (.program, 0) ∧ (0 : TSlot).val = (s.lastLane + 1 + 0) % 16 ∧
      commitNeed (Commit.fresh 0 .program 0 (s.tenant 0).cachedMeta) declA ≠ none) ∧
    (let s := servedAs (closing 0 metaLeaves); commitNeed (Commit.fresh 0 .program 0 (s.tenant 0).cachedMeta) declA = none) ∧
    (let s := servedAs { closing 0 metaLeaves with bounce := Bounce.none, eraseWait := some (0, 1) };
      (s.tenant 0).commitKind? = some (.erase 0 1, 0) ∧ ∃ ls, (s.toStart 1).eraseLeaves (manifestOfTenants [declA]) 0 declA 0 1 = some ls) ∧
    (let s := servedAs { released with eraseWait := some (0, 16) }; (s.tenant 0).commitKind? = some (.erase 0 16, 0) ∧
      (s.toStart 1).eraseLeaves (manifestOfTenants [declA]) 0 declA 0 16 = none ∧ s.flash.cutAt = none) ∧
    (let s := servedAs { released with eraseWait := some (0, 16) }
     let dead := { s with flash := { s.flash with dead := Vector.replicate 2 true } }
     let off := { s with flash := { s.flash with cutAt := some 0 } }
     (dead.toStart 1).eraseLeaves (manifestOfTenants [declA]) 0 declA 0 16 = none ∧ (∃ k ∈ (dead.toStart 1).areaChips (manifestOfTenants [declA]) declA, dead.flash.dead[k] = true) ∧
      (off.toStart 1).eraseLeaves (manifestOfTenants [declA]) 0 declA 0 16 = none ∧
      (∀ k ∈ (off.toStart 1).areaChips (manifestOfTenants [declA]) declA, off.flash.dead[k] = false) ∧ off.flash.cutAt ≠ none) ∧
    (let s := servedAs { released with headerWait := some (zeros 64) }; ∃ h, (s.tenant 0).commitKind? = some (.header h, 0)) := by
  refine ⟨by decide +kernel, by decide +kernel, by decide +kernel, by decide +kernel, ⟨by decide +kernel, someOf (by decide +kernel)⟩, by decide +kernel, by decide +kernel, ⟨_, rfl⟩⟩

theorem witness_C1TakesAPoolSector :
    let s := { withChip (servedAs { released with ceilingSet := true }) with flash := { (withChip served).flash with poolReady := true, free := [300, 301], lastTaken := 299 } };
    s.power.commitLow = false ∧ s.flash.poolReady = true ∧ (s.tenant 0).ceilingSet = true ∧ 300 ∈ s.flash.free ∧ s.chipServes (refChip 300) = true ∧
    s.flash.lastTaken < 300 ∧ s.flash.free.Pairwise (· < ·) ∧ (∀ q ∈ s.flash.free, s.chipServes (refChip q) = true → s.flash.lastTaken < q → 300 ≤ q) ∧
    allBytes 0xFF (s.sectorBytes 300 0 4096) = true := by decide +kernel

/-- A page program in progress on chip 0. -/
def programming (owner : OpOwner) : State :=
  { withChip served with flash := { (withChip served).flash with op := (Vector.replicate 2 none).set 0 (some ⟨⟨.program, 0, 0x1000, [0xF0]⟩, owner, false⟩) } }

/-- FPWR low since boundary 0. -/
def cut (ph : Phase) : State := { inPhase ph with flash := { (inPhase ph).flash with cutAt := some 0, chips := ⟨#[Chip.blank 1024, Chip.blank 1024], rfl⟩ } }

/-- Work for the Sequencer's own writes. -/
def housekeeping : State :=
  { withChip served with
      flash := { (withChip served).flash with eraseQueue := [300], directoryDue := true }
      running := { served.running with manifest := some { manifestOfTenants [declA] with spillRecords := 1024 } }
      audit := { Audit.reset with unspilled := [0], spillErased := [400] } }

theorem witness_FlashOperationsEndAndTheSequencerGoesOn :
    (∃ o, (programming .directory).running? 0 = some o ∧ o.task.chip = 0 ∧ o.owner ≠ .wipe) ∧ (∃ o, (programming .wipe).running? 0 = some o ∧ o.owner = .wipe) ∧
    Cells.wf erased (programming .directory).flash.chips[(0 : Fin 2)].cells = true ∧ (programming .directory).running? 1 = none ∧
    (programming .directory).flash.cutAt = none ∧ (programming .directory).flash.cycles < 3 ∧
    (cut .n).flash.cutAt = some 0 ∧ (cut .n).awake = true ∧ (∀ c : Fin 2, ((cut .n).chip c).failedRow = 0) ∧ (cut .b).power.phase = .b ∧ up.flash.cutAt = none ∧
    housekeeping.mayHousekeep = true ∧ housekeeping.flash.eraseQueue.find? (fun q => housekeeping.chipServes (refChip q)) = some 300 ∧
    housekeeping.flash.directoryDue = true ∧ housekeeping.chipServes 0 = true ∧ (tripped .n).mayHousekeep = false ∧ housekeeping.commit = none ∧ housekeeping.update.plan = none ∧
    (let s := withChip (cut .n); s.flash.cutAt = some 0 ∧ s.awake = true ∧ s.flash.found[(0 : Fin 2)].ran = true ∧ s.flash.found[(0 : Fin 2)].row = 0 ∧
      s.flash.dead[(0 : Fin 2)] = false ∧ s.flash.cycles < 3) ∧ (programming .directory).flash.chips[(0 : Fin 2)].ignores = [] := by
  refine ⟨⟨_, rfl, rfl, by decide⟩, ⟨_, rfl, rfl⟩, rfl, rfl, rfl, by decide, rfl, rfl, by decide +kernel, rfl, rfl, by decide +kernel, by decide +kernel, rfl, by decide +kernel, rfl, rfl, rfl, by decide +kernel, rfl⟩

theorem spillPages : (pageTasks (refChip 400) (refAddr 400) (housekeeping.spillImage 0)).head?.any (fun page => housekeeping.chipServes page.chip) = true := by
  decide +kernel

theorem witness_SpillBatchWrite : housekeeping.audit.unspilled = 0 :: [] ∧ housekeeping.audit.spillErased = 400 :: [] ∧ housekeeping.spillRecords ≠ 0 ∧
    housekeeping.audit.spilled.length < housekeeping.spillRecords / 64 ∧
    (∃ page pages, pageTasks (refChip 400) (refAddr 400) (housekeeping.spillImage 0) = page :: pages ∧ housekeeping.chipServes page.chip = true) := by
  refine ⟨rfl, rfl, by decide +kernel, by decide +kernel, consOf _ _ spillPages⟩

/-- A vault with half A live under the key of zeros: `sequence` and commit word 1, its tag in place. -/
def withLedger (s : State) (req : LedgerReq) : State :=
  let s := { s with keys := [(.vaultIntegrity, zeros 32)], vault := Cells.writeRange erased (Cells.writeRange erased [] (halfAt false) (be 4 1)) commitWordAt (be 4 1) };
  { s with vault := Cells.writeRange erased s.vault (halfAt false + 0xFE0) (s.ledgerTag (s.half false)), update := { s.update with ledger := [req] } }

/-- A vault write of one word. -/
def vaultWriting : State := { up with update := { up.update with vaultWrite := [⟨[(0x12000, [0, 0, 0, 1])], some 0⟩] } }

theorem witness_VaultWrites : vaultWriting.awake = true ∧ vaultWriting.update.vaultWrite = ⟨[(0x12000, [0, 0, 0, 1])], some 0⟩ :: [] ∧ up.update.vaultWrite = [] ∧
    (let s := { up with update := { up.update with initDue := true } }; s.awake = true ∧ s.isRunning = true ∧ s.update.initDue = true ∧ s.power.commitLow = false) := by
  decide

/-- A ring whose head is record 1 (its slot erased), and one record requested. -/
def auditing : State :=
  { up with
      vault := Cells.writeRange erased [] headAt (be 4 1)
      audit := { Audit.reset with queue := [⟨Code.note, 0, zeros 6, zeros 18, .nothing⟩], settled := true } }

theorem witness_AuditAppendChainsTheRecord : auditing.awake = true ∧ auditing.boot.life ≠ .scrapped ∧ auditing.audit.overflow = 0 ∧
    auditing.audit.queue = [⟨Code.note, 0, zeros 6, zeros 18, .nothing⟩] ∧ (zeros 6).length = 6 ∧ auditing.audit.settled = true ∧ auditing.audit.restartAt = none ∧
    auditing.vaultValue? headAt = some 1 ∧ (1 + 1) % 64 ≠ 0 ∧ (∃ prev, auditing.ringSlot? 1 = some prev) := by
  refine ⟨rfl, by decide, rfl, rfl, rfl, rfl, rfl, by decide +kernel, by decide, someOf (by decide +kernel)⟩

/-- An idle unit at a frame boundary. -/
def idle : State := { up with running := { up.running with schedule := some (scheduleOf1 3) }, clock := { up.clock with boundaries := 10 } }

/-- Sleep, with a resume due at a boundary or none, the link open or not. -/
def asleep (resume : Option Nat) (opened : Bool) : State :=
  { inPhase .s with sleep := { Sleep.reset with wakeCount := some 9, resumeAt := resume, waiting := 1 }, link := { Link.reset with opened := opened } }

theorem witness_SleepEntryAndResume : idle.awake = true ∧ ((idle.setClock idle.clock.toLapStart).endLanes).maySleep = true ∧ up.awake = true ∧
    ((up.setClock up.clock.toLapStart).endLanes).maySleep = false ∧ ({ asleep none true with link := { Link.reset with role := .solo } } : State).link.role ≠ .off ∧
    (asleep none true).link.role = .off ∧ 9 < 10 ∧ (asleep (some 10) false).sleep.resumeAt = some 10 ∧ (asleep none true).power.phase = .s ∧
    (asleep none true).sleep.resumeAt = none ∧ (asleep none true).link.opened = true ∧ (asleep none true).clock.slot + 20480 ≤ 65536 ∧
    (asleep none false).link.opened = false ∧ up.power.phase ≠ .s ∧ (asleep none true).sleep.wakeCount = some 9 ∧ (asleep (some 1) false).sleep.resumeAt = some 1 ∧
    (asleep (some 1) false).sleep.waiting = 1 := by decide +kernel

/-- A one-way channel 0 from Badger's side to Warden's, depth 2. -/
def channel0 : ChannelDecl := ⟨0, false, 2, ⟨5, 0, 8, false, none⟩, ⟨2, 0, 0, false, some 0⟩⟩

/-- A shared channel 0 of identities 2 and 5. -/
def channelShared : ChannelDecl := ⟨0, true, 1, ⟨2, 0, 8, false, some 1⟩, ⟨5, 8, 8, false, none⟩⟩

/-- Channel 0 declared and locked, with a queue, in a phase. -/
def mailing (ph : Phase) (d : ChannelDecl) (q : List (BitVec 32 × Bool)) : State :=
  { inPhase ph with mailbox := { Mailbox.reset with channels := Mailbox.reset.channels.set 0 ⟨some d, q, true, false, 0, 0⟩, locked := true } }

/-- A send of identity `i` of two units at an offset. -/
def sending (i : Fin 16) (offset : BitVec 8) : NoticeReq := ⟨i, offset, 2, 7⟩

theorem witness_NoticeSendStatuses : (mailing .n channel0 []).masterRuns (sending 5 6).sender.val = true ∧ up.mailbox.locked = false ∧
    (mailing .n channel0 []).mailbox.locked = true ∧ (mailing .n channel0 []).mailbox.channels[(0 : Fin 12)].decl = some channel0 ∧
    (inPhase .s).power.phase = .s ∧ (mailing .s channel0 []).masterRuns 5 = true ∧ channel0.sendingSide 2 = none ∧ channel0.sendingSide 5 = some true ∧ noticeInRegion (channel0.side true) (sending 5 7) = false ∧
    noticeInRegion (channel0.side true) (sending 5 6) = true ∧ isFabricMaster (channel0.side false).identity = true ∧ (inPhase .s).power.phase ≠ .n ∧
    (channel0.side false).wake = false ∧ channel0.shared = false ∧ channel0.depth ≤ [(0, true), ((0 : BitVec 32), true)].length ∧ ([] : List Nat).length < channel0.depth ∧
    (let s := mailing .n channelShared [(0, true)]; s.masterRuns 2 = true ∧ s.masterRuns 5 = true ∧ channelShared.shared = true ∧ channelShared.sideA.identity = 2 ∧
      channelShared.sideB.identity = 5 ∧ noticeInRegion channelShared.sideA (sending 2 0) = true ∧ noticeInRegion channelShared.sideB (sending 5 14) = true ∧ s.power.phase = .n) := by
  decide +kernel

theorem queueOfOther : ∀ n ∈ (mailing .n channel0 [(0, true)]).mailbox.channels[(0 : Fin 12)].queue, n.2 ≠ false := by
  intro n h
  have h : n ∈ [((0 : BitVec 32), true)] := h
  rw [List.mem_singleton.mp h]
  decide

theorem witness_NoticesAndEventsAreRead : (mailing .n channel0 [(0, true)]).masterRuns 2 = true ∧
    (mailing .n channel0 [(0, true)]).mailbox.channels[(0 : Fin 12)].decl = some channel0 ∧ channel0.readingSide 5 = none ∧ channel0.readingSide 2 = some false ∧
    up.mailbox.channels[(0 : Fin 12)].decl = none ∧ up.awake = true ∧
    (mailing .n channel0 [(0, true)]).mailbox.channels[(0 : Fin 12)].unread false ≠ [] ∧ (channel0.side false).event = some 0 ∧ Ev.mailbox 0 = 200 ∧
    channel0.readingSide (channel0.side false).identity = some false ∧ (200 ≤ (200 : Fin 256).val ∧ (200 : Fin 256).val ≤ 207) ∧ ¬(200 ≤ (9 : Fin 256).val ∧ (9 : Fin 256).val ≤ 207) ∧
    (let x := { scheduleOf1 3 with polls := List.replicate 201 ⟨200, 0, 2, 100⟩ }; ∃ p, x.polls[(200 : Fin 256).val]? = some p ∧ p.code ≤ 7 ∧ p.offset < 2 ^ (p.code + 9)) := by
  refine ⟨by decide +kernel, by decide +kernel, by decide +kernel, by decide +kernel, by decide +kernel, by decide +kernel, by decide +kernel, by decide +kernel,
    by decide +kernel, by decide +kernel, by decide +kernel, by decide +kernel, ⟨_, rfl, by decide, by decide⟩⟩

/-- The served tenant with a request pending on a page. -/
def asking (x : Tenant) : State := servedAs x

/-- A porch page with a pending request. -/
def pendingPage (request byte3 : Byte) (fields : Cells) : Porch := ⟨request, 1, 0, byte3, fields⟩

/-- A statement of the tenant in work, its payload fixed. -/
def stating (ph : Phase) (stage : BootStage) (asker : StmtAsker) : State :=
  { inPhase ph with boot := { Boot.reset with stage := stage }, statements := { Statements.reset with queue := [⟨asker, zeros 16, some [0]⟩] } }

theorem witness_StatementsQueueAndSign :
    (let s := asking { released with statementPage := pendingPage 1 0 [] };
      s.client? 0 = some declA ∧ s.porchPending 0 .statement = true ∧ (∀ q ∈ s.statements.queue, q.asker.slot? ≠ some 0) ∧ s.statements.queue.length < 3 ∧
      3 ≤ ({ s with statements := { s.statements with queue := List.replicate 3 ⟨.readout, [], none⟩ } } : State).statements.queue.length) ∧
    (stating .n .running (.tenant 0)).awake = true ∧ (stating .n .running (.tenant 0)).statements.queue = ⟨.tenant 0, zeros 16, some [0]⟩ :: [] ∧
    (stating .b .readout .readout).power.phase = .b ∧ (stating .b .readout .readout).boot.stage = .readout := by decide +kernel

theorem witness_NotesAndConfirmations :
    (let s := fun (byte3 type : Byte) => asking { released with notePage := pendingPage 1 byte3 [(4, type)] };
      (s 0 1).client? 0 = some declA ∧ (s 0 1).porchPending 0 .note = true ∧ (∀ r ∈ (s 0 1).audit.queue, r.onCommit ≠ .note 0) ∧
      ((s 1 1).tenant 0).notePage.byte3 ≠ BitVec.ofNat 8 (0 : TSlot).val ∧ 0x80 ≤ (((s 0 0x80).tenant 0).notePage.byte 4).toNat ∧
      (((s 0 0x7F).tenant 0).notePage.byte 4).toNat < 0x80 ∧ (s 0 1).notesNow 0 < 8 ∧
      8 ≤ ({ s 0 1 with tenants := (s 0 1).tenants.set 0 { (s 0 1).tenant 0 with notesInLap := (0, 8) } } : State).notesNow 0) ∧
    (let s := fun (frozen : Bool) (named : Byte) => asking { released with frozen := frozen, generation := 1, confirmPage := pendingPage 1 0 [(5, named)] };
      (s false 1).client? 0 = some declA ∧ (s false 1).porchPending 0 .confirm = true ∧ beNat (((s false 1).tenant 0).confirmPage.range 4 2) = 1 ∧
      beNat (((s false 2).tenant 0).confirmPage.range 4 2) = 2 ∧ ((s true 1).tenant 0).frozen = true ∧ ((s false 1).trial 0).onTrial = false) := by
  decide +kernel

theorem witness_NoncesAndCounters : (∀ r ∈ [(1 : Byte), 2, 3], let s := asking { released with noncePage := pendingPage r 0 [] }
      s.client? 0 = some declA ∧ s.porchPending 0 .nonce = true ∧ (s.tenant 0).noncePage.request = r ∧ (s.tenant 0).frozen = false ∧ s.power.commitLow = false ∧
      s.counter (tenantCounterAt 0) < 0xFFFFFFFE ∧
      0xFFFFFFFE ≤ ({ s with vault := Cells.writeRange erased [] (tenantCounterAt 0) (be 4 0xFFFFFFFE) } : State).counter (tenantCounterAt 0)) ∧
    (released.frozen = false ∧ ({ released with frozen := true } : Tenant).frozen = true ∧ (tripped .n).power.commitLow = true) := by decide +kernel

/-- Channel 0 of Badger enabled without filter, one rule that is always true and withdraws the permit. -/
def program0 (rules : List BRule) : BProgram := ⟨0, none, true, [⟨true, false, false, false, 0, 0, 0⟩], [], rules⟩

/-- The rule that is true at every tick and clears the permit latch. -/
def alwaysClear : BRule := ⟨15, 0, 0, 0, 0, 0x08, 0, 0, 0, 0⟩

/-- The policy with egress on SENSE0 and tamper on SENSE1, and the tenant of slot 0 as guard. -/
def policy0 : ActuatorPolicy := ⟨[0], some 0, 1000, some 1⟩

/-- Badger running a program under the policy. -/
def badgering (rules : List BRule) (b : Badger → Badger) : State :=
  { served with badger := b { Badger.reset with program := some (program0 rules), policy := some policy0, started := true, guards := [(0, .released)] } }

theorem witness_BadgerTickDrivesActEn : (badgering [] id).badgerRuns = some (program0 []) ∧ (badgering [] id).switchDue? = none ∧
    (badgering [] (fun b => { b with inactive := some (program0 []) })).switchDue? = some (program0 []) ∧ (badgering [] id).badger.policy = some policy0 ∧ (program0 []).rules = [] ∧
    (∃ r ∈ (program0 [alwaysClear]).rules, r.source = 15 ∧ r.mask = 0 ∧ r.value = 0 ∧ r.actions.getLsbD 3 = true) ∧
    (badgering [] (fun b => { b with started := false })).badger.started = false ∧ up.badgerRuns = none ∧ up.inReset = false ∧
    State.reset.badgerRuns = none ∧ State.reset.inReset = true ∧
    (mailing .n { channel0 with sideB := { channel0.sideB with identity := 5 } } [(0, true)]).badgerRuns = none := by decide +kernel

theorem witness_BadgerSamplesFollowThePins : (badgering [] id).badgerRuns = some (program0 []) ∧ (badgering [] id).switchDue? = none ∧ ((program0 []).channel 0).enable = true ∧
    ((program0 []).channel 0).glitch = false ∧ ((program0 []).channel 0).mode = 0 ∧ ((program0 []).channel 1).enable = false ∧
    (thresholds ((program0 []).channel 0).threshold).1 * 1200 + (2 * 1200 + 1000) < 100 * 3300 ∧
    100 * 0 + (2 * 1200 + 1000) < (thresholds ((program0 []).channel 0).threshold).2 * 1200 := by decide +kernel

theorem witness_BadgerBetweenTicks :
    (let s := badgering [] (fun b => { b with timers := b.timers.set 0 1 }); s.badgerRuns = some (program0 []) ∧ s.badger.timers[(0 : Fin 8)] = 1 ∧ s.badger.timers[(1 : Fin 8)] ≠ 1) ∧
    (let s := badgering [] (fun b => { b with egress := true, egressLeft := 1, tamper := true, tamperLeft := 1 });
      s.badgerRuns = some (program0 []) ∧ s.badger.policy = some policy0 ∧ s.badger.egress = true ∧ s.badger.egressLeft = 1 ∧ s.badger.input policy0.egress = false ∧
      s.badger.tamper = true ∧ s.badger.tamperLeft = 1 ∧ s.badger.input policy0.tamper = false) ∧
    (let s := badgering [] (fun b => { b with guards := [(0, .held)] });
      s.awake = true ∧ s.badger.policy = some policy0 ∧ policy0.guards.map (fun t => (t, (s.tenant t).guard)) ≠ s.badger.guards ∧
      policy0.guards.map (fun t => (t, ((badgering [] id).tenant t).guard)) = (badgering [] id).badger.guards) ∧
    (let s := badgering [] (fun b => { b with inactive := some (program0 [alwaysClear]) });
      s.badgerRuns = some (program0 []) ∧ s.switchDue? = some (program0 [alwaysClear])) := by decide +kernel

/-! ### Frames that pass every row of R352 -/

/-- Unit numbers other than the unit's own, which is all zeros while OTP is blank. -/
def unit1 : Bytes := List.replicate 16 1
def unit2 : Bytes := List.replicate 16 2

/-- A session under the key of zeros, in which no frame was heard. -/
def session0 (p : Peer) : Session := ⟨p, zeros 4, zeros 32, zeros 32, false, 0, none, 7, 0, 0⟩

/-- A frame to the unit before its check, from the module at node 5 or from unit 1. -/
def rawFrame (fromModule : Bool) (k : Nat) (flags : Byte) (payload : Bytes) : Frame :=
  ⟨kindPriority k, if fromModule then 5 else 0, k, if fromModule then [] else unit1, flags, 0, zeros 16, 3, 1, payload, zeros (if flags = 0 then 2 else 8)⟩

/-- The frame with its CRC-16. -/
def plainFrame (fromModule : Bool) (k : Nat) (payload : Bytes) : Frame :=
  let f := rawFrame fromModule k 0 payload
  { f with check := be 2 (crc16 (f.head ++ f.payload)).toNat }

/-- The frame sealed under `session0`. -/
def sealedFrame (fromModule : Bool) (k : Nat) (payload : Bytes) : Frame :=
  let f := rawFrame fromModule k 1 payload
  let c := gcmSeal (zeros 32) (sealNonce (zeros 4) true 1) f.head payload
  { f with payload := c.1, check := c.2.take 8 }

theorem plain_check (m : Bool) (k : Nat) (p : Bytes) :
    (plainFrame m k p).check = be 2 (crc16 ((plainFrame m k p).head ++ (plainFrame m k p).payload)).toNat := rfl

theorem passes_of {s : State} {f : Frame} {k : Nat} {p : Bytes} (h : Arrives s f k) (e : (s.receive f).2 = some p) : ∃ r, Passes s f k p r :=
  ⟨_, h, Prod.ext rfl e⟩

theorem noteFrame_keeps (s : State) (f : Frame) : (s.noteFrame f).sessions = s.sessions ∧ (s.noteFrame f).clock = s.clock ∧ (s.noteFrame f).otp = s.otp := by
  refine ⟨?_, ?_, ?_⟩ <;> (simp only [State.noteFrame, apply_ite State.sessions, apply_ite State.clock, apply_ite State.otp]; repeat (split <;> try rfl))

/-- What was sealed passes, where the session is held and the unit hears. -/
theorem passes_sealed {s : State} {f : Frame} {k : Nat} {p : Bytes} {x : Session} (arr : Arrives s f k) (lap : 35 ≤ s.clock.startLap) (form : f.formOk = true)
    (sl : f.isSealed = true) (own : f.peer ≠ .unit s.unitNumber) (hx : s.session? f.peer = some x)
    (hp : gcmOpen x.toUs (sealNonce x.ident (!x.joiner) f.counter.toNat) f.head f.payload f.check = some p) (hc : contentOk f.kind p = true)
    (hm : f.kind = Code.fParcel → mustSeal f.kind p = true) (fresh : x.heard = none) : ∃ r, Passes s f k p r := by
  obtain ⟨aw, op, idl, adr, kd⟩ := arr
  refine passes_of ⟨aw, op, idl, adr, kd⟩ ?_
  obtain ⟨e1, e2, e3⟩ := noteFrame_keeps s f
  have hearing : s.canHear = true := by simp [State.canHear, aw, op, idl]
  have phase : s.power.phase ≠ .s := by
    intro h
    simp [State.awake, h] at aw
  have ses : (s.noteFrame f).session? f.peer = some x := by rw [← hx]; unfold State.session?; rw [e1]
  have num : (s.noteFrame f).unitNumber = s.unitNumber := by unfold State.unitNumber State.otpBytes State.otpWord; rw [e3]
  have lst : (s.noteFrame f).listening = false := by unfold State.listening; rw [e2]; exact decide_eq_false (by omega)
  unfold State.receive State.hear
  simp only [phase, hearing, adr, lst, if_false, Bool.not_true, Bool.false_eq_true, or_self, false_and]
  unfold State.checkFrame
  simp only [form, sl, Bool.not_true, Bool.false_eq_true, if_false, if_true]
  unfold State.openSealed
  simp only [num, own, if_false, ses, hp, hc, fresh, Bool.not_true, Bool.false_eq_true, false_or]
  rw [if_neg (by rintro ⟨h, h'⟩; rw [hm h] at h'; cases h')]

theorem sealed_lengths (m : Bool) (k : Nat) (p : Bytes) : (sealedFrame m k p).payload.length = p.length ∧ (sealedFrame m k p).check.length = 8 := by
  have h := gcmSeal_lengths goodKey_zero (sealNonce (zeros 4) true 1) (rawFrame m k 1 p).head p (by decide)
  constructor
  · exact h.1
  · show ((gcmSeal _ _ _ _).2.take 8).length = 8
    rw [List.length_take, h.2]
    rfl

theorem sealed_head (m : Bool) (k : Nat) (p : Bytes) : (sealedFrame m k p).head = (rawFrame m k 1 p).head := by
  have h := (sealed_lengths m k p).1
  unfold Frame.head
  rw [h]
  rfl

/-- A sealed frame's form asks for its head and the length of its payload only. -/
theorem form_eq {f g : Frame} (e : f = { g with payload := f.payload, check := f.check }) (n : f.payload.length = g.payload.length) (w : f.wf = g.wf)
    (sl : g.isSealed = true) : f.formOk = g.formOk := by
  have sl' : f.isSealed = true := by rw [e]; exact sl
  have e1 : f.kind = g.kind := by rw [e]
  have e2 : f.priority = g.priority := by rw [e]
  have e3 : f.srcNode = g.srcNode := by rw [e]
  have e4 : f.flags = g.flags := by rw [e]
  unfold Frame.formOk
  rw [w, n, sl, sl', e1, e2, e3, e4]
  simp

theorem sealed_form (m : Bool) (k : Nat) (p : Bytes) (h : (rawFrame m k 1 p).formOk = true) : (sealedFrame m k p).formOk = true := by
  obtain ⟨h1, h2⟩ := sealed_lengths m k p
  rw [← h]
  refine form_eq rfl h1 ?_ (show (1 : Byte).getLsbD 0 = true by decide)
  unfold Frame.wf
  rw [h1, h2]
  rfl

/-- A frame sealed under `session0` passes at a unit that hears it and holds the session. -/
theorem sealed_passes {s : State} (m : Bool) (k : Nat) (p : Bytes) (aw : s.awake = true) (op : s.link.opened = true) (idl : s.link.idleSeen = true)
    (lap : 35 ≤ s.clock.startLap) (num : s.unitNumber = zeros 16) (hs : s.sessions = [session0 (.module 5), session0 (.unit unit1)])
    (form : (rawFrame m k 1 p).formOk = true) (hc : contentOk k p = true) (hm : k = Code.fParcel → mustSeal k p = true) :
    ∃ r, Passes s (sealedFrame m k p) k p r := by
  have open1 : gcmOpen (zeros 32) (sealNonce (zeros 4) true 1) (sealedFrame m k p).head (sealedFrame m k p).payload (sealedFrame m k p).check = some p := by
    rw [sealed_head]
    exact gcmOpen_gcmSeal goodKey_zero (sealNonce (zeros 4) true 1) (rawFrame m k 1 p).head p (by decide) 8 (by decide)
  refine passes_sealed (x := session0 (if m then .module 5 else .unit unit1)) ⟨aw, op, idl, ?_, rfl⟩ lap (sealed_form m k p form) (show (1 : Byte).getLsbD 0 = true by decide) ?_ ?_ open1 hc hm rfl
  · show ((0 : Byte) == 0xFF || ((0 : Byte) == 0 && zeros 16 == s.unitNumber)) = true
    rw [num]
    decide
  · rw [num]
    cases m
    · show Peer.unit unit1 ≠ Peer.unit (zeros 16)
      decide
    · show Peer.module 5 ≠ Peer.unit (zeros 16)
      decide
  · unfold State.session?
    rw [hs]
    cases m <;> rfl

/-- A frame with a good CRC-16 passes at a unit that hears it. -/
theorem passes_plain {s : State} {f : Frame} {k : Nat} (arr : Arrives s f k) (lap : 35 ≤ s.clock.startLap) (form : f.formOk = true)
    (sl : f.isSealed = false) (ck : f.check = be 2 (crc16 (f.head ++ f.payload)).toNat) (own : f.peer ≠ .unit s.unitNumber)
    (ms : mustSeal f.kind f.payload = false) : ∃ r, Passes s f k f.payload r := by
  obtain ⟨aw, op, idl, adr, kd⟩ := arr
  refine passes_of ⟨aw, op, idl, adr, kd⟩ ?_
  obtain ⟨e1, e2, e3⟩ := noteFrame_keeps s f
  have hearing : s.canHear = true := by simp [State.canHear, aw, op, idl]
  have phase : s.power.phase ≠ .s := by
    intro h
    simp [State.awake, h] at aw
  have num : (s.noteFrame f).unitNumber = s.unitNumber := by unfold State.unitNumber State.otpBytes State.otpWord; rw [e3]
  have lst : (s.noteFrame f).listening = false := by unfold State.listening; rw [e2]; exact decide_eq_false (by omega)
  unfold State.receive State.hear
  simp only [phase, hearing, adr, lst, if_false, Bool.not_true, Bool.false_eq_true, or_self, false_and]
  unfold State.checkFrame
  simp only [form, sl, Bool.not_true, Bool.false_eq_true, if_false]
  unfold State.openPlain
  simp only [num, own, ms, ← ck, ne_eq, not_true_eq_false, if_false, Bool.false_eq_true]

/-- The group of the link map: units 1 and 2, lead rank 5. -/
def group0 : LinkDecl := ⟨List.replicate 8 9, [unit1, unit2], 5⟩

/-- A running unit past its listen span, in a role, in session with the module at node 5 and with unit 1. -/
def linked (role : LinkRole) : State :=
  { up with
      clock := { up.clock with startLap := 100, boundaries := 100, lap := 100 }
      running := { up.running with manifest := some { manifestOfTenants [declL] with link := some group0 } }
      tenants := up.tenants.set 1 released
      sessions := [session0 (.module 5), session0 (.unit unit1)]
      link := { Link.reset with opened := true, idleSeen := true, beaconing := true, role := role, lead := if role = .member then some unit1 else none } }

/-- Unit 1 as its BEACON told it. -/
def heard1 (verified : Option Bool) (boot : Nat) : HeardUnit := ⟨unit1, boot, 0, List.replicate 8 9, 5, zeros 33, zeros 33, zeros 64, verified, false, 0⟩

theorem linked_hears (role : LinkRole) : (linked role).awake = true ∧ (linked role).link.opened = true ∧ (linked role).link.idleSeen = true ∧
    35 ≤ (linked role).clock.startLap ∧ (linked role).unitNumber = zeros 16 ∧ (linked role).sessions = [session0 (.module 5), session0 (.unit unit1)] :=
  ⟨rfl, rfl, rfl, show 35 ≤ 100 by decide, by cases role <;> decide +kernel, rfl⟩

/-- A sealed frame passes at `linked`. -/
theorem at_linked (role : LinkRole) (m : Bool) (k : Nat) (p : Bytes) (form : (rawFrame m k 1 p).formOk = true) (hc : contentOk k p = true)
    (hm : k = Code.fParcel → mustSeal k p = true) : ∃ r, Passes (linked role) (sealedFrame m k p) k p r :=
  sealed_passes m k p (linked_hears role).1 (linked_hears role).2.1 (linked_hears role).2.2.1 (linked_hears role).2.2.2.1 (linked_hears role).2.2.2.2.1
    (linked_hears role).2.2.2.2.2 form hc hm


/-- A frame with a good CRC-16 passes at `linked`. -/
theorem at_plain (role : LinkRole) {f : Frame} {k : Nat} (adr : f.addresses (zeros 16) = true) (kd : f.kind = k) (form : f.formOk = true)
    (sl : f.isSealed = false) (ck : f.check = be 2 (crc16 (f.head ++ f.payload)).toNat) (own : f.peer ≠ .unit (zeros 16))
    (ms : mustSeal f.kind f.payload = false) : ∃ r, Passes (linked role) f k f.payload r := by
  have n := (linked_hears role).2.2.2.2.1
  exact passes_plain ⟨(linked_hears role).1, (linked_hears role).2.1, (linked_hears role).2.2.1, by rw [n]; exact adr, kd⟩ (linked_hears role).2.2.2.1 form sl ck
    (by rw [n]; exact own) ms

theorem witness_FramesAreCheckedInRowOrder :
    let s := linked .member;
    let f := rawFrame false Code.fRead 1 [0, 0, 0, 1];
    frameOf (.readFrame f) = some (f, Code.fRead) ∧ Arrives s f Code.fRead ∧ s.power.phase ≠ .s ∧ ¬(s.clock.startLap < 35) ∧
    (up.canHear = false ∧ ({ f with kind := 0 } : Frame).kind ≠ Code.fRead) ∧
    (({ s with clock := { s.clock with startLap := 34 } } : State).clock.startLap < 35 ∧ f.dstNode = 0) ∧
    ({ f with priority := 9 } : Frame).formOk = false ∧ (f.formOk = true ∧ f.isSealed = true ∧ f.peer ≠ .unit s.unitNumber ∧ s.session? f.peer = some (session0 (.unit unit1))) ∧
    (({ s with sessions := [] } : State).session? f.peer = none) ∧
    (let g := plainFrame false Code.fElect (zeros 9);
      g.formOk = true ∧ g.isSealed = false ∧ g.check = be 2 (crc16 (g.head ++ g.payload)).toNat ∧ mustSeal g.kind g.payload = false ∧ g.peer ≠ .unit s.unitNumber) ∧
    (let g := plainFrame false Code.fParcel (1 :: zeros 2 ++ [0xFF, 0xFF, 0, 0, 0]);
      g.formOk = true ∧ g.isSealed = false ∧ mustSeal g.kind g.payload = true) := by
  refine ⟨rfl, ⟨rfl, rfl, rfl, by decide +kernel, rfl⟩, by decide +kernel, by decide +kernel, by decide +kernel, by decide +kernel, by decide +kernel, by decide +kernel, by decide +kernel, by decide +kernel, by decide +kernel⟩

/-- A sealed frame's rows: it opens and its counter is new. -/
theorem witness_SealedFrameRows : ∃ r, Passes (linked .member) (sealedFrame true Code.fRead [0, 0, 0, 1]) Code.fRead [0, 0, 0, 1] r :=
  at_linked .member true Code.fRead [0, 0, 0, 1] (by decide +kernel) (by decide +kernel) (by decide +kernel)

/-- Before the link opens; open with no BEACON sent yet; asleep with BEACONs. -/
def opening (role : LinkRole) (opened : Bool) : State := { linked role with link := { Link.reset with opened := opened, role := role, heard := [{ heard1 none 7 with leadFlag := true }] } }

theorem witness_TheLinkOpensAndBeacons : (opening .solo false).awake = true ∧ (opening .solo false).link.opened = false ∧ (opening .solo false).link.role ≠ .off ∧
    (opening .off false).link.role = .off ∧ (opening .member true).link.opened = true ∧ (opening .member true).link.beaconing = false ∧
    (opening .member true).link.heard.find? (fun h => h.leadFlag && h.group == (opening .member true).group) = some { heard1 none 7 with leadFlag := true } ∧
    (linked .lead).link.beaconing = true ∧ (linked .lead).link.openRecorded = false ∧ (linked .lead).canHear = true ∧ up.link.opened = false ∧
    (let s := { asleep none true with link := { (asleep none true).link with beaconing := true } }; s.power.phase = .s ∧ s.link.beaconing = true ∧ s.sleep.resumeAt = none) := by
  decide +kernel

/-- A lead with frames queued: an ADMIT, a TIME and a REFUSE to unit 1. -/
def outgoing (o : OutFrame) (sent : Nat) : State :=
  { linked .lead with
      sessions := [{ session0 (.unit unit1) with sent := sent }]
      link := { (linked .lead).link with outbox := [outFrame (.peer (.unit unit1)) Code.fData 0 true [], o] } }

theorem witness_FramesGoOutByPriority :
    let time := outFrame (.peer (.unit unit1)) Code.fTime 0 true (zeros 8);
    let leave := outFrame (.peer (.unit unit1)) Code.fLeave 0 true [0];
    let elect := outFrame .everyone Code.fElect 0 false (zeros 9);
    let rest := [outFrame (.peer (.unit unit1)) Code.fData 0 true []];
    (∀ o ∈ [time, leave, elect], (outgoing o 0).awake = true ∧ (outgoing o 0).link.opened = true ∧ (outgoing o 0).link.beaconing = true ∧ (outgoing o 0).link.idleSeen = true ∧
      nextFrame? ((outgoing o 0).link.outbox.filter (outgoing o 0).sendable) = some (o, rest)) ∧
    (outgoing elect 0).sendSession? elect = none ∧ (outgoing time 0xFFFFFFFE).sendSession? time = some { session0 (.unit unit1) with sent := 0xFFFFFFFE } ∧
    nextCounter time { session0 (.unit unit1) with sent := 0xFFFFFFFE } ≤ 0xFFFFFFFF ∧ 0xFFFFFFFF < nextCounter time { session0 (.unit unit1) with sent := 0xFFFFFFFF } ∧
    time.kind ≠ Code.fLeave ∧ leave.kind = Code.fLeave ∧ time.kind ≠ Code.fAdmit ∧ (outgoing elect 0).servesLdir = true ∧
    ({ outgoing elect 0 with boot := { up.boot with alertbStrap := true } } : State).servesLdir = false := by decide +kernel

/-- A BEACON request and a BEACON of unit 1 to all. -/
def beaconFrame (p : Bytes) : Frame :=
  let f := { rawFrame false Code.fBeacon 0 p with dstNode := 0xFF, dstUnit := [] };
  { f with check := be 2 (crc16 (f.head ++ f.payload)).toNat }

theorem beacon_check (p : Bytes) : (beaconFrame p).check = be 2 (crc16 ((beaconFrame p).head ++ (beaconFrame p).payload)).toNat := rfl

/-- The BEACON of unit 1: flags, the own group, rank 4, epoch 0, boot counter 7, keys and signature of zeros. -/
def beaconOf (flags : Byte) : Bytes := [flags] ++ List.replicate 8 9 ++ [4, 0] ++ be 4 7 ++ zeros 130

theorem witness_BeaconsAreHeard : (∃ r, Passes (linked .lead) (beaconFrame []) Code.fBeacon [] r) ∧ (beaconOf 1).length = 145 ∧
    (∃ r, Passes (linked .member) (beaconFrame (beaconOf 1)) Code.fBeacon (beaconOf 1) r) ∧ (linked .lead).link.lastAnswer = none ∧
    (byteAt (beaconOf 1) 0).getLsbD 0 = true ∧ (byteAt (beaconOf 0) 0).getLsbD 0 = false ∧ (linked .member).inGroup = true ∧
    slice (beaconOf 1) 1 8 = (linked .member).group ∧ (linked .member).peers.contains unit1 = true ∧
    ({ linked .member with sessions := [] } : State).session? (.unit unit1) = none ∧ (linked .member).link.lead = some unit1 ∧
    ({ linked .lead with boot := { (linked .lead).boot with cfg1 := 6 } } : State).better 4 unit1 = true ∧
    ({ linked .lead with boot := { (linked .lead).boot with cfg1 := 6 } } : State).better 5 unit1 = false := by
  refine ⟨at_plain _ (by decide +kernel) rfl (by decide +kernel) (by decide +kernel) (beacon_check _) (by decide +kernel) (by decide +kernel),
    by decide +kernel, at_plain _ (by decide +kernel) rfl (by decide +kernel) (by decide +kernel) (beacon_check _) (by decide +kernel) (by decide +kernel), ?_⟩
  decide +kernel

/-- A unit in a role that has heard unit 1. -/
def hearing (role : LinkRole) (verified : Option Bool) (boot : Nat) : State := { linked role with link := { (linked role).link with heard := [heard1 verified boot] } }

theorem witness_BeaconsAreVerified : (hearing .member none 7).awake = true ∧ (hearing .member none 7).inGroup = true ∧
    (hearing .member none 7).heardUnit? unit1 = some (heard1 none 7) ∧ (heard1 none 7).verified = none ∧ (heard1 none 7).group = (hearing .member none 7).group ∧
    (hearing .member none 7).link.joins = [] ∧ (heard1 (some true) 7).verified ≠ none ∧ (heard1 none 7).boot = field (beaconOf 1) 11 4 ∧
    (linked .member).heardUnit? unit1 = none := by
  decide +kernel

/-- A unit's JOIN: own boot counter 0, joiner's 7. -/
def joinOf : Bytes := be 4 0 ++ be 4 7 ++ zeros 32

theorem witness_JoinsAreRefusedOrPend : (∃ r, Passes (linked .lead) (plainFrame false Code.fJoin joinOf) Code.fJoin joinOf r) ∧
    (∃ r, Passes (linked .solo) (plainFrame true Code.fJoin (zeros 69)) Code.fJoin (zeros 69) r) ∧
    (plainFrame false Code.fJoin joinOf).dstNode = 0 ∧ (plainFrame true Code.fJoin (zeros 69)).peer = .module 5 ∧ (linked .solo).linkTenant? 5 = some (1, declL) ∧
    field (zeros 69) 0 4 = (linked .solo).boot.counter ∧ ((linked .solo).tenant 1).life = .released ∧ ((linked .solo).tenant 1).frozen = false ∧
    (linked .solo).link.joins.all (fun j => !(j.peer == .module 5 && j.request == 3)) = true ∧ (linked .solo).link.joins.length < 4 ∧
    (plainFrame false Code.fJoin joinOf).peer = .unit unit1 ∧ (linked .lead).peers.contains unit1 = true ∧ (linked .lead).heardUnit? unit1 = none ∧
    (hearing .lead (some true) 7).heardUnit? unit1 = some (heard1 (some true) 7) ∧ (heard1 (some true) 7).group = (hearing .lead (some true) 7).group ∧
    (heard1 (some true) 7).boot = field joinOf 4 4 ∧ field joinOf 0 4 = (hearing .lead (some true) 7).boot.counter ∧ (hearing .lead (some true) 7).placesTaken unit1 < 16 := by
  refine ⟨at_plain _ (by decide +kernel) rfl (by decide +kernel) (by decide +kernel) (plain_check _ _ _) (by decide +kernel) (by decide +kernel),
    at_plain _ (by decide +kernel) rfl (by decide +kernel) (by decide +kernel) (plain_check _ _ _) (by decide +kernel) (by decide +kernel), ?_⟩
  decide +kernel

/-- A pending JOIN of the module at node 5. -/
def joining : PendingJoin := ⟨.module 5, 3, 7, zeros 33, zeros 16, zeros 16, 100⟩

/-- A member whose JOIN to unit 1 waits for its ADMIT. -/
def admitting : State :=
  let s := hearing .member (some true) 7;
  { s with link := { s.link with request := some ⟨outFrame (.peer (.unit unit1)) Code.fJoin 3 false [], 0, none, none⟩ } }

theorem witness_AdmitsOpenSessions :
    (let s := { linked .solo with link := { (linked .solo).link with joins := [joining] } };
      s.awake = true ∧ s.link.opened = true ∧ s.link.beaconing = true ∧ s.link.joins = joining :: [] ∧ ∃ key z res, s.joinSecret joining = some (key, z, res)) ∧
    (let s := { linked .lead with link := { (linked .lead).link with joins := [{ joining with peer := .unit unit1 }] } }; s.joinSecret { joining with peer := .unit unit1 } = none) ∧
    up.link.joins = [] ∧
    (let f := sealedFrame false Code.fAdmit (zeros 21);
      Arrives admitting f Code.fAdmit ∧ 35 ≤ admitting.clock.startLap ∧ f.formOk = true ∧ f.isSealed = true ∧ admitting.joinedUnit? f = some (heard1 (some true) 7)) ∧
    frame0.kind ≠ Code.fAdmit := by
  refine ⟨⟨rfl, rfl, rfl, rfl, _, _, _, rfl⟩, by decide +kernel, rfl, ⟨⟨rfl, rfl, rfl, ?_, rfl⟩, by decide +kernel, sealed_form false _ _ (by decide +kernel), rfl, rfl⟩, by decide +kernel⟩
  show ((0 : Byte) == 0xFF || ((0 : Byte) == 0 && zeros 16 == admitting.unitNumber)) = true
  decide +kernel

/-- A unit whose PARCEL fragment waits for its reply. -/
def requesting (retry : Option Nat) (repeats : Nat) : State :=
  { linked .member with
      link := { (linked .member).link with request := some ⟨outFrame (.peer (.unit unit1)) Code.fParcel 3 true (1 :: zeros 7), repeats, retry, some (90, 0)⟩ }
      update := { up.update with exporting := some ⟨1, unit1, [], 0, 3, zeros 500, 3, 0, 0, []⟩ } }

theorem at_requesting (retry : Option Nat) (repeats : Nat) (k : Nat) (p : Bytes) (form : (rawFrame false k 1 p).formOk = true) (hc : contentOk k p = true)
    (hm : k = Code.fParcel → mustSeal k p = true) : ∃ r, Passes (requesting retry repeats) (sealedFrame false k p) k p r :=
  sealed_passes false k p rfl rfl rfl (show 35 ≤ 100 by decide) (show (linked .member).unitNumber = zeros 16 from (linked_hears .member).2.2.2.2.1) rfl form hc hm

theorem witness_RequestsWaitRepeatAndEnd :
    (∃ r, Passes (requesting none 0) (sealedFrame false Code.fWait [11, 0, 9]) Code.fWait [11, 0, 9] r) ∧
    (∃ q, (requesting none 0).requestOf? (sealedFrame false Code.fWait [11, 0, 9]) (byteAt [11, 0, 9] 0).toNat = some q) ∧
    (requesting none 0).requestOf? (sealedFrame false Code.fWait [5, 0, 9]) (byteAt [5, 0, 9] 0).toNat = none ∧
    (∃ r, Passes (requesting none 0) (sealedFrame false Code.fRefuse [0x12, 11, 0, 0, 0, 0, 0]) Code.fRefuse [0x12, 11, 0, 0, 0, 0, 0] r) ∧
    (∃ q, (requesting none 0).requestOf? (sealedFrame false Code.fRefuse [0x12, 11, 0, 0, 0, 0, 0]) (byteAt [0x12, 11, 0, 0, 0, 0, 0] 1).toNat = some q ∧
      q.frame.kind = Code.fParcel ∧ byteAt q.frame.payload 0 = 0x01) ∧
    field [0x12, 11, 0, 0, 0, 0, 0] 5 2 = 0 ∧ field [0x12, 11, 0, 0, 0, 0, 1] 5 2 ≠ 0 ∧
    (requesting none 2).awake = true ∧ (∃ q, (requesting none 2).link.request = some q ∧ q.retryAt = none ∧ q.sentAt = some (90, 0) ∧ (requesting none 2).unsent q = false ∧ q.repeats < 3) ∧
    (requesting none 2).link.opened = true ∧ ({ requesting none 2 with power := (inPhase .s).power } : State).power.phase = .s ∧
    (∃ q, (requesting none 3).link.request = some q ∧ 3 ≤ q.repeats) ∧ up.link.request = none ∧ (∃ q, (requesting (some 110) 0).link.request = some q ∧ q.retryAt = some 110) := by
  refine ⟨at_requesting _ _ _ _ (by decide +kernel) (by decide +kernel) (by decide +kernel), ⟨_, rfl⟩, rfl,
    at_requesting _ _ _ _ (by decide +kernel) (by decide +kernel) (by decide +kernel), ⟨⟨outFrame (.peer (.unit unit1)) Code.fParcel 3 true (1 :: zeros 7), 0, none, some (90, 0)⟩, by decide +kernel, rfl, by decide +kernel⟩, by decide +kernel, by decide +kernel, rfl,
    ⟨_, rfl, rfl, rfl, by decide +kernel, by decide⟩, rfl, rfl, ⟨_, rfl, by decide⟩, rfl, ⟨_, rfl, rfl⟩⟩

/-- The link tenant in restart; with a request kept under the identifier of `rawFrame`; with a write of it waiting. -/
def restaged : State := { linked .solo with tenants := (linked .solo).tenants.set 1 { released with restarting := true } }
def repeated (reason : Option Byte) : State :=
  { linked .solo with tenants := (linked .solo).tenants.set 1 { released with linkReq := [⟨3, Code.fRead, 0x2000, 1, reason, false⟩] } }
def writingLink : State := { linked .solo with tenants := (linked .solo).tenants.set 1 { released with write := some ⟨.program 0x2000 [0], 0, false, 0x02, none⟩ } }

theorem witness_ModuleReadsAndWritesAreServed :
    (∃ r, Passes (linked .solo) (sealedFrame true Code.fRead [0, 0x20, 0, 1]) Code.fRead [0, 0x20, 0, 1] r) ∧
    (∃ r, Passes (linked .solo) (sealedFrame false Code.fRead [0, 0x20, 0, 1]) Code.fRead [0, 0x20, 0, 1] r) ∧
    (∃ r, Passes (linked .solo) (sealedFrame true Code.fWrite [1, 0, 0x20, 0, 1, 0xAA]) Code.fWrite [1, 0, 0x20, 0, 1, 0xAA] r) ∧
    (∃ r, Passes (linked .solo) (sealedFrame true Code.fWrite [2, 0, 0x20, 0, 0]) Code.fWrite [2, 0, 0x20, 0, 0] r) ∧
    (∃ r, Passes (linked .solo) (sealedFrame true Code.fWrite [3, 0, 0x20, 0, 0]) Code.fWrite [3, 0, 0x20, 0, 0] r) ∧
    (linked .solo).linkTenant? 5 = some (1, declL) ∧ ((linked .solo).tenant 1).life = .released ∧ ((linked .solo).tenant 1).restarting = false ∧
    (linked .solo).keptRequest? 1 (rawFrame true Code.fRead 1 []) = none ∧ declL.writeMode ≠ .readOnly ∧ ((linked .solo).tenant 1).write = none ∧
    ((linked .solo).tenant 1).accepted = none ∧ (declL.region 0x2000).isPage = false ∧ ((linked .solo).tenant 1).writes = [] ∧
    (linked .solo).linkTenant? 6 = none ∧ (declL.region 0x3B000).isPage = true ∧ WriteOp.isProgram (.program 0x3B000 [0]) = true ∧
    ({ declL with writeMode := .readOnly } : TenantDecl).writeMode = .readOnly ∧ ((restaged).tenant 1).restarting = true ∧
    (∀ reason ∈ [none, some (0 : Byte), some Code.policy], ∃ q, (repeated reason).keptRequest? 1 { rawFrame true Code.fRead 1 [] with flags := 3 } = some q ∧ q.outcome = reason) ∧
    ((writingLink).tenant 1).write ≠ none ∧
    (let walk := fun (a n : Nat) => ((linked .solo).latch (Ev.tenant 1 5)).walkRead 1 declL false 2 a n ⟨[], none, none, none, none⟩;
      (walk 0x2000 1).missed = some 0x2000 ∧ (walk 0x2000 1).spoof = none ∧ (walk 0x50000 1).spoof = some 0x50000 ∧
      ({ linked .solo with tenants := (linked .solo).tenants.set 1 { released with life := .degraded } } : State).leafAnswer 1 declL false 0x2000 = .denied ∧
      ((walk 0x3F000 1).missed = none ∧ (walk 0x3F000 1).spoof = none ∧ (walk 0x3F000 1).denied = none ∧ (walk 0x3F000 1).tampered = none)) := by
  refine ⟨at_linked _ _ _ _ (by decide +kernel) (by decide +kernel) (by decide +kernel), at_linked _ _ _ _ (by decide +kernel) (by decide +kernel) (by decide +kernel),
    at_linked _ _ _ _ (by decide +kernel) (by decide +kernel) (by decide +kernel), at_linked _ _ _ _ (by decide +kernel) (by decide +kernel) (by decide +kernel),
    at_linked _ _ _ _ (by decide +kernel) (by decide +kernel) (by decide +kernel), by decide +kernel, by decide +kernel, by decide +kernel, by decide +kernel, by decide +kernel,
    by decide +kernel, by decide +kernel, by decide +kernel, by decide +kernel, by decide +kernel, by decide +kernel, by decide +kernel, by decide +kernel, by decide +kernel, ?_, ?_⟩
  · intro reason h
    fin_cases h <;> exact ⟨⟨3, Code.fRead, 0x2000, 1, _, false⟩, by decide +kernel, rfl⟩
  decide +kernel

/-- A NOTICE of the link tenant unanswered. -/
def noticed (n : Nat) : State :=
  { linked .solo with tenants := (linked .solo).tenants.set 1 { released with notice := some (n, 100) } }

theorem witness_StatementsAcksAndNotices :
    (∃ r, Passes (linked .member) (sealedFrame false Code.fStatement (0 :: zeros 16)) Code.fStatement (0 :: zeros 16) r) ∧
    (∃ r, Passes (linked .member) (sealedFrame true Code.fStatement (0 :: zeros 16)) Code.fStatement (0 :: zeros 16) r) ∧
    (∃ r, Passes (linked .member) (sealedFrame false Code.fStatement [1, 0, 1, 0xD2]) Code.fStatement [1, 0, 1, 0xD2] r) ∧
    (∃ r, Passes (linked .member) (sealedFrame true Code.fAck []) Code.fAck [] r) ∧
    (∃ r, Passes (linked .member) (sealedFrame false Code.fNotice (zeros 64)) Code.fNotice (zeros 64) r) ∧
    (∃ r, Passes (linked .member) (sealedFrame false Code.fData [0, 0, 0, 0, 1, 0]) Code.fData [0, 0, 0, 0, 1, 0] r) ∧
    (linked .member).linkTenant? 5 = some (1, declL) ∧ (linked .member).porchPending 1 .statement = false ∧ (linked .member).statements.queue.length < 3 ∧
    ((noticed 3).tenant 1).notice = some (3, 100) ∧ 3 < 4 ∧ ((noticed 4).tenant 1).notice = some (4, 100) ∧ (noticed 4).decl? 1 = some declL ∧
    ((linked .solo).tenant 1).notice = none ∧ (∀ q ∈ (linked .member).statements.queue, q.asker ≠ .unit unit1 3) ∧
    ((linked .member).tenant 1).restarting = false ∧ (linked .member).keptRequest? 1 (rawFrame true Code.fStatement 1 (0 :: zeros 16)) = none ∧
    ((linked .member).tenant 1).life = .released ∧ ((linked .member).tenant 1).events = [] ∧ (noticed 3).awake = true ∧ (noticed 3).link.opened = true ∧
    (({ linked .member with tenants := (linked .member).tenants.set 1 { released with life := .degraded } } : State).tenant 1).life = .degraded := by
  refine ⟨at_linked _ _ _ _ (by decide +kernel) (by decide +kernel) (by decide +kernel), at_linked _ _ _ _ (by decide +kernel) (by decide +kernel) (by decide +kernel),
    at_linked _ _ _ _ (by decide +kernel) (by decide +kernel) (by decide +kernel), at_linked _ _ _ _ (by decide +kernel) (by decide +kernel) (by decide +kernel),
    at_linked _ _ _ _ (by decide +kernel) (by decide +kernel) (by decide +kernel), at_linked _ _ _ _ (by decide +kernel) (by decide +kernel) (by decide +kernel), ?_⟩
  decide +kernel

/-- A lead-eligible unit without a lead, in a cold window or none. -/
def cold (w : Option (Nat × Bool × Nat)) : State :=
  let s := linked .member;
  { s with boot := { s.boot with cfg1 := 6 }, link := { s.link with lead := none, cold := w, former := some unit1 } }

theorem witness_ElectionsMakeALead :
    let p := List.replicate 8 9 ++ [4];
    (∃ r, Passes (cold (some (100, false, 100))) (plainFrame false Code.fElect p) Code.fElect p r) ∧ (cold none).inGroup = true ∧ p.take 8 = (cold none).group ∧
    (cold none).better (byteAt p 8) unit1 = true ∧ (linked .member).better 0xFF unit1 = false ∧ (zeros 9).take 8 ≠ (cold none).group ∧
    (cold (some (100, false, 100))).awake = true ∧ (cold (some (100, false, 100))).leadEligible = true ∧ (cold (some (100, false, 355))).link.cold = some (100, false, 355) ∧
    355 ≤ 100 + 255 ∧ 100 + 255 < 356 ∧ ({ cold (some (100, false, 355)) with power := (inPhase .s).power } : State).power.phase = .s ∧
    (cold none).link.beaconing = true ∧ (cold none).link.role = .member ∧ (cold none).leadEligible = true ∧ (cold none).link.cold = none ∧ (cold none).link.lead = none ∧ (linked .member).leadEligible = false := by
  refine ⟨passes_of ⟨rfl, rfl, rfl, by decide +kernel, rfl⟩ (by decide +kernel), ?_⟩
  decide +kernel

theorem witness_SilenceAndLeaveEndSessions : (linked .member).link.role = .member ∧ (linked .member).link.lead = some unit1 ∧ (linked .member).awake = true ∧
    (let s := { linked .member with link := { (linked .member).link with foreign := some (unit2, 100) } }; s.link.lead = some unit1 ∧ s.link.foreign = some (unit2, 100)) ∧
    (linked .lead).link.role = .lead ∧ (linked .lead).session? (.unit unit1) = some (session0 (.unit unit1)) ∧ (linked .lead).session? (.unit unit2) = none ∧
    (let s := { linked .member with power := { (linked .member).power with phase := .s } }; s.power.phase = .s ∧ s.sleep.resumeAt = none ∧ s.link.lead = some unit1) ∧
    (let s := { linked .solo with tenants := (linked .solo).tenants.set 1 { released with life := .degraded } };
      (sealedFrame true Code.fLeave [0]).peer = .module 5 ∧ s.linkTenant? 5 = some (1, declL) ∧ (s.tenant 1).life = .degraded) ∧
    (∃ r, Passes (linked .member) (sealedFrame false Code.fLeave [0]) Code.fLeave [0] r) := by
  refine ⟨rfl, rfl, rfl, ⟨rfl, rfl⟩, rfl, by decide +kernel, by decide +kernel, ⟨rfl, rfl, rfl⟩, ⟨rfl, by decide +kernel, rfl⟩, at_linked _ _ _ _ (by decide +kernel) (by decide +kernel) (by decide +kernel)⟩

theorem witness_TimeComesFromTheLead : (∃ r, Passes (linked .member) (sealedFrame false Code.fTime (zeros 8)) Code.fTime (zeros 8) r) ∧
    (linked .member).link.role = .member ∧ (linked .member).link.lead = some unit1 ∧ (sealedFrame false Code.fTime (zeros 8)).peer = .unit unit1 ∧
    (∃ r, Passes (linked .lead) (sealedFrame false Code.fTime (zeros 8)) Code.fTime (zeros 8) r) ∧
    (let s := { linked .lead with link := { (linked .lead).link with timeDue := [unit1], leadSince := some 90 } };
      s.awake = true ∧ s.link.opened = true ∧ s.link.role = .lead ∧ s.link.timeDue ≠ [] ∧ s.link.leadSince = some 90) ∧ (linked .lead).link.timeDue = [] := by
  refine ⟨at_linked _ _ _ _ (by decide +kernel) (by decide +kernel) (by decide +kernel), rfl, rfl, rfl, at_linked _ _ _ _ (by decide +kernel) (by decide +kernel) (by decide +kernel),
    ⟨rfl, rfl, rfl, by decide +kernel, rfl⟩, rfl⟩

/-- A unit with a verified peer and an exchange due, in work or asked for. -/
def crossing (out : Option (Bytes × Nat × Nat)) (waiting : List (Bytes × Byte × Bytes)) : State :=
  let s := hearing .lead (some true) 7;
  { s with link := { s.link with crossDue := some 90, crossOut := out, crossIn := waiting } }

theorem at_crossing (out : Option (Bytes × Nat × Nat)) (p : Bytes) (n : p.length = 98) : ∃ r, Passes (crossing out []) (sealedFrame false Code.fCross p) Code.fCross p r := by
  refine sealed_passes false _ p rfl rfl rfl (show 35 ≤ 100 by decide) (show (linked .lead).unitNumber = zeros 16 from (linked_hears .lead).2.2.2.2.1) rfl ?_ rfl (fun h => by cases h)
  rw [form_eq (g := rawFrame false Code.fCross 1 (zeros 98)) rfl n (by unfold Frame.wf rawFrame; simp only [n]; rfl) (by decide +kernel)]
  decide +kernel

theorem witness_CrossExchangesRun : (crossing none []).awake = true ∧ (crossing none []).inGroup = true ∧ (crossing none []).link.crossOut = none ∧
    (crossing none []).link.crossDue = some 90 ∧ (crossing none []).crossNext? = some (unit1, 90) ∧ (linked .lead).crossNext? = none ∧ (crossing none []).link.opened = true ∧
    (crossing none []).link.joins = [] ∧ (∀ x ∈ (crossing none []).link.heard, x.verified = none → x.group ≠ (crossing none []).group) ∧
    (∃ x ∈ (hearing .lead none 7).link.heard, x.verified = none ∧ x.group = (hearing .lead none 7).group) ∧
    (crossing (some (unit2, 0, 90)) []).link.crossOut.map (·.1) ≠ some unit1 ∧
    (∃ r, Passes (crossing none []) (sealedFrame false Code.fCross (zeros 98)) Code.fCross (zeros 98) r) ∧ (sealedFrame false Code.fCross (zeros 98)).peer = .unit unit1 ∧
    (∃ r, Passes (crossing (some (unit1, 0, 90)) []) (sealedFrame false Code.fCross (zeros 98)) Code.fCross (zeros 98) r) ∧
    (crossing (some (unit1, 0, 90)) []).heardUnit? unit1 = some (heard1 (some true) 7) ∧ (crossing none [(unit1, 3, zeros 98)]).link.crossIn = (unit1, 3, zeros 98) :: [] ∧
    (crossing none []).isRunning = true := by
  refine ⟨rfl, rfl, rfl, rfl, by decide +kernel, by decide +kernel, rfl, rfl, by decide +kernel, by decide +kernel, by decide +kernel, at_crossing _ _ (by decide +kernel), rfl, at_crossing _ _ (by decide +kernel), by decide +kernel, rfl, rfl⟩

/-! ### The ledger and the trial records -/

theorem readRange_take {m : Cells} (h : Cells.wf erased m = true) (a n k : Nat) (l : k ≤ n) : (m.readRange erased a n).take k = m.readRange erased a k := by
  rw [readRange_eq h, readRange_eq h, ← List.map_take, List.take_range, Nat.min_eq_left l]

theorem readRange_drop {m : Cells} (h : Cells.wf erased m = true) (a n k : Nat) :
    (m.readRange erased a n).drop k = m.readRange erased (a + k) (n - k) := by
  rw [readRange_eq h, readRange_eq h]
  apply List.ext_getElem (by simp)
  intro i h1 h2
  simp [Nat.add_assoc]

theorem withLedger_live (req : LedgerReq) : (withLedger up req).liveHalf? = some false := by
  let v := Cells.writeRange erased (Cells.writeRange erased [] (halfAt false) (be 4 1)) commitWordAt (be 4 1)
  let tag := ({ up with keys := [(KeyId.vaultIntegrity, zeros 32)], vault := v } : State).ledgerTag (v.readRange erased (halfAt false) 4096)
  have wf : Cells.wf erased v = true := by decide +kernel
  have e : (withLedger up req).vault = v.writeRange erased (halfAt false + 0xFE0) tag := rfl
  have n : tag.length = 32 := kmac_length _ _ _ 32 (by decide)
  have wf' := wf_writeRange wf (halfAt false + 0xFE0) tag
  have hd : ((withLedger up req).half false).drop 0xFE0 = tag := by
    show ((withLedger up req).vault.readRange erased (halfAt false) 4096).drop 0xFE0 = tag
    rw [e, readRange_drop wf']
    have := readRange_writeRange_same wf (halfAt false + 0xFE0) tag
    rw [n] at this
    exact this
  have tk : ((withLedger up req).half false).take 0xFE0 = (v.readRange erased (halfAt false) 4096).take 0xFE0 := by
    show ((withLedger up req).vault.readRange erased (halfAt false) 4096).take 0xFE0 = _
    rw [e, readRange_take wf' _ _ _ (by decide), readRange_take wf _ _ _ (by decide)]
    exact readRange_writeRange_other wf _ _ _ _ (Or.inl (by decide))
  have tg : (withLedger up req).ledgerTag ((withLedger up req).half false) = tag := by
    show kmac (zeros 32) "BX4016 LEDGER" (((withLedger up req).half false).take 0xFE0) 32 = _
    rw [tk]
    rfl
  have ok : (withLedger up req).halfTagOk false = true := by
    unfold State.halfTagOk
    rw [hd, tg]
    simp only [beq_self_eq_true, Bool.and_true]
    rfl
  have sq : field ((withLedger up req).half false) 0 4 = 1 := by
    show beNat ((((withLedger up req).vault.readRange erased (halfAt false) 4096).drop 0).take 4) = 1
    rw [e, List.drop_zero, readRange_take wf' _ _ _ (by decide), readRange_writeRange_other wf _ _ _ _ (Or.inl (by decide))]
    decide +kernel
  have cw : (withLedger up req).vaultValue? commitWordAt = some 1 := by
    have b : (withLedger up req).vaultBytes commitWordAt 4 = v.readRange erased commitWordAt 4 := by
      show (withLedger up req).vault.readRange erased commitWordAt 4 = _
      rw [e]
      exact readRange_writeRange_other wf _ _ _ _ (Or.inr (by rw [n]; decide))
    have g : (withLedger up req).vaultBadIn commitWordAt 4 = false := rfl
    unfold State.vaultValue? State.vaultWord?
    rw [b, g]
    decide +kernel
  unfold State.liveHalf?
  simp only [ok, sq, cw, beq_self_eq_true, Bool.and_self, if_true]

theorem witness_VaultWritesAndLedgerUpdates : let s := withLedger up ⟨[], 0, .nothing⟩;
    s.awake = true ∧ s.isRunning = true ∧ s.liveHalf? = some false ∧ s.update.ledger = ⟨[], 0, .nothing⟩ :: [] ∧ s.power.commitLow = false ∧
    (vaultWriting.update.vaultWrite ≠ [] ∧ vaultWriting.awake = true) := by
  refine ⟨rfl, rfl, withLedger_live _, rfl, rfl, by decide, rfl⟩

/-- A trial record of slot 0 on trial, its other copy unreadable. -/
def trial0 : Trial := { Trial.none with seq := 1, onTrial := true, generation := 1 }

/-- A tenant on trial whose confirmation window ends at count 7. -/
def onTrial (ph : Phase) (x : Tenant) : State :=
  let s := withTenant (inPhase ph) declA { x with windowEnds := some 7 };
  let s := { s with
      keys := [(.vaultIntegrity, zeros 32)]
      vaultBad := [trialAt 0 1]
      vault := Cells.writeRange erased (Cells.writeRange erased [] (trialAt 0 0) trial0.bytes) (trialRootAt 0 0) (zeros 32) };
  { s with vault := Cells.writeRange erased s.vault (trialTagAt 0 0) (kmac (zeros 32) "BX4016 TRIAL" (trial0.bytes ++ zeros 32) 32) }

theorem trial_first {s : State} {t : TSlot} {r : Trial} (h : s.trialCopy? t 0 = some r) (h' : s.trialCopy? t 1 = none) : s.trial t = r := by
  unfold State.trial State.liveTrial?
  rw [h, h']

theorem onTrial_is (ph : Phase) (x : Tenant) : ((onTrial ph x).trial 0).onTrial = true := by
  let v := Cells.writeRange erased (Cells.writeRange erased [] (trialAt 0 0) trial0.bytes) (trialRootAt 0 0) (zeros 32)
  let tag := kmac (zeros 32) "BX4016 TRIAL" (trial0.bytes ++ zeros 32) 32
  have wf : Cells.wf erased v = true := by decide +kernel
  have n : tag.length = 32 := kmac_length _ _ _ 32 (by decide)
  have b1 : (onTrial ph x).vaultBytes (trialAt 0 0) 64 = trial0.bytes := by
    show (v.writeRange erased (trialTagAt 0 0) tag).readRange erased (trialAt 0 0) 64 = _
    rw [readRange_writeRange_other wf _ _ _ _ (Or.inl (by decide))]
    decide +kernel
  have b2 : (onTrial ph x).vaultBytes (trialRootAt 0 0) 32 = zeros 32 := by
    show (v.writeRange erased (trialTagAt 0 0) tag).readRange erased (trialRootAt 0 0) 32 = _
    rw [readRange_writeRange_other wf _ _ _ _ (Or.inl (by decide))]
    decide +kernel
  have b3 : (onTrial ph x).vaultBytes (trialTagAt 0 0) 32 = tag := by
    have := readRange_writeRange_same wf (trialTagAt 0 0) tag
    rw [n] at this
    exact this
  have c0 : ∃ r, (onTrial ph x).trialCopy? 0 0 = some r ∧ r.onTrial = true := by
    have bad : ((onTrial ph x).vaultBadIn (trialAt 0 0) 64 || (onTrial ph x).vaultBadIn (trialRootAt 0 0) 32 || (onTrial ph x).vaultBadIn (trialTagAt 0 0) 32 ||
        (onTrial ph x).integrityKey.isNone) = false := rfl
    have tg : (onTrial ph x).vaultBytes (trialTagAt 0 0) 32 =
        (onTrial ph x).trialTag ((onTrial ph x).vaultBytes (trialAt 0 0) 64) ((onTrial ph x).vaultBytes (trialRootAt 0 0) 32) := by
      rw [b1, b2, b3]
      rfl
    unfold State.trialCopy?
    dsimp only
    rw [if_neg (by rw [bad]; exact Bool.false_ne_true), if_pos tg, b1, b2]
    exact ⟨_, rfl, rfl⟩
  have c1 : (onTrial ph x).trialCopy? 0 1 = none := by
    have bad : ((onTrial ph x).vaultBadIn (trialAt 0 1) 64 || (onTrial ph x).vaultBadIn (trialRootAt 0 1) 32 || (onTrial ph x).vaultBadIn (trialTagAt 0 1) 32 ||
        (onTrial ph x).integrityKey.isNone) = true := rfl
    unfold State.trialCopy?
    simp only [bad, if_true]
  obtain ⟨r, h, t⟩ := c0
  rw [trial_first h c1]
  exact t

theorem onTrial_free (ph : Phase) : (onTrial ph released).mayRestart 0 = true := by
  let v := Cells.writeRange erased (Cells.writeRange erased [] (trialAt 0 0) trial0.bytes) (trialRootAt 0 0) (zeros 32)
  let tag := kmac (zeros 32) "BX4016 TRIAL" (trial0.bytes ++ zeros 32) 32
  have wf : Cells.wf erased v = true := by decide +kernel
  have n : tag.length = 32 := kmac_length _ _ _ 32 (by decide)
  have b : (onTrial ph released).vaultBytes (markAt 0) 1 = [0xFF] := by
    show (v.writeRange erased (trialTagAt 0 0) tag).readRange erased (markAt 0) 1 = _
    rw [readRange_writeRange_other wf _ _ _ _ (Or.inr (by rw [n]; decide))]
    decide +kernel
  unfold State.mayRestart State.markClosed State.markOpen
  rw [b]
  rfl

theorem witness_TrialsRestartAndRevert :
    (let s := servedAs { released with waiting := 1 }; s.decl? 0 = some declA ∧ s.awake = true ∧ (s.tenant 0).waiting = 1 ∧ s.mayRestart 0 = true) ∧
    (let s := servedAs { released with waiting := 1, eraseWait := some (0, 1) }; s.decl? 0 = some declA ∧ s.awake = true ∧ s.mayRestart 0 = false) ∧
    (served.tenant 0).waiting ≠ 1 ∧ (∀ ph x, ((onTrial ph x).tenant 0).windowEnds = some 7 ∧ (onTrial ph x).decl? 0 = some declA ∧ (onTrial ph x).probe.halted = false ∧
      ((onTrial ph x).trial 0).onTrial = true ∧ (onTrial ph x).power.phase = ph ∧ (onTrial ph x).sleep.resumeAt = none) ∧
    (onTrial .n { released with eraseWait := some (0, 1) }).mayRestart 0 = false ∧ (onTrial .n released).mayRestart 0 = true ∧ (served.tenant 0).windowEnds = none ∧
    (let s := servedAs { released with waiting := 2 }; s.awake = true ∧ (s.tenant 0).waiting = 2 ∧ s.power.commitLow = false ∧ s.update.ledger = []) := by
  refine ⟨by decide +kernel, by decide +kernel, by decide, fun ph x => ⟨rfl, rfl, rfl, onTrial_is ph x, rfl, rfl⟩, rfl, onTrial_free .n, rfl, by decide⟩

/-! ### Updates, parcels, handover, debug -/

/-- A signed envelope without key or signature around a payload. -/
def envelope (payload : Bytes) : Bytes := [0x84, 0x43, 0xA1, 0x01, 0x26, 0xA0, 0x58, BitVec.ofNat 8 payload.length] ++ payload ++ [0x40]

/-- An install statement for slot 0: any unit, version 0, an image of no bytes. -/
def statement0 : Bytes := envelope ([0xA6, 1, 1, 2, 0xF6, 3, 0, 4, 0, 5, 0, 6, 0x58, 0x20] ++ zeros 32)

/-- The object: a header of R409 and the statement. -/
def object0 : Bytes := [0x42, 0x58, 0x49, 0x58, 1, 1, 0, 0] ++ be 4 statement0.length ++ zeros 52 ++ statement0

/-- A unit in Maker state with an object in work. -/
def installing (i : Install) : State := { served with boot := { served.boot with life := .maker }, update := { up.update with install := some i } }

/-- The object as the intake of port A took it. -/
def install0 (object : Bytes) (checked : Bool) : Install := ⟨2, none, 1, 0, statement0.length, object, 0, checked, 0, [], 0⟩

/-- A schedule pair in work, its image all zeros. -/
def pair0 : Install := ⟨2, none, 2, 0xFF, 128, zeros (64 + 128), 0, true, 0, [], 0⟩

theorem witness_InstallsAreCheckedThenWritten :
    (let s := installing (install0 object0 false); s.awake = true ∧ s.update.install = some (install0 object0 false) ∧ (install0 object0 false).checked = false ∧
      s.readObject (install0 object0 false) = some (install0 object0 false) ∧ s.isRunning = true ∧ s.boot.life ≠ .scrapped ∧ s.audit.queue.length < 32 ∧
      s.stages ((install0 object0 false).named (object0.drop 64)) (object0.drop 64) = none) ∧
    (let s := installing (install0 (zeros 64) false);
      s.readObject (install0 (zeros 64) false) = some (install0 (zeros 64) false) ∧ s.stages ((install0 (zeros 64) false).named []) [] = some (Code.insForm, 0)) ∧
    (let i := { install0 (object0.take 64) false with intake := some 5 }; (installing i).readObject i = none) ∧ up.update.install = none ∧
    (let s := installing (install0 object0 true); s.power.commitLow = false ∧ s.running.manifest = some (manifestOfTenants [declA]) ∧ s.decl? (slotOfNat 0) = some declA ∧
      bodyParts 1 (object0.drop 64) = some (statement0, [])) ∧
    (let s := installing pair0; s.awake = true ∧ s.power.commitLow = false ∧ pair0.pair.isSome = true) ∧
    (let s := { served with boot := { served.boot with startDone := true }, update := { up.update with pendingPair := some (zeros 128, []) } };
      s.awake = true ∧ s.update.install = none ∧ s.installBusy = false ∧ s.staged = true) ∧ (tripped .n).power.commitLow = true := by
  refine ⟨by decide +kernel, by decide +kernel, by decide +kernel, rfl, by decide +kernel, by decide +kernel, by decide +kernel, rfl⟩

/-- An import whose fragments are all there. -/
def importing (object : Bytes) : State :=
  let s := linked .member;
  { s with flash := { s.flash with poolReady := true }, update := { s.update with importing := some ⟨unit1, 1, 1, 1, [(0, object)]⟩ } }

/-- A parcel's 86 bytes of header with an empty order and no block. -/
def parcel0 : Bytes := [0x42, 0x58, 0x50, 0x43, 1, 0, 0, 0] ++ zeros 78

/-- An export of slot 0 to unit 1 in work at a step. -/
def exporting (step : Nat) (x : Tenant) : State :=
  let s := linked .member;
  { s with tenants := s.tenants.set 0 x, running := { s.running with manifest := some { manifestOfTenants [declA] with link := some group0 } }
           update := { s.update with exporting := some ⟨0, unit1, [], 0, step, zeros 500, 3, 3, 100, []⟩ } }

theorem witness_TenantParcelsTravel :
    (∃ r, Passes (linked .member) (sealedFrame false Code.fParcel [1, 0, 1, 0, 0, 0, 2, 0xAA]) Code.fParcel [1, 0, 1, 0, 0, 0, 2, 0xAA] r) ∧
    isFragment 1 [1, 0, 1, 0, 0, 0, 2, 0xAA] = true ∧ (linked .member).update.importing = none ∧ (linked .member).installBusy = false ∧
    (let x : Transfer := ⟨unit1, 1, 1, 2, []⟩; x.takes unit1 [1, 0, 1, 0, 0, 0, 2, 0xAA] = true ∧ x.takes unit2 [1, 0, 1, 0, 0, 0, 2, 0xAA] = false ∧ x.peer ≠ unit2 ∧
      x.takes unit1 [1, 0, 2, 0, 0, 0, 2, 0xAA] = false) ∧
    (importing []).importBegun = false ∧ (importing []).update.install = none ∧ (importing []).update.exporting = none ∧ (importing []).link.receiving = none ∧ (importing []).intakeOpen = false ∧
    (let s := importing []; s.awake = true ∧ s.link.opened = true ∧ s.flash.poolReady = true ∧ s.importReady? = some ⟨unit1, 1, 1, 1, [(0, [])]⟩ ∧
      parcelOf (Transfer.bytes ⟨unit1, 1, 1, 1, [(0, [])]⟩) = none) ∧
    (let s := importing parcel0; s.importReady? = some ⟨unit1, 1, 1, 1, [(0, parcel0)]⟩ ∧
      (parcelOf (Transfer.bytes ⟨unit1, 1, 1, 1, [(0, parcel0)]⟩)).bind ((s.setClock (s.clock.skipLaps 3 true)).importFit unit1) = some Code.insForm) ∧
    (∃ r, Passes (linked .member) (sealedFrame false Code.fParcel [1, 0, 0, 0xFF, 0xFF, 0, 0, 0]) Code.fParcel [1, 0, 0, 0xFF, 0xFF, 0, 0, 0] r) ∧
    isMessage 1 [1, 0, 0, 0xFF, 0xFF, 0, 0, 0] = true ∧
    (let s := exporting 3 { released with frozen := true }; s.awake = true ∧ s.update.exporting = some ⟨0, unit1, [], 0, 3, zeros 500, 3, 3, 100, []⟩) ∧
    (∃ r, Passes (requesting none 0) (sealedFrame false Code.fAck [0]) Code.fAck [0] r) ∧ ((requesting none 0).requestOf? (sealedFrame false Code.fAck [0]) Code.fParcel).isSome = true ∧
    (let s := { servedAs { released with bounce := { Bounce.none with state := .opened } } with update := { up.update with install := some { install0 object0 true with kind := 3 } } };
      s.awake = true ∧ s.update.exporting = none ∧ (s.tenant (slotOfNat 0)).bounce.state ≠ .empty) ∧
    (exporting 1 released).drained 0 = true ∧ (exporting 1 { released with eraseWait := some (0, 1) }).drained 0 = false ∧ (exporting 1 released).decl? 0 = some declA := by
  refine ⟨at_linked _ _ _ _ (by decide +kernel) (by decide +kernel) (by decide +kernel), by decide +kernel, rfl, by decide +kernel, by decide +kernel, by decide +kernel, rfl, rfl, rfl, rfl, by decide +kernel, by decide +kernel,
    at_linked _ _ _ _ (by decide +kernel) (by decide +kernel) (by decide +kernel), by decide +kernel, by decide +kernel,
    at_requesting _ _ _ _ (by decide +kernel) (by decide +kernel) (by decide +kernel), by decide +kernel, by decide +kernel, by decide +kernel, by decide +kernel, by decide +kernel⟩

/-- The ROM that tries PEER. -/
def trying : State := { inPhase .b with boot := { Boot.reset with stage := .attempt .peer [] }, link := { Link.reset with opened := true, idleSeen := true } }

/-- A recovery fragment of a transfer of `n` fragments. -/
def pairFragment (n : Byte) : Bytes := [2, 0, 1, 0, 0, 0, n, 0xAA]

/-- The frame that brings it to the unit. -/
def pairFrame (n : Byte) : Frame := plainFrame false Code.fParcel (pairFragment n)

/-- A member with a held tenant whose source is PEER. -/
def heldPeer : State :=
  let s := linked .member;
  { s with tenants := s.tenants.set 0 { released with life := .held }
           running := { s.running with manifest := some { manifestOfTenants [declA] with link := some group0, recovery := [⟨0, some .peer, 0⟩] } } }

/-- A recovery request for any image of slot 0. -/
def request0 : Bytes := [3, 0, 1, 0xFF, 0xFF, 0, 0, 0] ++ zeros 16

theorem pair_taken (n : Byte) (h : n = 1 ∨ n = 2) : trying.romTakes (pairFrame n) = true := by
  have c : ((pairFrame n).check == be 2 (crc16 ((pairFrame n).head ++ (pairFrame n).payload)).toNat) = true := by
    rw [show pairFrame n = plainFrame false Code.fParcel (pairFragment n) from rfl, plain_check, beq_self_eq_true]
  unfold State.romTakes
  rw [c]
  rcases h with rfl | rfl <;> decide +kernel

theorem witness_RecoveryObjectsTravel :
    (∃ r, Passes (linked .member) (pairFrame 2) Code.fParcel (pairFragment 2) r) ∧ isFragment 2 (pairFragment 2) = true ∧
    (trying.romTakes (pairFrame 2) = true ∧ trying.romTakes (pairFrame 1) = true ∧ isFragment 2 (pairFragment 1) = true ∧
      (storeFragment trying.link.receiving unit1 (pairFragment 2)).complete = false ∧ (storeFragment trying.link.receiving unit1 (pairFragment 1)).complete = true) ∧
    ((inPhase .b).power.phase = .b ∧ (inPhase .b).romTakes frame0 = false) ∧
    (let s := { linked .lead with link := { (linked .lead).link with lostMembers := [(unit1, 90)] } }; s.link.role = .lead ∧
      s.link.lostMembers.find? (fun x => x.1 == unit1) = some (unit1, 90) ∧ s.clock.boundaries < 90 + 40960 ∧ s.sending unit1 0x02 = false ∧
      Binding.admits .any unit1 = true) ∧
    (∃ r, Passes (linked .member) (plainFrame false Code.fParcel [3, 0, 1, 0, 0, 0, 2, 0xAA]) Code.fParcel [3, 0, 1, 0, 0, 0, 2, 0xAA] r) ∧
    ((linked .member).link.lead.map Peer.unit = some (plainFrame false Code.fParcel [3, 0, 1, 0, 0, 0, 2, 0xAA]).peer ∧ (linked .member).link.receiving = none ∧
      (storeFragment none unit1 [3, 0, 1, 0, 0, 0, 2, 0xAA]).complete = false) ∧
    (∃ r, Passes (linked .lead) (plainFrame false Code.fParcel request0) Code.fParcel request0 r) ∧ isMessage 3 request0 = true ∧
    ((linked .lead).session? (.unit unit1) ≠ none ∧ allSlots.find? ((linked .lead).holdsImage (slice request0 8 16)) = none ∧ (linked .lead).link.outbox = []) ∧
    (heldPeer.awake = true ∧ heldPeer.link.role = .member ∧ heldPeer.link.request = none ∧ heldPeer.link.lead = some unit1 ∧ heldPeer.recoverySource? 0 = some .peer ∧
      (heldPeer.tenant 0).life = .held ∧ heldPeer.session? (.unit unit1) ≠ none) ∧ ((linked .member).tenant 0).life ≠ .held := by
  refine ⟨at_plain _ (by decide +kernel) rfl (by decide +kernel) (by decide +kernel) (plain_check _ _ _) (by decide +kernel) (by decide +kernel), by decide +kernel,
    ⟨pair_taken 2 (Or.inr rfl), pair_taken 1 (Or.inl rfl), by decide +kernel, by decide +kernel, by decide +kernel⟩, ⟨rfl, by decide +kernel⟩, by decide +kernel,
    at_plain _ (by decide +kernel) rfl (by decide +kernel) (by decide +kernel) (plain_check _ _ _) (by decide +kernel) (by decide +kernel), by decide +kernel,
    at_plain _ (by decide +kernel) rfl (by decide +kernel) (by decide +kernel) (plain_check _ _ _) (by decide +kernel) (by decide +kernel), by decide +kernel, by decide +kernel, by decide +kernel, by decide +kernel⟩

/-- The envelope of an empty payload map. -/
def manifest0 : Bytes := envelope [0xA0]

/-- A unit with a handover due. -/
def handing : State :=
  { served with running := { served.running with schedule := some (scheduleOf1 3), handover := some (manifest0, zeros 128) }, boot := { served.boot with startDone := true } }

/-- A unit whose self-check is due under an unreadable ledger. -/
def checking : State := { served with running := { served.running with selfCheckDue := true } }

theorem witness_HandoverSwitchesThePrograms : handing.awake = true ∧ handing.isRunning = true ∧ handing.handoverClear = true ∧
    handing.running.handover = some (manifest0, zeros 128) ∧ handing.running.manifest = some (manifestOfTenants [declA]) ∧ handing.running.schedule = some (scheduleOf1 3) ∧
    (decodeManifest manifest0).isSome = true ∧ handing.boot.life ≠ .scrapped ∧ handing.audit.queue.length < 32 ∧ served.running.handover = none ∧
    handing.toFrame.endLanes.boot.life ≠ .scrapped ∧ handing.toFrame.endLanes.audit.queue.length + 3 ≤ 32 ∧
    checking.awake = true ∧ checking.running.selfCheckDue = true ∧
    (let m := checking.setClock (checking.clock.toLap checking.frameLength); m.selfCheckPasses = false ∧ m.clock.lap < 64) ∧
    served.running.selfCheckDue = false := by decide +kernel

/-- A unit with its debug port enabled at a reach. -/
def probed (r : Reach) (halted : Bool) : State := { withChip served with probe := { Debug.reset with reach := some r, haltAsked := !halted, halted := halted } }

theorem witness_DebugPortStaysWithinReach : (probed .halt false).reaches 1 = true ∧ (probed .halt false).power.phase = .n ∧ (probed .halt false).probe.halted = false ∧
    (probed .observe false).reaches 1 = false ∧ (probed .halt false).probe.haltAsked = true ∧ (probed .halt false).awake = true ∧ (probed .halt false).mayHalt = true ∧
    (let s := { probed .halt false with stagingPlace := some 0 }; s.mayHalt = false) ∧ up.probe.haltAsked = false ∧ (probed .halt true).probe.halted = true ∧ up.probe.reach = none ∧
    (probed .observe false).grants (readReach .sram 0) = false ∧ (probed .halt false).grants (readReach .sram 0) = true ∧ (probed .halt false).hasWord .sram 0xFFFC = true ∧
    (probed .halt false).hasWord .sram 0x10000 = false ∧ (probed .maker false).grants (readReach .scan 0) = true ∧ (probed .halt false).chipServes 0 = true ∧
    (probed .halt false).grants (writeReach .otpWord) = false ∧ (probed .maker false).grants (writeReach .otpWord) = true ∧
    (probed .maker false).grants (writeReach .otpPatch) = true ∧ (probed .maker false).hasWord .otpWord 0x38 = true ∧ 14 ≤ 0x38 / 4 ∧ 0x38 / 4 ≠ 23 ∧
    (let s := { probed .maker false with otp := { Otp.blank with words := Otp.blank.words.set 23 1#32 } }; (s.otpWord 23).getLsbD (makerField 0).2.2 = true ∧ s.hasWord .otpWord 0 = true) ∧ (probed .halt false).grants (writeReach .den) = true ∧
    (probed .halt false).flashBusy = false ∧ (probed .halt false).power.commitLow = false ∧ (probed .halt false).flash.cutAt = none ∧ (probed .halt false).flash.deepDown = false := by
  decide +kernel

/-! ### Small steps, with the values that the rule or the case named gives -/

/-- A command answers a next state that satisfies `p`. -/
def after (c : Instr) (s : State) (p : State → Bool) : Bool := match exec c s with | .next t => p t | _ => false

/-- T1 of the case in *Tenants and virtual flash*: port B, `partition` 8, `Den share` 24, `opcode groups` 91. -/
def declT1 : TenantDecl := ⟨1, .portB, 0, [], 8, 24, 2, 4, .synchronous, 91, .hold, none, [0xEF, 0x40, 0x16], true⟩

/-- T1 served and idle, WEL set. -/
def caseT1 : State := { withTenant up declT1 { released with groups := 91 } with portB := { PortSt.reset with mode := .tenant 1, wel := true } }

/-- The case's first rows: the filtered D8h leaves WEL; after the lane poll 70h reads 0x90 and the fault page holds the refusal. -/
theorem test_case_filtered : after (.filteredOpcode .b 0xD8 (some 0x040000)) caseT1 (fun s => s.portB.wel &&
    after (.lanePoll 1) s (fun s => after (.readFlagStatus .b 1) s (fun t => t.portB.out == [0x90]) &&
      after (.readData .b 0x07F000 16) s (fun t => t.portB.out == [0x90, 0x01, 0x15, 0xD8, 0x00, 0x04, 0, 0, 0, 1, 0, 0, 0xFF, 0xFF, 0xFF, 0xFF]))) = true := by
  decide +kernel

/-- The case's last rows: 50h leaves 70h as it was until the lane poll, which clears REFUSE and the last refusal; the count stays. -/
theorem test_case_cleared : after (.filteredOpcode .b 0xD8 (some 0x040000)) caseT1 (fun s => after (.lanePoll 1) s (fun s => after (.clearFlags .b) s (fun s =>
    after (.readFlagStatus .b 1) s (fun t => t.portB.out == [0x90]) && after (.lanePoll 1) s (fun s =>
      after (.readFlagStatus .b 1) s (fun t => t.portB.out == [0x80]) && (s.tenant 1).lastReason == 0 && (s.tenant 1).refusals == 1)))) = true := by
  decide +kernel

/-- T1's read of a leaf that the cache does not hold answers 0x5A, 70h then reads MISS without READY (R19, the case in *Continuous verification*). -/
theorem test_case_miss : after (.readData .b 0x018000 4) caseT1 (fun s => s.portB.out == [0x5A, 0x5A, 0x5A, 0x5A] &&
    after (.readFlagStatus .b 1) s (fun t => t.portB.out == [0x40])) = true := by decide +kernel

/-- 06h sets WEL and 04h clears it (the opcode table of *Tenants and virtual flash*). -/
theorem test_wel : after (.writeEnable .b) { caseT1 with portB := { caseT1.portB with wel := false } } (fun t => t.portB.wel) = true ∧
    after (.writeDisable .b) caseT1 (fun t => !t.portB.wel) = true := by decide +kernel

/-- 9Fh returns the identification bytes, then 0x00. -/
theorem test_read_id : after (.readId .b 5) caseT1 (fun t => t.portB.out == [0xEF, 0x40, 0x16, 0, 0]) = true := by decide +kernel

/-- Slots within a lap are numbered 0–65,535 (R10). -/
theorem test_idle_step_wraps : (match step { up with clock := { up.clock with slot := 65535 } } with | .next t => t.clock.slot == 0 | _ => false) = true := by
  decide +kernel

/-- A program of flash only clears bits (R251). -/
theorem test_program_clears_bits : Cells.read erased (Cells.program (Cells.program [] 5 [0xF0]) 5 [0x3C]) 5 = 0x30 := by decide +kernel

/-- Multi-byte integers are big-endian (R6). -/
theorem test_big_endian : be 4 0x01020304 = [1, 2, 3, 4] ∧ field [0, 1, 2, 3] 1 2 = 0x0102 := by decide +kernel

/-- A probe at reach OBSERVE does not halt the fabric, one at HALT asks for it (R477, R479). -/
theorem test_halt_request : after .probeHaltRequest (probed .observe true) (fun t => t.probe == (probed .observe true).probe) = true ∧
    after .probeHaltRequest { probed .halt false with probe := { Debug.reset with reach := some .halt } } (fun t => t.probe.haltAsked) = true := by decide +kernel

end Sys2Proof.Tests.Slice0
end

