-- ==== Sys2Proof/Proofs/NoticeSends.lean ====
section
/-! PROOFS. The sends of notices (R57–R62, R66–R68): what the notice word holds, what a written notice and the wake it may ask for change,
the status of a send, and the statement about them. -/
namespace Sys2Proof.Notices
open Sys2Proof.Machine Sys2Proof.Safety Sys2Proof.Laws

/-! ### The notice word (R57) -/

theorem noticeWord_toNat (sender : Fin 16) (seq : BitVec 8) (r : NoticeReq) : (noticeWord sender.val seq r).toNat =
    sender.val * 2 ^ 28 + seq.toNat * 2 ^ 20 + r.offset.toNat * 2 ^ 12 + r.length.toNat * 2 ^ 7 + r.topic.toNat := by
  rw [noticeWord, BitVec.toNat_ofNat, Nat.mod_eq_of_lt]
  omega

/-- No field of the word overlaps another: each reads back as it was put in. -/
theorem noticeWord_fields (sender : Fin 16) (seq : BitVec 8) (r : NoticeReq) :
    let w := noticeWord sender.val seq r
    w.toNat / 2 ^ 28 = sender.val ∧ w.toNat / 2 ^ 20 % 256 = seq.toNat ∧ w.toNat / 2 ^ 12 % 256 = r.offset.toNat ∧
      w.toNat / 2 ^ 7 % 32 = r.length.toNat ∧ w.toNat % 128 = r.topic.toNat := by
  simp only [noticeWord_toNat]
  omega

/-! ### A channel replaced -/

variable (s : State)

theorem setChannel_same (ch : Fin 12) (c : Channel) : (s.setChannel ch c).mailbox.channels[ch] = c := by
  simp [State.setChannel]

theorem setChannel_other (ch k : Fin 12) (c : Channel) (h : k ≠ ch) :
    (s.setChannel ch c).mailbox.channels[k] = s.mailbox.channels[k] := by
  have : ch.val ≠ k.val := fun e => h (Fin.ext e.symm)
  simp [State.setChannel, this]

theorem setChannel_locked (ch : Fin 12) (c : Channel) : (s.setChannel ch c).mailbox.locked = s.mailbox.locked := rfl

/-! ### A notice written (R60, R61) -/

theorem put_decl (c : Channel) (d : ChannelDecl) (a : Bool) (r : NoticeReq) : (c.put d a r).decl = c.decl := rfl

theorem put_queue (c : Channel) (d : ChannelDecl) (a : Bool) (r : NoticeReq) : (c.put d a r).queue =
    (if d.shared = true then [] else c.queue) ++ [(noticeWord r.sender.val (if a then c.seqA else c.seqB) r, a)] := by
  cases h : d.shared <;> simp [Channel.put, h]

theorem put_collided (c : Channel) {d : ChannelDecl} (a : Bool) (r : NoticeReq) (h : d.shared = true) (q : c.queue ≠ []) :
    (c.put d a r).collidedA = true ∧ (c.put d a r).collidedB = true := by
  simp [Channel.put, h, q]

/-! ### The wake of a receiver (R66, R68, R121) -/

/-- Nothing but events, the sleep state, the power state and the draws of free bits may differ. -/
def WakeOnly (s u : State) : Prop :=
  u = { s with events := u.events, sleep := u.sleep, power := u.power, freeDrawn := u.freeDrawn }

section
variable {s} {u : State}

theorem WakeOnly.mailbox (h : WakeOnly s u) : u.mailbox = s.mailbox := by
  unfold WakeOnly at h
  rw [h]

theorem WakeOnly.tenants (h : WakeOnly s u) : u.tenants = s.tenants := by
  unfold WakeOnly at h
  rw [h]

theorem WakeOnly.otp (h : WakeOnly s u) : u.otp = s.otp := by
  unfold WakeOnly at h
  rw [h]

end

theorem readyBoundary_wakeOnly : WakeOnly s s.readyBoundary.2 := by
  unfold State.readyBoundary
  split <;> rfl

theorem readyBoundary_events : s.readyBoundary.2.events = s.events := by
  unfold State.readyBoundary
  split <;> rfl

theorem readyBoundary_power : s.readyBoundary.2.power = s.power := by
  unfold State.readyBoundary
  split <;> rfl

/-- Outside S, and in S with a boundary already asked for, a wake asks for nothing. -/
theorem askWake_same (h : s.power.phase = .s → s.sleep.resumeAt ≠ none) : s.askWake = s := by
  unfold State.askWake
  split
  · next asleep =>
    split
    · rfl
    · next unasked => exact absurd unasked (h asleep)
  · rfl

theorem askWake_first (h : s.power.phase = .s) (unasked : s.sleep.resumeAt = none) :
    s.askWake = { s.readyBoundary.2.latch Ev.wakeRequest with
      power := { s.power with buckOn := true, fabricOn := true, vaultOn := true }
      sleep := { (s.readyBoundary.2.latch Ev.wakeRequest).sleep with resumeAt := some s.readyBoundary.1 } } := by
  simp only [State.askWake, h, unasked, if_true, readyBoundary_power]

theorem askWake_wakeOnly : WakeOnly s s.askWake := by
  by_cases h : s.power.phase = .s ∧ s.sleep.resumeAt = none
  · obtain ⟨asleep, unasked⟩ := h
    have bound := readyBoundary_wakeOnly s
    unfold WakeOnly at *
    rw [askWake_first s asleep unasked]
    simp only [State.latch]
    rw [bound]
  · rw [askWake_same s fun asleep unasked => h ⟨asleep, unasked⟩]
    rfl

/-- In S the fabric has a boundary to resume at, and no event is latched before it. -/
theorem askWake_asked (h : s.power.phase = .s) : s.askWake.sleep.resumeAt ≠ none ∧ s.askWake.events = s.events := by
  by_cases unasked : s.sleep.resumeAt = none
  · have asleep : s.readyBoundary.2.power.phase = .s := by rw [readyBoundary_power, h]
    have waits : (s.readyBoundary.2.latch Ev.wakeRequest).events = s.readyBoundary.2.events :=
      (latch_waiting _ Ev.wakeRequest (by decide) asleep).2
    rw [askWake_first s h unasked]
    refine ⟨Option.some_ne_none _, ?_⟩
    rw [← readyBoundary_events s, ← waits]
  · rw [askWake_same s fun _ => unasked]
    exact ⟨unasked, rfl⟩

theorem noticeArrived_wakeOnly (side : SideDecl) : WakeOnly s (s.noticeArrived side) := by
  unfold State.noticeArrived
  split
  · split
    · exact askWake_wakeOnly s
    · split <;> rfl
  · rfl

/-- While the fabric runs, no notice changes the power state. -/
theorem noticeArrived_power (side : SideDecl) (h : s.power.phase = .n) : (s.noticeArrived side).power = s.power := by
  unfold State.noticeArrived State.fabricDown
  simp only [h, bne_self_eq_false, Bool.false_eq_true, if_false]
  split
  · split <;> rfl
  · rfl

theorem noticeArrived_latches (side : SideDecl) (h : s.power.phase = .n) (f : isFabricMaster side.identity = true) {n : Nat} (hn : n < 8)
    (e : side.event = some n) : (s.noticeArrived side).eventBit (Ev.mailbox n) = true := by
  simp only [State.noticeArrived, f, State.fabricDown, h, bne_self_eq_false, Bool.false_eq_true, if_true, if_false, e]
  exact latch_eventBit s _ (by unfold Ev.mailbox; omega) (by simp [h])

theorem noticeArrived_asked (side : SideDecl) (h : s.power.phase = .s) (f : isFabricMaster side.identity = true) :
    (s.noticeArrived side).sleep.resumeAt ≠ none ∧ (s.noticeArrived side).events = s.events := by
  have down : s.fabricDown = true := by simp [State.fabricDown, h]
  rw [State.noticeArrived, if_pos f, if_pos down]
  exact askWake_asked s h

/-! ### The status of a send (R59) -/

section Status
variable {s : State} {c : Channel} {r : NoticeReq} {d : ChannelDecl} {a : Bool}

theorem sendStatusOf_noTable (h : s.mailbox.locked = false ∨ c.decl = none) : s.sendStatusOf c r = sendUnbound := by
  unfold State.sendStatusOf
  split
  · next d hl hd => simp [hl, hd] at h
  · rfl

theorem sendStatusOf_noSide (l : s.mailbox.locked = true) (hd : c.decl = some d) (h : d.sendingSide r.sender.val = none) :
    s.sendStatusOf c r = sendUnbound := by
  simp only [State.sendStatusOf, l, hd, h]

/-- The receiver can be reached: no fabric master, or the fabric is up, or the side wakes it (R66–R68). -/
def Reachable (s : State) (side : SideDecl) : Prop :=
  isFabricMaster side.identity = false ∨ s.power.phase = .n ∨ side.wake = true

theorem reachable_iff {side : SideDecl} :
    Reachable s side ↔ (isFabricMaster side.identity && s.fabricDown && !side.wake) = false := by
  unfold Reachable State.fabricDown
  cases isFabricMaster side.identity <;> cases side.wake <;> simp

/-- Past UNBOUND, the conditions in the order of R59. -/
theorem sendStatusOf_bound (l : s.mailbox.locked = true) (hd : c.decl = some d) (h : d.sendingSide r.sender.val = some a) :
    s.sendStatusOf c r =
      if !noticeInRegion (d.side a) r then sendRange
      else if isFabricMaster (d.side !a).identity && s.fabricDown && !(d.side !a).wake then sendAsleep
      else if !d.shared && decide (d.depth ≤ c.queue.length) then sendFull
      else if d.shared && !c.queue.isEmpty then sendOverwrote
      else sendAccepted := by
  simp only [State.sendStatusOf, l, hd, h]

variable (l : s.mailbox.locked = true) (hd : c.decl = some d) (ha : d.sendingSide r.sender.val = some a)
include l hd ha

theorem sendStatusOf_range (h : noticeInRegion (d.side a) r = false) : s.sendStatusOf c r = sendRange := by
  simp [sendStatusOf_bound l hd ha, h]

theorem sendStatusOf_asleep (h : noticeInRegion (d.side a) r = true) (f : isFabricMaster (d.side !a).identity = true)
    (p : s.power.phase ≠ .n) (w : (d.side !a).wake = false) : s.sendStatusOf c r = sendAsleep := by
  simp [sendStatusOf_bound l hd ha, h, f, State.fabricDown, p, w]

theorem sendStatusOf_full (h : noticeInRegion (d.side a) r = true) (up : Reachable s (d.side !a)) (p : d.shared = false)
    (q : d.depth ≤ c.queue.length) : s.sendStatusOf c r = sendFull := by
  simp only [sendStatusOf_bound l hd ha, h, reachable_iff.1 up, p, q]
  rfl

theorem sendStatusOf_written (h : noticeInRegion (d.side a) r = true) (up : Reachable s (d.side !a))
    (room : d.shared = true ∨ c.queue.length < d.depth) :
    s.sendStatusOf c r = if d.shared = true ∧ c.queue ≠ [] then sendOverwrote else sendAccepted := by
  have notFull : (!d.shared && decide (d.depth ≤ c.queue.length)) = false := by
    rcases room with p | q
    · simp [p]
    · simp [Nat.not_le.2 q]
  simp [sendStatusOf_bound l hd ha, h, reachable_iff.1 up, notFull]

end Status

/-! ### One send at a channel edge -/

/-- The state after a notice of side `a` is written and its receiver told. -/
def noticed (s : State) (ch : Fin 12) (d : ChannelDecl) (a : Bool) (r : NoticeReq) : State :=
  (s.setChannel ch (s.mailbox.channels[ch].put d a r)).noticeArrived (d.side !a)

variable {s} {ch : Fin 12} {r : NoticeReq} {d : ChannelDecl} {a : Bool}

/-- Only ACCEPTED and OVERWROTE write the notice (R59). -/
theorem channelSend_refused {code : BitVec 3} (h : s.sendStatusOf s.mailbox.channels[ch] r = code)
    (hc : code ≠ sendAccepted ∧ code ≠ sendOverwrote) : s.channelSend ch r = (code, s) := by
  obtain ⟨notAccepted, notOverwrote⟩ := hc
  simp only [State.channelSend, h, notAccepted, notOverwrote, or_self, if_false]

theorem channelSend_written (l : s.mailbox.locked = true) (hd : s.mailbox.channels[ch].decl = some d)
    (ha : d.sendingSide r.sender.val = some a) (h : noticeInRegion (d.side a) r = true) (up : Reachable s (d.side !a))
    (room : d.shared = true ∨ s.mailbox.channels[ch].queue.length < d.depth) :
    s.channelSend ch r = (if d.shared = true ∧ s.mailbox.channels[ch].queue ≠ [] then sendOverwrote else sendAccepted, noticed s ch d a r) := by
  have status := sendStatusOf_written l hd ha h up room
  have writes : s.sendStatusOf s.mailbox.channels[ch] r = sendAccepted ∨ s.sendStatusOf s.mailbox.channels[ch] r = sendOverwrote := by
    rw [status]
    split
    · exact .inr rfl
    · exact .inl rfl
  rw [← status]
  simp only [State.channelSend, writes, if_true, hd, ha, Option.getD_some, noticed]

/-- The channel apart, a written notice changes what a wake may change. -/
theorem noticed_wakeOnly : WakeOnly (s.setChannel ch (s.mailbox.channels[ch].put d a r)) (noticed s ch d a r) :=
  noticeArrived_wakeOnly _ _

theorem noticed_channel : (noticed s ch d a r).mailbox.channels[ch] = s.mailbox.channels[ch].put d a r := by
  rw [noticed_wakeOnly.mailbox, setChannel_same]

theorem noticed_other {k : Fin 12} (h : k ≠ ch) : (noticed s ch d a r).mailbox.channels[k] = s.mailbox.channels[k] := by
  rw [noticed_wakeOnly.mailbox, setChannel_other s ch k _ h]

theorem noticed_locked : (noticed s ch d a r).mailbox.locked = s.mailbox.locked := by
  rw [noticed_wakeOnly.mailbox, setChannel_locked]

theorem noticed_power (h : s.power.phase = .n) : (noticed s ch d a r).power = s.power := noticeArrived_power _ _ h

theorem noticed_queue : ∃ w : BitVec 32,
    (noticed s ch d a r).mailbox.channels[ch].queue = (if d.shared = true then [] else s.mailbox.channels[ch].queue) ++ [(w, a)] ∧
    w.toNat / 2 ^ 28 = r.sender.val ∧
    w.toNat / 2 ^ 20 % 256 = (if a then s.mailbox.channels[ch].seqA else s.mailbox.channels[ch].seqB).toNat ∧
    w.toNat / 2 ^ 12 % 256 = r.offset.toNat ∧ w.toNat / 2 ^ 7 % 32 = r.length.toNat ∧ w.toNat % 128 = r.topic.toNat := by
  rw [noticed_channel]
  exact ⟨_, put_queue _ d a r, noticeWord_fields _ _ _⟩

theorem noticed_queue_shared (p : d.shared = true) :
    ∃ w : BitVec 32, (noticed s ch d a r).mailbox.channels[ch].queue = [(w, a)] ∧ w.toNat / 2 ^ 28 = r.sender.val := by
  obtain ⟨w, queue, sender, -⟩ := noticed_queue (s := s) (ch := ch) (r := r) (d := d) (a := a)
  rw [if_pos p] at queue
  exact ⟨w, queue, sender⟩

theorem noticed_unread (p : d.shared = true) : (noticed s ch d a r).mailbox.channels[ch].queue ≠ [] := by
  obtain ⟨w, queue, -⟩ := noticed_queue_shared (s := s) (ch := ch) (r := r) (a := a) p
  rw [queue]
  exact List.cons_ne_nil _ _

theorem noticed_collided (p : d.shared = true) (q : s.mailbox.channels[ch].queue ≠ []) :
    (noticed s ch d a r).mailbox.channels[ch].collidedA = true ∧ (noticed s ch d a r).mailbox.channels[ch].collidedB = true := by
  rw [noticed_channel]
  exact put_collided _ a r p q

theorem noticed_latches (h : s.power.phase = .n) (f : isFabricMaster (d.side !a).identity = true) {n : Nat} (hn : n < 8)
    (e : (d.side !a).event = some n) : (noticed s ch d a r).eventBit (Ev.mailbox n) = true :=
  noticeArrived_latches (s.setChannel ch _) _ h f hn e

theorem noticed_asked (h : s.power.phase = .s) (f : isFabricMaster (d.side !a).identity = true) :
    (noticed s ch d a r).sleep.resumeAt ≠ none ∧ (noticed s ch d a r).events = s.events :=
  noticeArrived_asked (s.setChannel ch _) _ h f

/-! ### The command -/

/-- What the senders learn at the edge (R59). -/
def withStatus (u : State) (x : BitVec 3 × BitVec 3) : State := { u with mailbox := { u.mailbox with sendStatus := x } }

theorem exec_noticeSend (ch : Fin 12) (r : NoticeReq) (other : Option NoticeReq) (s : State) :
    exec (.noticeSend ch r other) s = execNoticeSend ch r other s := rfl

theorem exec_noticeSend_alone (h : s.masterRuns r.sender.val = true) :
    exec (.noticeSend ch r none) s = .next (withStatus (s.channelSend ch r).2 ((s.channelSend ch r).1, 0)) := by
  simp only [exec_noticeSend, execNoticeSend, h, if_true, withStatus]

/-- The lower identity is written first (R62). -/
theorem exec_noticeSend_both {b : NoticeReq} {x y : BitVec 3} {t u : State} (hr : s.masterRuns r.sender.val = true)
    (hb : s.masterRuns b.sender.val = true) (lower : r.sender.val < b.sender.val) (first : s.channelSend ch r = (x, t))
    (second : t.channelSend ch b = (y, u)) : exec (.noticeSend ch r (some b)) s = .next (withStatus u (x, y)) := by
  have differ : b.sender ≠ r.sender := fun e => by rw [e] at lower; omega
  have order : sendsInOrder r b = (r, b) := if_neg (by omega)
  simp [exec_noticeSend, execNoticeSend, hr, hb, differ, order, first, second, withStatus]

theorem completes_refused {code : BitVec 3} (run : s.masterRuns r.sender.val = true)
    (h : s.sendStatusOf s.mailbox.channels[ch] r = code) (hc : code ≠ sendAccepted ∧ code ≠ sendOverwrote) :
    Completes (.noticeSend ch r none) s (fun u => u = { s with mailbox := { s.mailbox with sendStatus := (code, 0) } }) := by
  refine ⟨_, exec_noticeSend_alone run, ?_⟩
  rw [channelSend_refused h hc, withStatus]

theorem completes_written {P : State → Prop} (run : s.masterRuns r.sender.val = true) (l : s.mailbox.locked = true)
    (hd : s.mailbox.channels[ch].decl = some d) (ha : d.sendingSide r.sender.val = some a) (h : noticeInRegion (d.side a) r = true)
    (up : Reachable s (d.side !a)) (room : d.shared = true ∨ s.mailbox.channels[ch].queue.length < d.depth)
    (p : P (withStatus (noticed s ch d a r) (if d.shared = true ∧ s.mailbox.channels[ch].queue ≠ [] then 1 else 0, 0))) :
    Completes (.noticeSend ch r none) s P := by
  refine ⟨_, exec_noticeSend_alone run, ?_⟩
  rw [channelSend_written l hd ha h up room]
  exact p

theorem withStatus_noticed_frame (x : BitVec 3 × BitVec 3) :
    let u := withStatus (noticed s ch d a r) x
    u = { s with mailbox := u.mailbox, events := u.events, sleep := u.sleep, power := u.power, freeDrawn := u.freeDrawn } := by
  have h := noticed_wakeOnly (s := s) (ch := ch) (r := r) (d := d) (a := a)
  unfold WakeOnly at h
  intro u
  unfold u withStatus
  rw [h]
  rfl

/-! ### Both sides of a shared channel at one edge (R62) -/

theorem sendingSide_lower {i : Nat} (h : d.sideA.identity = i) : d.sendingSide i = some true := if_pos h

theorem sendingSide_higher {i : Nat} (p : d.shared = true) (hA : d.sideA.identity ≠ i) (hB : d.sideB.identity = i) :
    d.sendingSide i = some false := by
  simp [ChannelDecl.sendingSide, p, hA, hB]

/-- Both sides of a shared channel send in N, the lower identity at A: two writes, of which the second finds the first
unread (R62). The first is OVERWROTE when a notice stood unread before it, the model's choice of log 66. -/
theorem exec_noticeSend_collision {b : NoticeReq} (hr : s.masterRuns r.sender.val = true) (hb : s.masterRuns b.sender.val = true)
    (l : s.mailbox.locked = true) (hd : s.mailbox.channels[ch].decl = some d) (p : d.shared = true) (hA : d.sideA.identity = r.sender.val)
    (hB : d.sideB.identity = b.sender.val) (lower : r.sender.val < b.sender.val) (inA : noticeInRegion d.sideA r = true)
    (inB : noticeInRegion d.sideB b = true) (n : s.power.phase = .n) :
    exec (.noticeSend ch r (some b)) s = .next (withStatus (noticed (noticed s ch d true r) ch d false b)
      (if s.mailbox.channels[ch].queue = [] then 0 else 1, 1)) := by
  have sideA : d.sendingSide r.sender.val = some true := sendingSide_lower hA
  have sideB : d.sendingSide b.sender.val = some false := sendingSide_higher p (by omega) hB
  have found : (noticed s ch d true r).mailbox.channels[ch].queue ≠ [] := noticed_unread p
  have first := channelSend_written l hd sideA inA (.inr (.inl n)) (.inl p)
  have second := channelSend_written (s := noticed s ch d true r) (ch := ch) (noticed_locked.trans l)
    (by rw [noticed_channel, put_decl, hd]) sideB inB (.inr (.inl (by rw [noticed_power n, n]))) (.inl p)
  rw [if_pos ⟨p, found⟩] at second
  simp only [p, true_and, ne_eq, ite_not] at first
  exact exec_noticeSend_both hr hb lower first second

/-- Settles O34: each refusal by its status; a notice written by what it puts in the channel and by the wake of its receiver; both sides at
one edge by two writes in order. -/
theorem noticeSendStatuses : Obligations.NoticeSendStatuses := by
  unfold Obligations.NoticeSendStatuses
  refine ⟨fun s ch r run => ⟨fun h => ?noTable, fun d l hd => ⟨fun ha => ?noSide, fun a ha => ⟨fun h => ?range, fun h f p w => ?asleep,
    fun h up => ⟨fun p q => ?full, fun room => ?written⟩⟩⟩⟩, fun s ch d a b ra rb l hd p hA hB lower inA inB n => ?both⟩
  case noTable => exact completes_refused run (sendStatusOf_noTable h) (by decide)
  case noSide => exact completes_refused run (sendStatusOf_noSide l hd ha) (by decide)
  case range => exact completes_refused run (sendStatusOf_range l hd ha h) (by decide)
  case asleep => exact completes_refused run (sendStatusOf_asleep l hd ha h f p w) (by decide)
  case full => exact completes_refused run (sendStatusOf_full l hd ha h up p q) (by decide)
  case written =>
    exact completes_written run l hd ha h up room ⟨rfl, noticed_queue, congrArg Channel.seqA noticed_channel,
      congrArg Channel.seqB noticed_channel, noticed_collided, fun k => noticed_other,
      fun n f _ hn e => noticed_latches n f hn e, noticed_asked, withStatus_noticed_frame _⟩
  case both =>
    obtain ⟨collidedA, collidedB⟩ := noticed_collided (a := false) (r := b) p (noticed_unread (s := s) (ch := ch) (a := true) (r := a) p)
    exact ⟨_, exec_noticeSend_collision ra rb l hd p hA hB lower inA inB n, rfl, noticed_queue_shared p, collidedA, collidedB,
      noticed_wakeOnly.tenants.trans noticed_wakeOnly.tenants, noticed_wakeOnly.otp.trans noticed_wakeOnly.otp⟩

end Sys2Proof.Notices
end

