-- ==== Sys2Proof/Proofs/IgnoredCommands.lean ====
section
/-! PROOFS. The commands that a port ignores (R277, R278): a tenant's front end that takes nothing, busy or in deep power-down, starts the
command and does nothing else. -/
namespace Sys2Proof.IgnoredCommands
open Sys2Proof.Machine Sys2Proof.Safety Sys2Proof.Laws

variable {s : State} {p : Port} {t : TSlot} {d : TenantDecl}

/-! ### The start of a command at a port that serves a tenant -/

theorem tenant_servesIntake (h : s.view p = .tenant t d) : s.servesIntake p = false := by
  cases intake : s.servesIntake p with
  | false => rfl
  | true => simp [State.view, intake] at h

/-- The ROM hears a fall only while port A is the intake that it tries (R187), so none at a tenant's port. -/
theorem hearFall_of_tenant (h : s.view p = .tenant t d) : s.hearFall p = s := by
  have served := tenant_servesIntake h
  refine if_neg ?_
  rintro ⟨rfl, mode⟩
  simp [State.servesIntake, State.port, mode] at served

theorem beginCommand_of_tenant (h : s.view p = .tenant t d) : s.beginCommand p = s.setPort p (begun (s.port p)) := by
  rw [State.beginCommand, hearFall_of_tenant h]
  rfl

theorem view_setPort_begun : (s.setPort p (begun (s.port p))).view p = s.view p := by cases p <;> rfl

theorem view_beginCommand (h : s.view p = .tenant t d) : (s.beginCommand p).view p = .tenant t d := by
  rw [beginCommand_of_tenant h, view_setPort_begun, h]

theorem port_beginCommand (h : s.view p = .tenant t d) : (s.beginCommand p).port p = begun (s.port p) := by
  rw [beginCommand_of_tenant h, setPort_same]

/-! ### A front end that takes no command (R277, R278) -/

/-- The port serves tenant `t`, and WIP or deep power-down keeps it from taking a command. -/
structure Shut (s : State) (p : Port) (t : TSlot) (d : TenantDecl) : Prop where
  view : s.view p = .tenant t d
  closed : (s.port p).takes = false

theorem takes_eq_false {x : PortSt} : x.takes = false ↔ x.wip = true ∨ x.deepDown = true := by
  cases hw : x.wip <;> cases hd : x.deepDown <;> simp [PortSt.takes, hw, hd]

namespace Shut

theorem begin (h : Shut s p t d) : Shut (s.beginCommand p) p t d :=
  ⟨view_beginCommand h.view, by rw [port_beginCommand h.view]; exact h.closed⟩

theorem withFree (h : Shut s p t d) (n : Nat) : Shut { s with freeDrawn := n } p t d := ⟨h.view, h.closed⟩

theorem mayWrite (h : Shut s p t d) (onByte : Bool) : (s.port p).mayWrite onByte = false := by
  simp [PortSt.mayWrite, h.closed]

/-- R277: a filtered opcode sets no flag and counts nothing. -/
theorem filter (h : Shut s p t d) (opcode : Byte) (addr : Option (BitVec 24)) : s.filter p t opcode addr = s := by
  simp [State.filter, h.closed]

theorem groupRead (h : Shut s p t d) (g : Option Group) (opcode : Byte) (addr : BitVec 24) (count : Nat) (io0 : Option (BitVec 24)) :
    s.groupRead p g opcode addr count io0 = s := by
  simp [State.groupRead, h.view, h.closed, h.filter]

theorem setWel (h : Shut s p t d) (opcode : Byte) (v : Bool) : s.setWel p opcode v = s := by
  simp [State.setWel, h.view, h.closed, h.filter]

theorem groupErase (h : Shut s p t d) (g : Group) (opcode : Byte) (addr : BitVec 24) (onByte : Bool) (op : WriteOp) :
    s.groupErase p g opcode addr onByte op = s := by
  simp [State.groupErase, h.view, h.mayWrite, h.filter]

end Shut

/-! ### The commands -/

/-- The command ends as it began: what R276 and R278 leave open may have drawn free bits (log 2). -/
def Ignored (c : Instr) (s : State) (p : Port) : Prop := ∃ n, exec c s = .next { s.beginCommand p with freeDrawn := n }

theorem Ignored.of_begun {c : Instr} (h : exec c s = .next (s.beginCommand p)) : Ignored c s p := ⟨_, h⟩

theorem Ignored.completes {c : Instr} (i : Ignored c s p) (h : s.view p = .tenant t d) :
    Completes c s (fun u => u = { s.setPort p (begun (s.port p)) with freeDrawn := u.freeDrawn }) := by
  obtain ⟨n, e⟩ := i
  exact ⟨_, e, by rw [beginCommand_of_tenant h]⟩

/-- The IO0 bits of BBh that R276 leaves open are the only change that reading the line makes. -/
theorem dualIoBytes_state (addr : BitVec 24) (mode : Byte) (count : Nat) :
    ∃ n, (s.dualIoBytes addr mode count).2 = { s with freeDrawn := n } := by
  unfold State.dualIoBytes
  split
  · exact ⟨_, rfl⟩
  · exact ⟨_, rfl⟩

/-- As `dualIoBytes_state`, for EBh. -/
theorem quadIoBytes_state (addr : BitVec 24) (mode : Byte) (count : Nat) :
    ∃ n, (s.quadIoBytes addr mode count).2 = { s with freeDrawn := n } := by
  unfold State.quadIoBytes
  split
  · exact ⟨_, rfl⟩
  · exact ⟨_, rfl⟩

section
variable (h : Shut s p t d)
include h

theorem readData_ignored (addr : BitVec 24) (count : Nat) : Ignored (.readData p addr count) s p :=
  .of_begun (by simp [exec, execReadData, h.begin.view, h.begin.groupRead])

theorem fastRead_ignored (addr : BitVec 24) (count : Nat) : Ignored (.fastRead p addr count) s p :=
  .of_begun (by simp [exec, execFastRead, h.begin.view, h.begin.groupRead])

theorem dualOutputRead_ignored (addr : BitVec 24) (count : Nat) : Ignored (.dualOutputRead p addr count) s p :=
  .of_begun (congrArg _ (h.begin.groupRead ..))

theorem quadOutputRead_ignored (addr : BitVec 24) (count : Nat) : Ignored (.quadOutputRead p addr count) s p :=
  .of_begun (congrArg _ (h.begin.groupRead ..))

theorem dualIoRead_ignored (addr : BitVec 24) (mode : Byte) (count : Nat) : Ignored (.dualIoRead p addr mode count) s p := by
  obtain ⟨n, drawn⟩ := dualIoBytes_state (s := s.beginCommand p) addr mode count
  exact ⟨n, by simp only [exec, execDualIoRead, drawn, (h.begin.withFree n).groupRead]⟩

theorem quadIoRead_ignored (addr : BitVec 24) (mode : Byte) (count : Nat) : Ignored (.quadIoRead p addr mode count) s p := by
  obtain ⟨n, drawn⟩ := quadIoBytes_state (s := s.beginCommand p) addr mode count
  exact ⟨n, by simp only [exec, execQuadIoRead, drawn, (h.begin.withFree n).groupRead]⟩

theorem writeEnable_ignored : Ignored (.writeEnable p) s p := .of_begun (congrArg _ (h.begin.setWel ..))

theorem writeDisable_ignored : Ignored (.writeDisable p) s p := .of_begun (congrArg _ (h.begin.setWel ..))

theorem pageProgram_ignored (addr : BitVec 24) (data : Bytes) (onByte : Bool) : Ignored (.pageProgram p addr data onByte) s p :=
  .of_begun (by simp [exec, execPageProgram, h.begin.view, h.begin.mayWrite, h.begin.filter])

theorem sectorErase4k_ignored (addr : BitVec 24) (onByte : Bool) : Ignored (.sectorErase4k p addr onByte) s p :=
  .of_begun (congrArg _ (h.begin.groupErase ..))

theorem blockErase64k_ignored (addr : BitVec 24) (onByte : Bool) : Ignored (.blockErase64k p addr onByte) s p :=
  .of_begun (congrArg _ (h.begin.groupErase ..))

theorem readSfdp_ignored (addr : BitVec 24) (count : Nat) : Ignored (.readSfdp p addr count) s p :=
  .of_begun (by simp [exec, execReadSfdp, h.begin.view, h.begin.closed])

theorem readId_ignored (count : Nat) : Ignored (.readId p count) s p :=
  .of_begun (by simp [exec, execReadId, h.begin.view, h.begin.closed])

theorem deepPowerDown_ignored : Ignored (.deepPowerDown p) s p :=
  .of_begun (by simp [exec, execDeepPowerDown, h.begin.view, h.begin.closed, h.begin.filter])

theorem filteredOpcode_ignored (opcode : Byte) (addr : Option (BitVec 24)) : Ignored (.filteredOpcode p opcode addr) s p :=
  .of_begun (by simp [exec, execFilteredOpcode, h.begin.view, h.begin.filter])

/-- ABh while WIP is set (R277): its address, when the group is not honoured, is open and reported to no one. -/
theorem releasePowerDown_ignored (busy : (s.port p).wip = true) (count : Nat) : Ignored (.releasePowerDown p count) s p := by
  have wip : ((s.beginCommand p).port p).wip = true := by rw [port_beginCommand h.view]; exact busy
  have unreported := (h.begin.withFree ((s.beginCommand p).freeDrawn + 1)).filter 0xAB
  cases honoured : ((s.beginCommand p).tenant t).hasGroup .powerDown with
  | true => exact .of_begun (by simp [exec, execReleasePowerDown, h.begin.view, honoured, wip])
  | false =>
    by_cases short : count = 0
    · exact .of_begun (by simp [exec, execReleasePowerDown, h.begin.view, honoured, short, h.begin.filter])
    · exact ⟨_, by simp only [exec, execReleasePowerDown, h.begin.view, honoured, short, State.freeBelow, unreported]; rfl⟩

end

section
variable (h : s.view p = .tenant t d) (down : (s.port p).deepDown = true)
include h down

theorem deepDown_beginCommand : ((s.beginCommand p).port p).deepDown = true := by
  rw [port_beginCommand h]
  exact down

theorem readStatus_ignored (count : Nat) : Ignored (.readStatus p count) s p :=
  .of_begun (by simp [exec, execReadStatus, deepDown_beginCommand h down])

theorem readFlagStatus_ignored (count : Nat) : Ignored (.readFlagStatus p count) s p :=
  .of_begun (by simp [exec, execReadFlagStatus, view_beginCommand h, deepDown_beginCommand h down])

theorem clearFlags_ignored : Ignored (.clearFlags p) s p :=
  .of_begun (by simp [exec, execClearFlags, view_beginCommand h, deepDown_beginCommand h down])

end

/-- A page for the intake does nothing at a port A that serves a tenant (R414). -/
theorem intakePageProgram_ignored (h : s.view .a = .tenant t d) (addr : BitVec 24) (data : Bytes) :
    Ignored (.intakePageProgram addr data) s .a :=
  .of_begun (by simp [exec, execIntakePageProgram, view_beginCommand h])

/-- Whether WIP or deep power-down keeps port `p` from answering the command: R277 excepts five commands from the first, R278 one from the
second, where the model answers the reset pair too (log 112). -/
def Unanswered (c : Instr) (s : State) (p : Port) : Prop :=
  ((s.port p).wip = true ∧ (∀ n, c ≠ .readStatus p n) ∧ (∀ n, c ≠ .readFlagStatus p n) ∧ c ≠ .clearFlags p ∧ c ≠ .resetEnable p ∧ c ≠ .reset p) ∨
    ((s.port p).deepDown = true ∧ c ≠ .resetEnable p ∧ c ≠ .reset p ∧ (∀ n, c ≠ .releasePowerDown p n))

namespace Unanswered
variable {c : Instr} (h : Unanswered c s p)
include h

theorem closed : (s.port p).takes = false := takes_eq_false.mpr (h.imp And.left And.left)

theorem not_resetEnable : c ≠ .resetEnable p := by
  obtain ⟨_, _, _, _, h, _⟩ | ⟨_, h, _, _⟩ := h <;> exact h

theorem not_reset : c ≠ .reset p := by
  obtain ⟨_, _, _, _, _, h⟩ | ⟨_, _, h, _⟩ := h <;> exact h

/-- R277 answers 05h, 70h and 50h while WIP is set, so only deep power-down leaves them unanswered. -/
theorem deepDown (status : (∃ n, c = .readStatus p n) ∨ (∃ n, c = .readFlagStatus p n) ∨ c = .clearFlags p) :
    (s.port p).deepDown = true := by
  obtain ⟨_, not05, not70, not50, _, _⟩ | ⟨down, _⟩ := h
  · obtain ⟨n, e⟩ | ⟨n, e⟩ | e := status
    · exact absurd e (not05 n)
    · exact absurd e (not70 n)
    · exact absurd e not50
  · exact down

/-- R278 answers ABh in deep power-down, so only WIP leaves it unanswered. -/
theorem wip {n : Nat} (release : c = .releasePowerDown p n) : (s.port p).wip = true := by
  obtain ⟨busy, _⟩ | ⟨_, _, _, notAB⟩ := h
  · exact busy
  · exact absurd release (notAB n)

end Unanswered

/-- Every command that clocks an opcode at a tenant's port and that WIP or deep power-down leaves unanswered is ignored. -/
theorem unanswered_ignored {c : Instr} (clocked : portOf c = some p) (view : s.view p = .tenant t d) (h : Unanswered c s p) : Ignored c s p := by
  have shut : Shut s p t d := ⟨view, h.closed⟩
  cases c with
  | readData => cases clocked; exact readData_ignored shut ..
  | fastRead => cases clocked; exact fastRead_ignored shut ..
  | dualOutputRead => cases clocked; exact dualOutputRead_ignored shut ..
  | dualIoRead => cases clocked; exact dualIoRead_ignored shut ..
  | quadOutputRead => cases clocked; exact quadOutputRead_ignored shut ..
  | quadIoRead => cases clocked; exact quadIoRead_ignored shut ..
  | writeEnable => cases clocked; exact writeEnable_ignored shut
  | writeDisable => cases clocked; exact writeDisable_ignored shut
  | pageProgram => cases clocked; exact pageProgram_ignored shut ..
  | sectorErase4k => cases clocked; exact sectorErase4k_ignored shut ..
  | blockErase64k => cases clocked; exact blockErase64k_ignored shut ..
  | readStatus => cases clocked; exact readStatus_ignored view (h.deepDown (.inl ⟨_, rfl⟩)) _
  | readFlagStatus => cases clocked; exact readFlagStatus_ignored view (h.deepDown (.inr (.inl ⟨_, rfl⟩))) _
  | clearFlags => cases clocked; exact clearFlags_ignored view (h.deepDown (.inr (.inr rfl)))
  | readSfdp => cases clocked; exact readSfdp_ignored shut ..
  | readId => cases clocked; exact readId_ignored shut _
  | resetEnable => cases clocked; exact absurd rfl h.not_resetEnable
  | reset => cases clocked; exact absurd rfl h.not_reset
  | deepPowerDown => cases clocked; exact deepPowerDown_ignored shut
  | releasePowerDown => cases clocked; exact releasePowerDown_ignored shut (h.wip rfl) _
  | filteredOpcode => cases clocked; exact filteredOpcode_ignored shut ..
  | intakePageProgram => cases clocked; exact intakePageProgram_ignored view ..
  | _ => cases clocked

/-- Settles O24: an ignored command ends as it began. -/
theorem busyOrSleepingPortIgnoresCommands : Obligations.BusyOrSleepingPortIgnoresCommands := by
  unfold Obligations.BusyOrSleepingPortIgnoresCommands
  exact fun _ _ _ _ _ clocked view h => (unanswered_ignored clocked view h).completes view

end Sys2Proof.IgnoredCommands
end
